-- ==== Sys2Proof/Word.lean ====
section
/-! DEFINITION. Words, bytes and the two plain-data containers the state is made of: sparse cells of
one width (registers, storage) and tables of records. Rules R3, R6, R63. -/

namespace Sys2Proof

/-- A byte of storage. -/
abbrev Byte := BitVec 8

/-- The 32-bit word of a scalar register or of one lane of a vector register (R6). -/
abbrev Word := BitVec 32

/-- A 64-bit value: a program counter, a virtual address, a register pair, a lane set (R63, R69, R105). -/
abbrev DWord := BitVec 64

/-- A set of lanes, one bit a lane (R105). -/
abbrev Lanes := BitVec 64

/-- Sparse storage of `w`-bit cells: pairs of a key and a value, keys strictly rising, no value zero.
A key that is not listed reads as zero. -/
abbrev Cells (w : Nat) := List (Nat × BitVec w)

/-- A table of records by a numeric key. A key that is not listed has the record's default. -/
abbrev Table (α : Type) := List (Nat × α)

end Sys2Proof
end

