-- ==== Sys2Proof/Machine/Cells.lean ====
section
/-! DEFINITION. Reading and writing the two plain-data containers of the state, sparse cells and tables, and
the small bit-field, sign-extension and byte-order helpers that every other file uses. -/

namespace Sys2Proof.Machine

/-- The cell at key `k`; a key that is not listed reads as zero. -/
def cget {w : Nat} : Cells w → Nat → BitVec w
  | [], _ => 0
  | (k, x) :: c, i => if i < k then 0 else if i = k then x else cget c i

/-- Writes `x` at key `i` and keeps the form: keys rising, no zero listed. -/
def cset {w : Nat} : Cells w → Nat → BitVec w → Cells w
  | [], i, x => if x = 0 then [] else [(i, x)]
  | (k, y) :: c, i, x =>
    if i < k then (if x = 0 then (k, y) :: c else (i, x) :: (k, y) :: c)
    else if i = k then (if x = 0 then c else (k, x) :: c)
    else (k, y) :: cset c i x

/-- All keys of `c` are above `lo`, rising, and no listed value is zero. -/
def cellsFrom {w : Nat} : Nat → Cells w → Bool
  | _, [] => true
  | lo, (k, x) :: c => decide (lo ≤ k) && decide (x ≠ 0) && cellsFrom (k + 1) c

/-- The canonical form of sparse cells. -/
def cellsWf {w : Nat} (c : Cells w) : Bool := cellsFrom 0 c

/-- Removes the cells whose key lies in `[lo, hi)`. -/
def cclear {w : Nat} (c : Cells w) (lo hi : Nat) : Cells w :=
  c.filter fun p => p.1 < lo || hi ≤ p.1

/-- The cells whose key lies in `[lo, hi)`, moved down by `lo`. -/
def cslice {w : Nat} (c : Cells w) (lo hi : Nat) : Cells w :=
  (c.filter fun p => lo ≤ p.1 && p.1 < hi).map fun p => (p.1 - lo, p.2)

/-- Writes each of `xs` from key `i` on. -/
def csetList {w : Nat} : Cells w → Nat → List (BitVec w) → Cells w
  | c, _, [] => c
  | c, i, x :: xs => csetList (cset c i x) (i + 1) xs

/-- Writes the cells of `src`, moved up by `base`. -/
def cmerge {w : Nat} (c : Cells w) (base : Nat) (src : Cells w) : Cells w :=
  src.foldl (fun c p => cset c (base + p.1) p.2) c

/-- The `n` cells from key `i` on. -/
def cgetList {w : Nat} (c : Cells w) (i : Nat) : Nat → List (BitVec w)
  | 0 => []
  | n + 1 => cget c i :: cgetList c (i + 1) n

/-- The record of a key, if it is listed. -/
def tfind {α : Type} : Table α → Nat → Option α
  | [], _ => none
  | (k, x) :: t, i => if i < k then none else if i = k then some x else tfind t i

/-- The record of a key, `d` where it is not listed. -/
def tget {α : Type} (d : α) (t : Table α) (i : Nat) : α := (tfind t i).getD d

/-- Writes the record of a key. -/
def tset {α : Type} : Table α → Nat → α → Table α
  | [], i, x => [(i, x)]
  | (k, y) :: t, i, x =>
    if i < k then (i, x) :: (k, y) :: t else if i = k then (k, x) :: t else (k, y) :: tset t i x

/-- Takes the record of a key out. -/
def tdel {α : Type} (t : Table α) (i : Nat) : Table α := t.filter fun p => p.1 != i

/-- Puts `x` into a set kept as a list without repeats. -/
def sput (l : List Nat) (x : Nat) : List Nat := if l.contains x then l else l ++ [x]

/-- Takes `x` out of a set kept as a list. -/
def sdel (l : List Nat) (x : Nat) : List Nat := l.filter (· != x)

/-- Bits `hi` to `lo` of a word, as a number. -/
def bits {w : Nat} (x : BitVec w) (hi lo : Nat) : Nat := x.toNat / 2 ^ lo % 2 ^ (hi + 1 - lo)

/-- Bit `i` of a number. -/
def nbit (x i : Nat) : Bool := x / 2 ^ i % 2 = 1

/-- The bytes of a number, least significant first (R3: little-endian). -/
def toBytes : Nat → Nat → List Byte
  | _, 0 => []
  | x, n + 1 => BitVec.ofNat 8 x :: toBytes (x / 256) n

/-- The number that bytes spell, least significant first. -/
def ofBytes : List Byte → Nat
  | [] => 0
  | b :: bs => b.toNat + 256 * ofBytes bs

/-- The signed value of the low `w` bits of a number. -/
def sgn (w x : Nat) : Int := if x % 2 ^ w < 2 ^ (w - 1) then (x % 2 ^ w : Nat) else (x % 2 ^ w : Nat) - (2 ^ w : Nat)

/-- An integer modulo 2^w, as a number. -/
def wrap (w : Nat) (x : Int) : Nat := (x % (2 ^ w : Nat)).toNat

/-- A number as a signed integer saturated to `w` bits. -/
def clampS (w : Nat) (x : Int) : Int := max (-(2 ^ (w - 1) : Nat)) (min x ((2 ^ (w - 1) : Nat) - 1))

/-- A number as an unsigned integer saturated to `w` bits. -/
def clampU (w : Nat) (x : Int) : Int := max 0 (min x ((2 ^ w : Nat) - 1))

/-- The 64-bit value whose low and high words these are. -/
def pair (lo hi : Word) : DWord := hi ++ lo

/-- Low word of a 64-bit value. -/
def lo32 (x : DWord) : Word := BitVec.setWidth 32 x

/-- High word of a 64-bit value. -/
def hi32 (x : DWord) : Word := BitVec.setWidth 32 (x >>> 32)

/-- The lanes below `n`. -/
def lanesBelow (n : Nat) : Lanes := BitVec.ofNat 64 (2 ^ n - 1)

/-- Numbers of the lanes of a set, rising. -/
def laneList (m : Lanes) : List Nat := (List.range 64).filter fun i => m.getLsbD i

/-- Number of lanes of a set. -/
def popcount {w : Nat} (m : BitVec w) : Nat := ((List.range w).filter fun i => m.getLsbD i).length

/-- The set of the lanes for which `f` holds. -/
def lanesOf (f : Nat → Bool) : Lanes :=
  BitVec.ofNat 64 ((List.range 64).foldr (fun i a => 2 * a + (if f i then 1 else 0)) 0)

/-- Index of the lowest set bit, if any. -/
def lowBit {w : Nat} (m : BitVec w) : Option Nat := (List.range w).find? fun i => m.getLsbD i

/-- Index of the highest set bit, if any. -/
def highBit {w : Nat} (m : BitVec w) : Option Nat := (List.range w).reverse.find? fun i => m.getLsbD i

/-- Number of binary digits of a number. -/
def bitLen (n : Nat) : Nat := if n = 0 then 0 else Nat.log2 n + 1

/-- Sum of a list of numbers. -/
def total (l : List Nat) : Nat := l.foldl (· + ·) 0

end Sys2Proof.Machine
end

