-- ==== Sys2Proof/Syntax.lean ====
section
/-! DEFINITION. The formats of the instruction words (R71 to R80) as structures of their fields, and the
ONE inductive `Instr`: one constructor for every row of the opcode table, the wave's instructions first,
then the steps of the module's other agents ("events"), which carry the names of the parties they act on. -/

namespace Sys2Proof

/-- C16, the 16-bit format (R71): second source, destination and first source, distance bit. -/
structure C16 where
  vb : BitVec 5
  vd : BitVec 5
  d4 : Bool
  deriving DecidableEq, Repr

/-- K32 (R73): an 11-bit immediate, one register field, the distance. -/
structure K32 where
  imm : BitVec 11
  d : BitVec 8
  dist : BitVec 3
  deriving DecidableEq, Repr

/-- B32 (R74): the 19 bits above the opcode, which each branch divides as its row gives, and the distance. -/
structure B32 where
  off : BitVec 19
  dist : BitVec 3
  deriving DecidableEq, Repr

/-- L64 (R75). -/
structure L64 where
  imm : BitVec 32
  sub7 : BitVec 7
  d : BitVec 8
  cf : BitVec 4
  dist : BitVec 3
  deriving DecidableEq, Repr

/-- G64 (R76), and T64, which has its bit layout (R78). -/
structure G64 where
  xe : Bool
  xi : BitVec 3
  sub : BitVec 4
  mod : BitVec 4
  sc : Bool
  sb : Bool
  sa : Bool
  c : BitVec 8
  b : BitVec 8
  a : BitVec 8
  d : BitVec 8
  cf : BitVec 4
  dist : BitVec 3
  deriving DecidableEq, Repr

/-- M64 (R77). `as` of the manual is `asc` here: A is of scalar class. -/
structure M64 where
  imm : BitVec 14
  aop : BitVec 4
  size : BitVec 3
  order : BitVec 3
  scope : BitVec 3
  asc : Bool
  tr : BitVec 3
  a : BitVec 8
  d : BitVec 8
  cf : BitVec 4
  dist : BitVec 3
  deriving DecidableEq, Repr

/-- REP, in the P32 layout (R79): steps of the fields C, B, A and D, repeat count less one, distance. -/
structure Rep where
  stc : BitVec 2
  stb : BitVec 2
  sta : BitVec 2
  std : BitVec 2
  cnt : BitVec 6
  dist : BitVec 3
  deriving DecidableEq, Repr

/-- PBLK, in the P32 layout (R80). -/
structure Pblk where
  sense : Bool
  cm : BitVec 3
  pat : BitVec 8
  cnt : BitVec 3
  dist : BitVec 3
  deriving DecidableEq, Repr

/-- The instructions of a wave and the steps of the other agents of the module, one constructor for each
row of the opcode table. -/
inductive Instr where
  /-- NOP_K32 (R108): Does nothing. -/
  | nopK32 (f : K32)
  /-- NOP_L64 (R108): Does nothing; IMM32 is a tag for tools. -/
  | nopL64 (f : L64)
  /-- SMOV (R107): Copies a scalar or scalar pair. -/
  | smov (f : G64)
  /-- SMOVI_K32 (R108): Writes a sign-extended 11-bit immediate to a scalar register. -/
  | smoviK32 (f : K32)
  /-- SMOVI_L64 (R108): Writes a 32-bit immediate, or a sign-extended 64-bit pair, to scalars. -/
  | smoviL64 (f : L64)
  /-- SADD_K32 (R108): Adds a sign-extended immediate to a scalar register in place. -/
  | saddK32 (f : K32)
  /-- SADD_G64 (R107): Scalar add, optionally with carry out or carry in through scc. -/
  | saddG64 (f : G64)
  /-- SSUB_K32 (R108): Subtracts a sign-extended immediate from a scalar register in place. -/
  | ssubK32 (f : K32)
  /-- SSUB_G64 (R107): Scalar subtract, optionally with borrow through scc. -/
  | ssubG64 (f : G64)
  /-- SMUL_K32 (R108): Multiplies a scalar register by an immediate in place. -/
  | smulK32 (f : K32)
  /-- SMUL_G64 (R107): Low 32 bits of a scalar product. -/
  | smulG64 (f : G64)
  /-- SMULH (R107): High 32 bits of a signed or unsigned scalar product. -/
  | smulh (f : G64)
  /-- SAND_K32 (R108): ANDs a scalar register with an immediate in place. -/
  | sandK32 (f : K32)
  /-- SAND_G64 (R107): Scalar bitwise AND. -/
  | sandG64 (f : G64)
  /-- SOR_K32 (R108): ORs a scalar register with an immediate in place. -/
  | sorK32 (f : K32)
  /-- SOR_G64 (R107): Scalar bitwise OR. -/
  | sorG64 (f : G64)
  /-- SXOR_K32 (R108): XORs a scalar register with an immediate in place. -/
  | sxorK32 (f : K32)
  /-- SXOR_G64 (R107): Scalar bitwise XOR. -/
  | sxorG64 (f : G64)
  /-- SSHL_K32 (R108): Shifts a scalar register left by an immediate amount. -/
  | sshlK32 (f : K32)
  /-- SSHL_G64 (R107): Scalar shift left. -/
  | sshlG64 (f : G64)
  /-- SSHR_K32 (R108): Shifts a scalar register right, logically or arithmetically, by an immediate. -/
  | sshrK32 (f : K32)
  /-- SSHR_G64 (R107): Scalar shift right, logical or arithmetic. -/
  | sshrG64 (f : G64)
  /-- SCMP_K32 (R108): Compares two scalar operands and writes scc. -/
  | scmpK32 (f : K32)
  /-- SCMP_L64 (R108): Compares a scalar operand with an immediate and writes scc. -/
  | scmpL64 (f : L64)
  /-- SSEL (R107): Selects one of two scalars by scc. -/
  | ssel (f : G64)
  /-- SMINMAX (R107): Scalar signed or unsigned minimum or maximum. -/
  | sminmax (f : G64)
  /-- SBFX (R107): Extracts a scalar bit field, zero- or sign-extended. -/
  | sbfx (f : G64)
  /-- BRA_B32 (R110): Unconditional branch. -/
  | braB32 (f : B32)
  /-- BRA_L64 (R110): Unconditional long branch. -/
  | braL64 (f : L64)
  /-- BRC_B32 (R110): Branches when scc equals S. -/
  | brcB32 (f : B32)
  /-- BRC_L64 (R110): Long branch when scc equals S. -/
  | brcL64 (f : L64)
  /-- BRM_B32 (R110): Branches on a none, any, all or notall condition over a mask. -/
  | brmB32 (f : B32)
  /-- BRM_L64 (R110): Long branch on a mask condition. -/
  | brmL64 (f : L64)
  /-- CALL_B32 (R110): Writes the link to s62:s63 and branches. -/
  | callB32 (f : B32)
  /-- CALL_L64 (R110): Long call writing the link to s62:s63. -/
  | callL64 (f : L64)
  /-- RET (R112): Jumps to the address in a scalar pair. -/
  | ret (f : K32)
  /-- JMPI (R112): Jumps to a scalar-pair base plus a halfword offset. -/
  | jmpi (f : K32)
  /-- MLOG (R114): Combines whole masks. -/
  | mlog (f : G64)
  /-- MMOV (R115): Moves masks between masks, scalars and vectors. -/
  | mmov (f : G64)
  /-- MCNT (R116): Reduces a mask to a population count or bit index. -/
  | mcnt (f : G64)
  /-- SRD (R117): Reads a special register into scalars or vector lanes. -/
  | srd (f : K32)
  /-- SWR (R117): Writes a special register. -/
  | swr (f : K32)
  /-- WAIT (R94): Holds the wave until the named completion counters reach their limits. -/
  | wait (f : L64)
  /-- BART (R123): Arrives at a barrier route tag and holds the wave until the phase completes. -/
  | bart (f : K32)
  /-- LOOP (R113): Decrements a counter register and branches while it is not zero. -/
  | loop (f : L64)
  /-- EXIT (R126): Ends the wave, or removes the active lanes from LIVE. -/
  | exit (f : K32)
  /-- YIELD (R128): Takes a new Age and makes the wave not Ready for Y cycles. -/
  | yield (f : K32)
  /-- VADD_K32 (R134): Adds a sign-extended immediate to each active lane in place. -/
  | vaddK32 (f : K32)
  /-- VADD_G64 (R133): Vector integer add, wrapping or saturating. -/
  | vaddG64 (f : G64)
  /-- VADD_C16 (R72): Compact vector add. -/
  | vaddC16 (f : C16)
  /-- VSUB_K32 (R134): Subtracts a sign-extended immediate from each active lane in place. -/
  | vsubK32 (f : K32)
  /-- VSUB_G64 (R133): Vector integer subtract. -/
  | vsubG64 (f : G64)
  /-- VSUB_C16 (R72): Compact vector subtract. -/
  | vsubC16 (f : C16)
  /-- VMUL (R133): Low 32 bits of a per-lane product. -/
  | vmul (f : G64)
  /-- VMUL_C16 (R72): Compact vector multiply. -/
  | vmulC16 (f : C16)
  /-- VMULH (R133): High 32 bits of a per-lane product. -/
  | vmulh (f : G64)
  /-- VMAD (R133): Per-lane integer multiply-add. -/
  | vmad (f : G64)
  /-- VAND_K32 (R134): ANDs each active lane with an immediate in place. -/
  | vandK32 (f : K32)
  /-- VAND_G64 (R133): Vector bitwise AND. -/
  | vandG64 (f : G64)
  /-- VAND_C16 (R72): Compact vector AND. -/
  | vandC16 (f : C16)
  /-- VOR_K32 (R134): ORs each active lane with an immediate in place. -/
  | vorK32 (f : K32)
  /-- VOR_G64 (R133): Vector bitwise OR. -/
  | vorG64 (f : G64)
  /-- VOR_C16 (R72): Compact vector OR. -/
  | vorC16 (f : C16)
  /-- VXOR_K32 (R134): XORs each active lane with an immediate in place. -/
  | vxorK32 (f : K32)
  /-- VXOR_G64 (R133): Vector bitwise XOR. -/
  | vxorG64 (f : G64)
  /-- VXOR_C16 (R72): Compact vector XOR. -/
  | vxorC16 (f : C16)
  /-- VSHL (R133): Vector shift left. -/
  | vshl (f : G64)
  /-- VSHL_C16 (R72): Compact vector shift left. -/
  | vshlC16 (f : C16)
  /-- VSHR (R133): Vector shift right, logical or arithmetic. -/
  | vshr (f : G64)
  /-- VSHR_C16 (R72): Compact vector shift right. -/
  | vshrC16 (f : C16)
  /-- VMIN (R133): Per-element minimum. -/
  | vmin (f : G64)
  /-- VMIN_C16 (R72): Compact vector minimum. -/
  | vminC16 (f : C16)
  /-- VMAX (R133): Per-element maximum. -/
  | vmax (f : G64)
  /-- VMAX_C16 (R72): Compact vector maximum. -/
  | vmaxC16 (f : C16)
  /-- VBFX (R133): Per-lane bit-field extract. -/
  | vbfx (f : G64)
  /-- VPOPC (R133): Population count, leading or trailing zeros, or bit reverse. -/
  | vpopc (f : G64)
  /-- VSEL (R133): Selects per lane by a mask. -/
  | vsel (f : G64)
  /-- VCMPI_K32 (R73): Compares a vector with an immediate into m0. -/
  | vcmpiK32 (f : K32)
  /-- VCMPI_G64 (R133): Integer compare into any mask. -/
  | vcmpiG64 (f : G64)
  /-- FADD (R136): FP32 add. -/
  | fadd (f : G64)
  /-- FADD_C16 (R72): Compact FP32 add. -/
  | faddC16 (f : C16)
  /-- FSUB (R136): FP32 subtract. -/
  | fsub (f : G64)
  /-- FSUB_C16 (R72): Compact FP32 subtract. -/
  | fsubC16 (f : C16)
  /-- FMUL (R136): FP32 multiply. -/
  | fmul (f : G64)
  /-- FMUL_C16 (R72): Compact FP32 multiply. -/
  | fmulC16 (f : C16)
  /-- FFMA (R136): FP32 fused multiply-add. -/
  | ffma (f : G64)
  /-- FMIN (R137): FP32 minimum. -/
  | fmin (f : G64)
  /-- FMIN_C16 (R72): Compact FP32 minimum. -/
  | fminC16 (f : C16)
  /-- FMAX (R137): FP32 maximum. -/
  | fmax (f : G64)
  /-- FMAX_C16 (R72): Compact FP32 maximum. -/
  | fmaxC16 (f : C16)
  /-- FCMP (R137): FP32 compare into a mask. -/
  | fcmp (f : G64)
  /-- FCLASS (R137): Classifies an FP32 value. -/
  | fclass (f : G64)
  /-- FRND (R136): Rounds FP32 to an integral value. -/
  | frnd (f : G64)
  /-- FMED3 (R136): FP32 median of three. -/
  | fmed3 (f : G64)
  /-- FLERP (R136): FP32 linear interpolation rounded once. -/
  | flerp (f : G64)
  /-- FDOT2 (R136): Two-term FP16 or BF16 dot product plus FP32 addend. -/
  | fdot2 (f : G64)
  /-- FPK (R136): Packs two FP32 values into FP16 or BF16 halves. -/
  | fpk (f : G64)
  /-- HADD2 (R136): Paired half-precision add. -/
  | hadd2 (f : G64)
  /-- HMUL2 (R136): Paired half-precision multiply. -/
  | hmul2 (f : G64)
  /-- HFMA2 (R136): Paired half-precision fused multiply-add. -/
  | hfma2 (f : G64)
  /-- CVT (R138): Converts between integer and floating-point types. -/
  | cvt (f : G64)
  /-- CVTQ (R140): Quantises a scaled value to a narrow format. -/
  | cvtq (f : G64)
  /-- FRCP (R141): Reciprocal on the special-function unit. -/
  | frcp (f : G64)
  /-- FRSQ (R141): Reciprocal square root. -/
  | frsq (f : G64)
  /-- FSQRT (R141): Correctly rounded square root. -/
  | fsqrt (f : G64)
  /-- FLOG2 (R141): Base-2 logarithm. -/
  | flog2 (f : G64)
  /-- FEXP2 (R141): Base-2 exponential. -/
  | fexp2 (f : G64)
  /-- FSIN (R141): Sine in radians or turns. -/
  | fsin (f : G64)
  /-- FCOS (R141): Cosine in radians or turns. -/
  | fcos (f : G64)
  /-- FTANH (R141): Hyperbolic tangent. -/
  | ftanh (f : G64)
  /-- FDIV (R141): Correctly rounded FP32 division. -/
  | fdiv (f : G64)
  /-- IDIV (R142): Integer quotient or remainder. -/
  | idiv (f : G64)
  /-- VRAND (R143): Writes Mix32 of a key and counter per lane. -/
  | vrand (f : G64)
  /-- VSOBOL (R144): Writes a scrambled Sobol point per lane. -/
  | vsobol (f : G64)
  /-- VMOVI_K32 (R145): Writes a sign-extended 11-bit immediate to each active lane. -/
  | vmoviK32 (f : K32)
  /-- VMOVI_L64 (R145): Writes a 32-bit immediate to each active lane. -/
  | vmoviL64 (f : L64)
  /-- VMOV (R145): Copies a vector, scalar or constant into each active lane. -/
  | vmov (f : G64)
  /-- VMOV_C16 (R72): Compact vector move. -/
  | vmovC16 (f : C16)
  /-- VMOVX (R146): Moves a vector lane value through an index register. -/
  | vmovx (f : G64)
  /-- XSET (R146): Writes per-lane index values. -/
  | xset (f : G64)
  /-- XBND (R146): Sets an index register's bound descriptor. -/
  | xbnd (f : L64)
  /-- VTRN (R151): Transposes register-by-lane blocks. -/
  | vtrn (f : G64)
  /-- VPACK (R149): Packs two 16-bit values per lane. -/
  | vpack (f : G64)
  /-- VUNPK (R149): Unpacks a half or byte per lane. -/
  | vunpk (f : G64)
  /-- VBYTE (R149): Selects bytes from two sources per lane. -/
  | vbyte (f : G64)
  /-- VEXT (R150): Extracts one lane into a scalar. -/
  | vext (f : G64)
  /-- VINS (R150): Inserts a scalar into one lane. -/
  | vins (f : G64)
  /-- VADDC (R147): Add with carry chained through a mask. -/
  | vaddc (f : G64)
  /-- VSUBB (R147): Subtract with borrow chained through a mask. -/
  | vsubb (f : G64)
  /-- VMUL64 (R148): 64-bit per-lane product. -/
  | vmul64 (f : G64)
  /-- VSHL64 (R148): 64-bit per-lane shift left. -/
  | vshl64 (f : G64)
  /-- VSHR64 (R148): 64-bit per-lane shift right. -/
  | vshr64 (f : G64)
  /-- VCMP64 (R148): 64-bit per-lane compare into a mask. -/
  | vcmp64 (f : G64)
  /-- VABSD (R133): Per-element absolute difference. -/
  | vabsd (f : G64)
  /-- SHFL (R154): Shuffles values between lanes within segments. -/
  | shfl (f : G64)
  /-- VOTE (R156): Votes over active lanes into scc and a mask. -/
  | vote (f : G64)
  /-- BALLOT (R156): Forms a 64-bit ballot of active non-zero lanes. -/
  | ballot (f : G64)
  /-- MATCH (R157): Finds lanes holding equal values. -/
  | matchLanes (f : G64)
  /-- RED (R158): Reduces integers over active lanes. -/
  | red (f : G64)
  /-- SCAN (R158): Inclusive or exclusive prefix scan over active lanes. -/
  | scan (f : G64)
  /-- FRED (R159): Reduces FP32 values in a fixed tree. -/
  | fred (f : G64)
  /-- BCAST (R155): Broadcasts one lane to active lanes. -/
  | bcast (f : G64)
  /-- QSWZ (R155): Swizzles within quads of lanes. -/
  | qswz (f : G64)
  /-- VCOMPACT (R160): Compacts or expands values by rank of active lanes. -/
  | vcompact (f : G64)
  /-- LACLR (R163): Clears the long accumulator. -/
  | laclr (f : K32)
  /-- LAADD (R163): Adds one exact term per active lane to lacc. -/
  | laadd (f : G64)
  /-- LAFMA (R163): Adds an exact FP32 product per active lane to lacc. -/
  | lafma (f : G64)
  /-- LARD (R164): Rounds lacc once to FP32 into a scalar. -/
  | lard (f : G64)
  /-- LASAVE (R165): Saves lacc into two vector registers. -/
  | lasave (f : G64)
  /-- LARST (R165): Restores lacc from two vector registers. -/
  | larst (f : G64)
  /-- FNDEF (R194): Defines a zero function of given length on an interval. -/
  | fndef (f : G64)
  /-- FNFREE (R195): Frees one or all function registers. -/
  | fnfree (f : K32)
  /-- FNFIT (R196): Fits a Chebyshev series from values at extreme points. -/
  | fnfit (f : G64)
  /-- FNLD (R197): Loads a function register from its save format. -/
  | fnld (f : G64)
  /-- FNST (R197): Stores a function register to vector registers. -/
  | fnst (f : G64)
  /-- FNADD (R198): Adds or subtracts two functions. -/
  | fnadd (f : G64)
  /-- FNMUL (R198): Multiplies two functions. -/
  | fnmul (f : G64)
  /-- FNSCL (R198): Scales and offsets a function. -/
  | fnscl (f : G64)
  /-- FNCOMP (R199): Composes two functions. -/
  | fncomp (f : G64)
  /-- FNINT (R200): Integrates a function. -/
  | fnint (f : G64)
  /-- FNDER (R200): Differentiates a function. -/
  | fnder (f : G64)
  /-- FNEVAL (R202): Evaluates a function per lane. -/
  | fneval (f : G64)
  /-- FNROOT (R203): Finds the k-th root per lane. -/
  | fnroot (f : G64)
  /-- FNEXT (R204): Bounds or finds the extremum of a function. -/
  | fnext (f : G64)
  /-- FNRESTR (R201): Re-expands a function on a sub-interval. -/
  | fnrestr (f : G64)
  /-- FNCOEF (R205): Gets or sets a coefficient, or reads the length. -/
  | fncoef (f : G64)
  /-- LD (R258): Loads bytes per active lane through a translation register. -/
  | ld (f : M64)
  /-- ST (R258): Stores bytes per active lane through a translation register. -/
  | st (f : M64)
  /-- LDS (R259): Loads from the group's scratchpad. -/
  | lds (f : M64)
  /-- STS (R259): Stores to the group's scratchpad. -/
  | sts (f : M64)
  /-- LDK (R260): Loads wave-uniform constants into scalars. -/
  | ldk (f : M64)
  /-- ATOM (R262): Returning atomic read-modify-write. -/
  | atom (f : M64)
  /-- ATOMN (R262): No-return atomic read-modify-write. -/
  | atomn (f : M64)
  /-- ATOMS (R262): Returning atomic on scratchpad. -/
  | atoms (f : M64)
  /-- CAS (R263): Compare and swap. -/
  | cas (f : M64)
  /-- FENCE (R265): Holds the wave until its release and acquire parts complete. -/
  | fence (f : M64)
  /-- TRANS (R266): Fills a translation register by a page walk. -/
  | trans (f : M64)
  /-- TRINV (R267): Invalidates one or all translation registers. -/
  | trinv (f : M64)
  /-- PREF (R268): Prefetches lines into L1 or the last-level cache. -/
  | pref (f : M64)
  /-- CACHE (R269): Invalidates instruction, constant or L1 caches. -/
  | cache (f : M64)
  /-- CPA (R270): Adds per-lane copies into the open batch. -/
  | cpa (f : M64)
  /-- CPCOMMIT (R271): Commits the open batch to the copy channel, optionally reporting to a barrier object. -/
  | cpcommit (f : K32)
  /-- CPB (R280): Starts a bulk tensor box copy reporting to a barrier object. -/
  | cpb (f : M64)
  /-- CPR (R283): Starts, ends or queries a page move. -/
  | cpr (f : M64)
  /-- CPSM (R282): Loads sparsity metadata into the side memory. -/
  | cpsm (f : M64)
  /-- CWPRD (R273): Reads a copy channel's write pointer. -/
  | cwprd (f : K32)
  /-- BINIT (R277): Creates or ends a barrier object. -/
  | binit (f : M64)
  /-- BARR (R278): Makes arrivals at a barrier object. -/
  | barr (f : M64)
  /-- BWAIT (R279): Holds the wave until a barrier object passes a phase. -/
  | bwait (f : M64)
  /-- BEXP (R278): Declares expected bytes on a barrier object. -/
  | bexp (f : M64)
  /-- SEAL (R284): Seals write-once units. -/
  | seal (f : M64)
  /-- UNSEAL (R284): Unseals write-once units once copies are gone. -/
  | unseal (f : M64)
  /-- WOREL (R284): Drops the core's counted copies of write-once units. -/
  | worel (f : M64)
  /-- SMAP (R285): Binds a global range to scratchpad. -/
  | smap (f : M64)
  /-- SUNMAP (R285): Writes back and removes a scratchpad binding. -/
  | sunmap (f : M64)
  /-- ENQ (R38): Enqueues an entry into the wave's die shard. -/
  | enq (f : M64)
  /-- DEQ (R39): Dequeues an entry, stealing or waiting when needed. -/
  | deq (f : M64)
  /-- FETCHW (R34): Draws the next index from the tile dispenser. -/
  | fetchw (f : K32)
  /-- TCFG (R293): Configures a tile register's shape and tensor. -/
  | tcfg (f : G64)
  /-- TLD (R299): Loads a tile from a tensor. -/
  | tld (f : G64)
  /-- TST (R299): Stores a tile to a tensor. -/
  | tst (f : G64)
  /-- TZERO (R300): Zeroes a tile register. -/
  | tzero (f : G64)
  /-- TMOVV (R301): Moves a row from vector registers into a tile. -/
  | tmovv (f : G64)
  /-- VMOVT (R301): Moves a tile row into vector registers. -/
  | vmovt (f : G64)
  /-- MMA (R304): Matrix multiply-accumulate into accumulator memory. -/
  | mma (f : G64)
  /-- MMAS (R307): Sparse 2:4 matrix multiply-accumulate. -/
  | mmas (f : G64)
  /-- MMAT (R306): Ternary sign-select multiply-accumulate. -/
  | mmat (f : G64)
  /-- MMAX (R309): Paired gang multiply-accumulate across a cluster. -/
  | mmax (f : G64)
  /-- ACCLD (R311): Loads a block into accumulator memory. -/
  | accld (f : G64)
  /-- ACCST (R311): Stores an accumulator block to a tensor. -/
  | accst (f : G64)
  /-- ACCQ (R312): Quantises an accumulator block to a tensor with trailer. -/
  | accq (f : G64)
  /-- TTRL (R303): Reads a tensor's trailer into a vector register. -/
  | ttrl (f : G64)
  /-- TSCL (R313): Scales an accumulator block in place. -/
  | tscl (f : G64)
  /-- TXP (R302): Transposes one tile into another. -/
  | txp (f : G64)
  /-- DICE (R336): Runs Garnet on a bucket's work until one grid is placed. -/
  | dice (f : G64)
  /-- GRIDACQ (R337): Moves a diced grid to shading. -/
  | gridacq (f : G64)
  /-- GRIDREL (R338): Releases a shaded grid, re-bounds and registers it. -/
  | gridrel (f : G64)
  /-- RAST (R330): Has Obsidian rasterise a grid into a bucket. -/
  | rast (f : G64)
  /-- RAYQ (R341): Starts a ray query per active lane. -/
  | rayq (f : G64)
  /-- RAYRD (R341): Reads a query slot's results after completion. -/
  | rayrd (f : G64)
  /-- BKT (R335): Opens, draws a grid from, or closes a bucket. -/
  | bkt (f : G64)
  /-- SPILL (R340): Spills a shaded grid to the spill area. -/
  | spill (f : G64)
  /-- REP (R129): Repeats the covered instruction with stepped register fields. -/
  | rep (f : Rep)
  /-- PBLK (R130): Predicates up to eight covered instructions by a captured condition. -/
  | pblk (f : Pblk)
  /-- TRAP (R392): Retires and raises SOFTWARE. -/
  | trap (f : K32)
  /-- RTE (R393): Returns from a trap handler using the frame. -/
  | rte (f : K32)
  /-- PRD (R394): Reads a privileged register. -/
  | prd (f : K32)
  /-- PWR (R394): Writes a privileged register. -/
  | pwr (f : K32)
  /-- BKPT (R392): Raises BREAKPOINT without retiring. -/
  | bkpt (f : K32)
  /-- LOGEV (R395): Writes a black-box record of kind 0x08. -/
  | logev (f : K32)
  /-- Event PIPE_ISSUE (R100): Each clock a pipe evaluates readiness, requests tokens and issues one chosen wave. -/
  | pipeIssue (core pipe : Nat)
  /-- Event WAVE_PROMOTE (R100): A wave that has waited 64 eligible clocks is promoted. -/
  | wavePromote (core slot : Nat)
  /-- Event DIST_ELAPSED (R87): A wave's DIST or redirect delay runs out. -/
  | distElapsed (core slot : Nat)
  /-- Event TOKEN_GRANT (R96): Each clock grants tokens to queue heads in die rotation. -/
  | tokenGrant
  /-- Event COUNTER_COMPLETION (R93): A variable-latency instruction completes, lands its result and decrements its counters. -/
  | counterCompletion (core slot id : Nat)
  /-- Event FUNCTION_DECISION_POINT (R190): The function engine reaches an operation's decision point and writes its results. -/
  | functionDecisionPoint (core : Nat)
  /-- Event MATRIX_COMPLETION (R304): The matrix engine finishes an operation and returns its token. -/
  | matrixCompletion (core : Nat)
  /-- Event BART_RELEASE (R123): Held waves become Ready 40 or 180 cycles after the last arrival. -/
  | bartRelease (launch tag : Nat)
  /-- Event YIELD_EXPIRY (R128): A yielded wave's Y cycles run out. -/
  | yieldExpiry (core slot : Nat)
  /-- Event COPY_BATCH_COMPLETE (R271): A copy batch's bytes have landed; k2 falls and any object gets its bytes. -/
  | copyBatchComplete (core slot : Nat)
  /-- Event CPB_BYTE_ADDITION (R281): A bulk copy completes and adds its box bytes to the object. -/
  | cpbByteAddition (core id : Nat)
  /-- Event RAST_COMPLETE (R330): A RAST's writes are performed; INFL, REFS and DONE are updated and the grid may be freed. -/
  | rastComplete (core slot id : Nat)
  /-- Event RAYQ_COMPLETE (R341): Galena finishes a query and fills the query slot. -/
  | rayqComplete (core slot id : Nat)
  /-- Event NOP_PACKET (R14): A NOP packet completes at once. -/
  | nopPacket (stream ticket : Nat)
  /-- Event LAUNCH (R30): Captures and validates the records, takes PSEQ and sends placement requests. -/
  | launch (stream ticket : Nat)
  /-- Event WAITV (R14): Completes when a watched uint64 is at least the value. -/
  | waitv (stream ticket : Nat)
  /-- Event SIGNAL (R14): Stores or adds a value with release at system scope. -/
  | signal (stream ticket : Nat)
  /-- Event HARVEST (R235): Writes and clears dirty records for a range as a bitmap. -/
  | harvest (stream ticket : Nat)
  /-- Event SHOOTDOWN (R226): Invalidates cached translations for a range and marks registers stale. -/
  | shootdown (stream ticket : Nat)
  /-- Event PACKET_CLAIM (R25): An agent claims the next ticket of a stream by compare-and-swap. -/
  | packetClaim (core stream : Nat)
  /-- Event PARKED_PACKET_REEXAMINE (R27): A write to a watched line makes the agent re-examine a parked packet. -/
  | parkedPacketReexamine (stream ticket : Nat)
  /-- Event PARK_RECHECK_TIMER (R27): A parked packet is re-examined at least every 100 µs. -/
  | parkRecheckTimer (stream ticket : Nat)
  /-- Event PLACEMENT_REQUEST (R30): A core's agent receives a placement request and queues it by PSEQ. -/
  | placementRequest (core launch : Nat)
  /-- Event PLACEMENT_GRANT (R52): A core grants the earliest request once its group fits. -/
  | placementGrant (core : Nat)
  /-- Event LAUNCH_START (R31): After all grants the claiming agent signals start and waves begin. -/
  | launchStart (launch : Nat)
  /-- Event LAUNCH_COMPLETION (R407): All groups freed and writes performed; DONE increments and the packet completes. -/
  | launchCompletion (launch : Nat)
  /-- Event DRAIN_CLOCK_MARK (R55): After 2 ms a gang's agent marks a cluster draining. -/
  | drainClockMark (launch : Nat)
  /-- Event DRAIN_CLOCK_PREEMPT (R55): After 8 ms more the agent pre-empts groups on the draining cluster. -/
  | drainClockPreempt (launch : Nat)
  /-- Event PREEMPT_RETRY (R56): Retries pre-emption every 100 µs when every candidate was skipped. -/
  | preemptRetry (launch : Nat)
  /-- Event GROUP_PREEMPT (R398): Drains a group and saves its context to the suspension area. -/
  | groupPreempt (core gslot : Nat)
  /-- Event GROUP_RESUME (R399): Restores a suspended group on its core once it fits. -/
  | groupResume (core : Nat)
  /-- Event WAVE_SLOT_RETURN (R405): An ended wave returns its slot and granules once its work has landed. -/
  | waveSlotReturn (core slot : Nat)
  /-- Event GROUP_FREE (R406): Frees a group's slot and stores once its waves and copies are done. -/
  | groupFree (core gslot : Nat)
  /-- Event BUCKET_FILL (R41): The host raises TAIL after filling a bucket shard. -/
  | bucketFill (queue : DWord) (shard : Nat) (tail : DWord)
  /-- Event QUEUE_CLOSE_WAKE (R41): The queue unit sees CLOSE set and wakes waiting DEQs. -/
  | queueCloseWake (queue : DWord)
  /-- Event QUEUE_HEADER_REVALIDATE (R40): A write to a queue header line with waiters revalidates it. -/
  | queueHeaderRevalidate (queue : DWord)
  /-- Event QUEUE_WAITER_SERVE (R40): Freed space or a new entry is given to the oldest waiter. -/
  | queueWaiterServe (queue : DWord) (shard : Nat)
  /-- Event STEAL_OPTIMISTIC (R61): An idle die tries to steal a tail entry from its mirrored counts. -/
  | stealOptimistic (queue : DWord) (die : Nat)
  /-- Event STEAL_LOCKED (R61): A steal made at the steal arbiter in one step. -/
  | stealLocked (queue : DWord) (die : Nat)
  /-- Event EVCONS_WRITE (R47): Host frees event ring space; overflow entries are written first. -/
  | evconsWrite (value : Word)
  /-- Event LEASE_EXPIRY (R250): A write waiting at its home is performed when the recorded lease expiry passes. -/
  | leaseExpiry (line : Nat)
  /-- Event REQS (R373): A die's read request reaches the home directory. -/
  | reqs (die line : Nat)
  /-- Event REQM (R373): A die's write request reaches the home directory. -/
  | reqm (die line : Nat)
  /-- Event DATA (R373): Line data arrives at the requesting die, granting its state. -/
  | data (die line : Nat)
  /-- Event FORWARD (R374): The owner receives a forward and sends data to the requester. -/
  | forward (die line : Nat)
  /-- Event INV (R374): A sharer receives an invalidation. -/
  | inv (die line : Nat)
  /-- Event INV_ACK (R374): A die acknowledges once its recorded lease expiry has passed. -/
  | invAck (die line : Nat)
  /-- Event RECALL (R374): The owner receives a recall and returns its data. -/
  | recall (die line : Nat)
  /-- Event CLEAN_EVICT (R374): A die evicts a clean copy and tells the home. -/
  | cleanEvict (die line : Nat)
  /-- Event WBDATA (R373): An owner's write-back reaches the home. -/
  | wbdata (die line : Nat)
  /-- Event SNOOP_FILTER_EVICTION (R375): A home evicts a snoop-filter entry, recalling and invalidating copies. -/
  | snoopFilterEviction (line : Nat)
  /-- Event SNPINV (R376): The host snoops and invalidates a bridge-cached half. -/
  | snpinv (half : Nat)
  /-- Event SNPDATA (R376): The host snoops a bridge-cached half for data. -/
  | snpdata (half : Nat)
  /-- Event BIRSP (R378): A back-invalidation response returns from the host. -/
  | birsp (line half : Nat)
  /-- Event HOST_ATOMIC_HELPER_CAS (R377): The helper's PCIe CAS completes and is retried until it succeeds. -/
  | hostAtomicHelperCas (core slot id : Nat) (success : Bool)
  /-- Event HOST_ACCESS (R426): A host BAR4 or CXL.mem access is performed at the line's home. -/
  | hostAccess (addr : Nat) (write : Bool) (bytes : List Byte)
  /-- Event TRANSLATION_WALK (R212): A page walk completes, supplying a translation or a fault. -/
  | translationWalk (core slot id : Nat)
  /-- Event SIDE_LOG_REPLAY (R402): Replays logged writes once their pages are mapped. -/
  | sideLogReplay (core : Nat)
  /-- Event GEN_REFUSAL_RETRY (R227): A refused access with an unchanged GEN retries every 1 µs. -/
  | genRefusalRetry (core slot id : Nat)
  /-- Event MOVE_COPY_STEP (R238): Copies one line of a moving page and advances PP. -/
  | moveCopyStep (entry : Nat)
  /-- Event FRESP_MAPPED (R432): The driver answers a fault as mapped; the device walks again. -/
  | frespMapped (tag : Word)
  /-- Event FRESP_DECLINED (R432): The driver declines a fault; held loads end in PAGE_LOAD and logged writes are discarded. -/
  | frespDeclined (tag : Word)
  /-- Event FLTCONS_WRITE (R432): Host frees fault ring space so waiting reports are written. -/
  | fltconsWrite (value : Word)
  /-- Event FPCMD_READ (R432): Reads a frame record into FPDATA in one step. -/
  | fpcmdRead
  /-- Event FPCMD_WRITE (R432): Writes a frame record from FPDATA in one step. -/
  | fpcmdWrite
  /-- Event MVDOOR_START (R432): Hands a move-start request to core 0's agent. -/
  | mvdoorStart
  /-- Event MVDOOR_END (R432): Hands a move-end request to core 0's agent. -/
  | mvdoorEnd
  /-- Event CTRL_GO (R429): Locks RWL registers and starts the agents' claiming. -/
  | ctrlGo
  /-- Event CTRL_COMMIT (R430): Blows anti-rollback fuses up to the running VERSION. -/
  | ctrlCommit
  /-- Event CTRL_WARMRST (R429): Starts a warm reset from authentication. -/
  | ctrlWarmrst
  /-- Event PLIMIT_WRITE (R434): Sets the power limit and recomputes POOL. -/
  | plimitWrite (value : Word)
  /-- Event POWER_THROTTLE (R434): Each millisecond over PLIMIT lowers POOL by an eighth. -/
  | powerThrottle (watts : Nat)
  /-- Event POWER_RECOVER (R434): After 10 ms below 95 % of PLIMIT, POOL rises by an eighth. -/
  | powerRecover (watts : Nat)
  /-- Event HCFG_WRITE (R411): Enabling a head resets SCANSEQ and RELSEQ. -/
  | hcfgWrite (head : Nat) (value : Word)
  /-- Event TIMING_WRITE (R433): Sets a head's timing record, applied at the next vblank with a link retrain. -/
  | timingWrite (head : Nat) (value : DWord)
  /-- Event REGISTER_WRITE (R427): A write to a management register with no behaviour of its own. -/
  | registerWrite (offset : Nat) (value : Word)
  /-- Event HEAD_SCAN_DECISION (R412): At vblank minus 1.5 ms a head chooses a new frame, re-projection or repeat. -/
  | headScanDecision (head : Nat)
  /-- Event VBLANK (R412): At vblank a head starts its scan and writes RELSEQ. -/
  | vblank (head : Nat)
  /-- Event PERST_DEASSERT (R429): Trains the link and runs start-up through authentication to READY or recovery. -/
  | perstDeassert
  /-- Event RECOVERY_BOOT (R431): Authenticates the staged image and boots it. -/
  | recoveryBoot
  /-- Event RECOVERY_PROGRAM (R431): Writes a staged image or part into a flash slot. -/
  | recoveryProgram
  /-- Event RECOVERY_BOOTSLOT (R431): Authenticates a flash slot and boots it. -/
  | recoveryBootslot
  /-- Event SCRUB (R252): The scrubber visits on-chip storage on its period, correcting or poisoning units. -/
  | scrub (die place unit : Nat) (uncorrectable : Bool)
  /-- Event DEFERRED_REPORT (R385): An error response arrives and is queued as a deferred report. -/
  | deferredReport (core slot : Nat)
  /-- Event TRAP_DELIVERY (R384): Once outstanding work has landed, a decided trap enters the handler or ends the wave. -/
  | trapDelivery (core slot : Nat)
  /-- Event REPLICA_UPDATE (R220): An update sent by the sequencer die HD of a replicated page arrives at another die of DMASK, which applies it to its copy and acknowledges. -/
  | replicaUpdate (die line : Nat)
  /-- Event REPLICA_ACKNOWLEDGE (R220): A die's acknowledgement of a replicated-page update reaches HD; when the last one arrives, the write becomes visible and the waiting loads of that line proceed. -/
  | replicaAcknowledge (die line : Nat)
  /-- Event CXL_CACHE_RESPONSE (R376): The host's answer to a RdShared or RdOwn for one 64-byte half arrives at die 0's bridge, setting that half's CXL.cache state and serving the waiting access. -/
  | cxlCacheResponse (half : Nat)
  deriving DecidableEq, Repr

end Sys2Proof
end

