-- ==== Sys2Proof/Machine/Rows.lean ====
section
/-! DEFINITION. What the opcode map and the rules of the formats say of each instruction (R21, R67, R82): opcode,
form, length, the feature that gates it, whether it is privileged. -/

namespace Sys2Proof.Machine

/-- The forms of R67. `none_` is that of the events, which have no words. -/
inductive Form where
  /-- 16 bits (R71). -/
  | c16
  /-- 32 bits (R73). -/
  | k32
  /-- 32 bits, a branch (R74). -/
  | b32
  /-- 32 bits, a prefix word (R79, R80). -/
  | p32
  /-- 64 bits (R75). -/
  | l64
  /-- 64 bits (R76, R78). -/
  | g64
  /-- 64 bits (R77). -/
  | m64
  /-- No words. -/
  | none_
  deriving DecidableEq, Repr

/-- Opcode (for C16 the compact index) and form of an instruction (R72, R82). -/
def opForm (i : Instr) : Nat × Form :=
  match i with
  | .nopK32 _ => (0x00, .k32)
  | .nopL64 _ => (0x00, .l64)
  | .smov _ => (0x01, .g64)
  | .smoviK32 _ => (0x02, .k32)
  | .smoviL64 _ => (0x02, .l64)
  | .saddK32 _ => (0x03, .k32)
  | .saddG64 _ => (0x03, .g64)
  | .ssubK32 _ => (0x04, .k32)
  | .ssubG64 _ => (0x04, .g64)
  | .smulK32 _ => (0x05, .k32)
  | .smulG64 _ => (0x05, .g64)
  | .smulh _ => (0x06, .g64)
  | .sandK32 _ => (0x07, .k32)
  | .sandG64 _ => (0x07, .g64)
  | .sorK32 _ => (0x08, .k32)
  | .sorG64 _ => (0x08, .g64)
  | .sxorK32 _ => (0x09, .k32)
  | .sxorG64 _ => (0x09, .g64)
  | .sshlK32 _ => (0x0A, .k32)
  | .sshlG64 _ => (0x0A, .g64)
  | .sshrK32 _ => (0x0B, .k32)
  | .sshrG64 _ => (0x0B, .g64)
  | .scmpK32 _ => (0x0C, .k32)
  | .scmpL64 _ => (0x0C, .l64)
  | .ssel _ => (0x0D, .g64)
  | .sminmax _ => (0x0E, .g64)
  | .sbfx _ => (0x0F, .g64)
  | .braB32 _ => (0x10, .b32)
  | .braL64 _ => (0x10, .l64)
  | .brcB32 _ => (0x11, .b32)
  | .brcL64 _ => (0x11, .l64)
  | .brmB32 _ => (0x12, .b32)
  | .brmL64 _ => (0x12, .l64)
  | .callB32 _ => (0x13, .b32)
  | .callL64 _ => (0x13, .l64)
  | .ret _ => (0x14, .k32)
  | .jmpi _ => (0x15, .k32)
  | .mlog _ => (0x16, .g64)
  | .mmov _ => (0x17, .g64)
  | .mcnt _ => (0x18, .g64)
  | .srd _ => (0x19, .k32)
  | .swr _ => (0x1A, .k32)
  | .wait _ => (0x1B, .l64)
  | .bart _ => (0x1C, .k32)
  | .loop _ => (0x1D, .l64)
  | .exit _ => (0x1E, .k32)
  | .yield _ => (0x1F, .k32)
  | .vaddK32 _ => (0x20, .k32)
  | .vaddG64 _ => (0x20, .g64)
  | .vaddC16 _ => (0x01, .c16)
  | .vsubK32 _ => (0x21, .k32)
  | .vsubG64 _ => (0x21, .g64)
  | .vsubC16 _ => (0x02, .c16)
  | .vmul _ => (0x22, .g64)
  | .vmulC16 _ => (0x03, .c16)
  | .vmulh _ => (0x23, .g64)
  | .vmad _ => (0x24, .g64)
  | .vandK32 _ => (0x25, .k32)
  | .vandG64 _ => (0x25, .g64)
  | .vandC16 _ => (0x04, .c16)
  | .vorK32 _ => (0x26, .k32)
  | .vorG64 _ => (0x26, .g64)
  | .vorC16 _ => (0x05, .c16)
  | .vxorK32 _ => (0x27, .k32)
  | .vxorG64 _ => (0x27, .g64)
  | .vxorC16 _ => (0x06, .c16)
  | .vshl _ => (0x28, .g64)
  | .vshlC16 _ => (0x07, .c16)
  | .vshr _ => (0x29, .g64)
  | .vshrC16 _ => (0x08, .c16)
  | .vmin _ => (0x2A, .g64)
  | .vminC16 _ => (0x09, .c16)
  | .vmax _ => (0x2B, .g64)
  | .vmaxC16 _ => (0x0A, .c16)
  | .vbfx _ => (0x2C, .g64)
  | .vpopc _ => (0x2D, .g64)
  | .vsel _ => (0x2E, .g64)
  | .vcmpiK32 _ => (0x2F, .k32)
  | .vcmpiG64 _ => (0x2F, .g64)
  | .fadd _ => (0x30, .g64)
  | .faddC16 _ => (0x0B, .c16)
  | .fsub _ => (0x31, .g64)
  | .fsubC16 _ => (0x0C, .c16)
  | .fmul _ => (0x32, .g64)
  | .fmulC16 _ => (0x0D, .c16)
  | .ffma _ => (0x33, .g64)
  | .fmin _ => (0x34, .g64)
  | .fminC16 _ => (0x0E, .c16)
  | .fmax _ => (0x35, .g64)
  | .fmaxC16 _ => (0x0F, .c16)
  | .fcmp _ => (0x36, .g64)
  | .fclass _ => (0x37, .g64)
  | .frnd _ => (0x38, .g64)
  | .fmed3 _ => (0x39, .g64)
  | .flerp _ => (0x3A, .g64)
  | .fdot2 _ => (0x3B, .g64)
  | .fpk _ => (0x3C, .g64)
  | .hadd2 _ => (0x3D, .g64)
  | .hmul2 _ => (0x3E, .g64)
  | .hfma2 _ => (0x3F, .g64)
  | .cvt _ => (0x40, .g64)
  | .cvtq _ => (0x41, .g64)
  | .frcp _ => (0x42, .g64)
  | .frsq _ => (0x43, .g64)
  | .fsqrt _ => (0x44, .g64)
  | .flog2 _ => (0x45, .g64)
  | .fexp2 _ => (0x46, .g64)
  | .fsin _ => (0x47, .g64)
  | .fcos _ => (0x48, .g64)
  | .ftanh _ => (0x49, .g64)
  | .fdiv _ => (0x4A, .g64)
  | .idiv _ => (0x4B, .g64)
  | .vrand _ => (0x4C, .g64)
  | .vsobol _ => (0x4D, .g64)
  | .vmoviK32 _ => (0x4E, .k32)
  | .vmoviL64 _ => (0x4E, .l64)
  | .vmov _ => (0x4F, .g64)
  | .vmovC16 _ => (0x00, .c16)
  | .vmovx _ => (0x50, .g64)
  | .xset _ => (0x51, .g64)
  | .xbnd _ => (0x52, .l64)
  | .vtrn _ => (0x53, .g64)
  | .vpack _ => (0x54, .g64)
  | .vunpk _ => (0x55, .g64)
  | .vbyte _ => (0x56, .g64)
  | .vext _ => (0x57, .g64)
  | .vins _ => (0x58, .g64)
  | .vaddc _ => (0x59, .g64)
  | .vsubb _ => (0x5A, .g64)
  | .vmul64 _ => (0x5B, .g64)
  | .vshl64 _ => (0x5C, .g64)
  | .vshr64 _ => (0x5D, .g64)
  | .vcmp64 _ => (0x5E, .g64)
  | .vabsd _ => (0x5F, .g64)
  | .shfl _ => (0x60, .g64)
  | .vote _ => (0x61, .g64)
  | .ballot _ => (0x62, .g64)
  | .matchLanes _ => (0x63, .g64)
  | .red _ => (0x64, .g64)
  | .scan _ => (0x65, .g64)
  | .fred _ => (0x66, .g64)
  | .bcast _ => (0x67, .g64)
  | .qswz _ => (0x68, .g64)
  | .vcompact _ => (0x69, .g64)
  | .laclr _ => (0x6A, .k32)
  | .laadd _ => (0x6B, .g64)
  | .lafma _ => (0x6C, .g64)
  | .lard _ => (0x6D, .g64)
  | .lasave _ => (0x6E, .g64)
  | .larst _ => (0x6F, .g64)
  | .fndef _ => (0x70, .g64)
  | .fnfree _ => (0x71, .k32)
  | .fnfit _ => (0x72, .g64)
  | .fnld _ => (0x73, .g64)
  | .fnst _ => (0x74, .g64)
  | .fnadd _ => (0x75, .g64)
  | .fnmul _ => (0x76, .g64)
  | .fnscl _ => (0x77, .g64)
  | .fncomp _ => (0x78, .g64)
  | .fnint _ => (0x79, .g64)
  | .fnder _ => (0x7A, .g64)
  | .fneval _ => (0x7B, .g64)
  | .fnroot _ => (0x7C, .g64)
  | .fnext _ => (0x7D, .g64)
  | .fnrestr _ => (0x7E, .g64)
  | .fncoef _ => (0x7F, .g64)
  | .ld _ => (0x80, .m64)
  | .st _ => (0x81, .m64)
  | .lds _ => (0x82, .m64)
  | .sts _ => (0x83, .m64)
  | .ldk _ => (0x84, .m64)
  | .atom _ => (0x85, .m64)
  | .atomn _ => (0x86, .m64)
  | .atoms _ => (0x87, .m64)
  | .cas _ => (0x88, .m64)
  | .fence _ => (0x89, .m64)
  | .trans _ => (0x8A, .m64)
  | .trinv _ => (0x8B, .m64)
  | .pref _ => (0x8C, .m64)
  | .cache _ => (0x8D, .m64)
  | .cpa _ => (0x8E, .m64)
  | .cpcommit _ => (0x8F, .k32)
  | .cpb _ => (0x90, .m64)
  | .cpr _ => (0x91, .m64)
  | .cpsm _ => (0x92, .m64)
  | .cwprd _ => (0x93, .k32)
  | .binit _ => (0x94, .m64)
  | .barr _ => (0x95, .m64)
  | .bwait _ => (0x96, .m64)
  | .bexp _ => (0x97, .m64)
  | .seal _ => (0x98, .m64)
  | .unseal _ => (0x99, .m64)
  | .worel _ => (0x9A, .m64)
  | .smap _ => (0x9B, .m64)
  | .sunmap _ => (0x9C, .m64)
  | .enq _ => (0x9D, .m64)
  | .deq _ => (0x9E, .m64)
  | .fetchw _ => (0x9F, .k32)
  | .tcfg _ => (0xA0, .g64)
  | .tld _ => (0xA1, .g64)
  | .tst _ => (0xA2, .g64)
  | .tzero _ => (0xA3, .g64)
  | .tmovv _ => (0xA4, .g64)
  | .vmovt _ => (0xA5, .g64)
  | .mma _ => (0xA6, .g64)
  | .mmas _ => (0xA7, .g64)
  | .mmat _ => (0xA8, .g64)
  | .mmax _ => (0xA9, .g64)
  | .accld _ => (0xAA, .g64)
  | .accst _ => (0xAB, .g64)
  | .accq _ => (0xAC, .g64)
  | .ttrl _ => (0xAD, .g64)
  | .tscl _ => (0xAE, .g64)
  | .txp _ => (0xAF, .g64)
  | .dice _ => (0xB0, .g64)
  | .gridacq _ => (0xB1, .g64)
  | .gridrel _ => (0xB2, .g64)
  | .rast _ => (0xB3, .g64)
  | .rayq _ => (0xB4, .g64)
  | .rayrd _ => (0xB5, .g64)
  | .bkt _ => (0xB6, .g64)
  | .spill _ => (0xB7, .g64)
  | .rep _ => (0xB8, .p32)
  | .pblk _ => (0xB9, .p32)
  | .trap _ => (0xBA, .k32)
  | .rte _ => (0xBB, .k32)
  | .prd _ => (0xBC, .k32)
  | .pwr _ => (0xBD, .k32)
  | .bkpt _ => (0xBE, .k32)
  | .logev _ => (0xBF, .k32)
  | .pipeIssue _ _ => (0, .none_)
  | .wavePromote _ _ => (0, .none_)
  | .distElapsed _ _ => (0, .none_)
  | .tokenGrant => (0, .none_)
  | .counterCompletion _ _ _ => (0, .none_)
  | .functionDecisionPoint _ => (0, .none_)
  | .matrixCompletion _ => (0, .none_)
  | .bartRelease _ _ => (0, .none_)
  | .yieldExpiry _ _ => (0, .none_)
  | .copyBatchComplete _ _ => (0, .none_)
  | .cpbByteAddition _ _ => (0, .none_)
  | .rastComplete _ _ _ => (0, .none_)
  | .rayqComplete _ _ _ => (0, .none_)
  | .nopPacket _ _ => (0, .none_)
  | .launch _ _ => (0, .none_)
  | .waitv _ _ => (0, .none_)
  | .signal _ _ => (0, .none_)
  | .harvest _ _ => (0, .none_)
  | .shootdown _ _ => (0, .none_)
  | .packetClaim _ _ => (0, .none_)
  | .parkedPacketReexamine _ _ => (0, .none_)
  | .parkRecheckTimer _ _ => (0, .none_)
  | .placementRequest _ _ => (0, .none_)
  | .placementGrant _ => (0, .none_)
  | .launchStart _ => (0, .none_)
  | .launchCompletion _ => (0, .none_)
  | .drainClockMark _ => (0, .none_)
  | .drainClockPreempt _ => (0, .none_)
  | .preemptRetry _ => (0, .none_)
  | .groupPreempt _ _ => (0, .none_)
  | .groupResume _ => (0, .none_)
  | .waveSlotReturn _ _ => (0, .none_)
  | .groupFree _ _ => (0, .none_)
  | .bucketFill _ _ _ => (0, .none_)
  | .queueCloseWake _ => (0, .none_)
  | .queueHeaderRevalidate _ => (0, .none_)
  | .queueWaiterServe _ _ => (0, .none_)
  | .stealOptimistic _ _ => (0, .none_)
  | .stealLocked _ _ => (0, .none_)
  | .evconsWrite _ => (0, .none_)
  | .leaseExpiry _ => (0, .none_)
  | .reqs _ _ => (0, .none_)
  | .reqm _ _ => (0, .none_)
  | .data _ _ => (0, .none_)
  | .forward _ _ => (0, .none_)
  | .inv _ _ => (0, .none_)
  | .invAck _ _ => (0, .none_)
  | .recall _ _ => (0, .none_)
  | .cleanEvict _ _ => (0, .none_)
  | .wbdata _ _ => (0, .none_)
  | .snoopFilterEviction _ => (0, .none_)
  | .snpinv _ => (0, .none_)
  | .snpdata _ => (0, .none_)
  | .birsp _ _ => (0, .none_)
  | .hostAtomicHelperCas _ _ _ _ => (0, .none_)
  | .hostAccess _ _ _ => (0, .none_)
  | .translationWalk _ _ _ => (0, .none_)
  | .sideLogReplay _ => (0, .none_)
  | .genRefusalRetry _ _ _ => (0, .none_)
  | .moveCopyStep _ => (0, .none_)
  | .frespMapped _ => (0, .none_)
  | .frespDeclined _ => (0, .none_)
  | .fltconsWrite _ => (0, .none_)
  | .fpcmdRead => (0, .none_)
  | .fpcmdWrite => (0, .none_)
  | .mvdoorStart => (0, .none_)
  | .mvdoorEnd => (0, .none_)
  | .ctrlGo => (0, .none_)
  | .ctrlCommit => (0, .none_)
  | .ctrlWarmrst => (0, .none_)
  | .plimitWrite _ => (0, .none_)
  | .powerThrottle _ => (0, .none_)
  | .powerRecover _ => (0, .none_)
  | .hcfgWrite _ _ => (0, .none_)
  | .timingWrite _ _ => (0, .none_)
  | .registerWrite _ _ => (0, .none_)
  | .headScanDecision _ => (0, .none_)
  | .vblank _ => (0, .none_)
  | .perstDeassert => (0, .none_)
  | .recoveryBoot => (0, .none_)
  | .recoveryProgram => (0, .none_)
  | .recoveryBootslot => (0, .none_)
  | .scrub _ _ _ _ => (0, .none_)
  | .deferredReport _ _ => (0, .none_)
  | .trapDelivery _ _ => (0, .none_)
  | .replicaUpdate _ _ => (0, .none_)
  | .replicaAcknowledge _ _ => (0, .none_)
  | .cxlCacheResponse _ => (0, .none_)

/-- Bytes of the forms (R67). -/
def Form.len : Form → Nat
  | .c16 => 2
  | .k32 => 4
  | .b32 => 4
  | .p32 => 4
  | .l64 => 8
  | .g64 => 8
  | .m64 => 8
  | .none_ => 0

/-- Bytes of an instruction. -/
def insLen (i : Instr) : Nat := (opForm i).2.len

/-- The full opcode of an instruction: a C16 word has that of its equivalent (R72). -/
def insOp (i : Instr) : Nat :=
  match opForm i with
  | (n, .c16) =>
    [0x4F, 0x20, 0x21, 0x22, 0x25, 0x26, 0x27, 0x28, 0x29, 0x2A, 0x2B, 0x30, 0x31, 0x32, 0x34, 0x35].getD n 0
  | (n, _) => n

/-- Bit of FEAT0 that gates an opcode (R21). -/
def featureOf (op : Nat) : Option Nat :=
  if op == 0xA8 then some 1
  else if 0x70 ≤ op && op ≤ 0x7F then some 2
  else if op == 0xB0 || op == 0xB1 || op == 0xB2 || op == 0xB3 || op == 0xB6 || op == 0xB7 then some 3
  else if op == 0xB4 || op == 0xB5 then some 4
  else if 0x6A ≤ op && op ≤ 0x6F then some 5
  else if op == 0xA7 || op == 0x92 then some 6
  else if op == 0xA9 then some 7
  else none

/-- Opcodes that run in the privileged slot only: CPR, PRD and PWR (R82, R283, R391). -/
def privOp (op : Nat) : Bool := op == 0x91 || op == 0xBC || op == 0xBD

/-- Matrix class: MMA, MMAS, MMAT, MMAX (R95). -/
def matrixOp (op : Nat) : Bool := 0xA6 ≤ op && op ≤ 0xA9

/-- Control transfers, which no REP or PBLK covers (R84). -/
def transferOp (op : Nat) : Bool := (0x10 ≤ op && op ≤ 0x15) || (0x1D ≤ op && op ≤ 0x1F)

/-- May REP cover this opcode (R84)? -/
def repCovers (op : Nat) : Bool := !(transferOp op || op == 0x1B || op == 0x1C || 0xB8 ≤ op)

/-- May PBLK cover this opcode (R84)? -/
def pblkCovers (op : Nat) : Bool := repCovers op || op == 0xBC || op == 0xBD || op == 0xBF

/-- Class counter of an opcode (R92, R254, R271): k0 for what returns register data, k1 for stores and no-return
updates, k2 for batches, k3 for 0xA1 to 0xAF. -/
def classOf (op : Nat) : Option Nat :=
  if op == 0x80 || op == 0x82 || op == 0x84 || op == 0x85 || op == 0x87 || op == 0x88 || op == 0x8A then some 0
  else if op == 0x81 || op == 0x83 || op == 0x86 || (0x94 ≤ op && op ≤ 0x97 && op != 0x96) || op == 0x9A then some 1
  else if op == 0x8F || op == 0x92 then some 2
  else if 0xA1 ≤ op && op ≤ 0xAF then some 3
  else none

/-- The CF field of an instruction; 15, none, where its form has no such field (R81). -/
def insCfField (i : Instr) : BitVec 4 :=
  match i with
  | .nopK32 _ => 15
  | .nopL64 f => f.cf
  | .smov f => f.cf
  | .smoviK32 _ => 15
  | .smoviL64 f => f.cf
  | .saddK32 _ => 15
  | .saddG64 f => f.cf
  | .ssubK32 _ => 15
  | .ssubG64 f => f.cf
  | .smulK32 _ => 15
  | .smulG64 f => f.cf
  | .smulh f => f.cf
  | .sandK32 _ => 15
  | .sandG64 f => f.cf
  | .sorK32 _ => 15
  | .sorG64 f => f.cf
  | .sxorK32 _ => 15
  | .sxorG64 f => f.cf
  | .sshlK32 _ => 15
  | .sshlG64 f => f.cf
  | .sshrK32 _ => 15
  | .sshrG64 f => f.cf
  | .scmpK32 _ => 15
  | .scmpL64 f => f.cf
  | .ssel f => f.cf
  | .sminmax f => f.cf
  | .sbfx f => f.cf
  | .braB32 _ => 15
  | .braL64 f => f.cf
  | .brcB32 _ => 15
  | .brcL64 f => f.cf
  | .brmB32 _ => 15
  | .brmL64 f => f.cf
  | .callB32 _ => 15
  | .callL64 f => f.cf
  | .ret _ => 15
  | .jmpi _ => 15
  | .mlog f => f.cf
  | .mmov f => f.cf
  | .mcnt f => f.cf
  | .srd _ => 15
  | .swr _ => 15
  | .wait f => f.cf
  | .bart _ => 15
  | .loop f => f.cf
  | .exit _ => 15
  | .yield _ => 15
  | .vaddK32 _ => 15
  | .vaddG64 f => f.cf
  | .vaddC16 _ => 15
  | .vsubK32 _ => 15
  | .vsubG64 f => f.cf
  | .vsubC16 _ => 15
  | .vmul f => f.cf
  | .vmulC16 _ => 15
  | .vmulh f => f.cf
  | .vmad f => f.cf
  | .vandK32 _ => 15
  | .vandG64 f => f.cf
  | .vandC16 _ => 15
  | .vorK32 _ => 15
  | .vorG64 f => f.cf
  | .vorC16 _ => 15
  | .vxorK32 _ => 15
  | .vxorG64 f => f.cf
  | .vxorC16 _ => 15
  | .vshl f => f.cf
  | .vshlC16 _ => 15
  | .vshr f => f.cf
  | .vshrC16 _ => 15
  | .vmin f => f.cf
  | .vminC16 _ => 15
  | .vmax f => f.cf
  | .vmaxC16 _ => 15
  | .vbfx f => f.cf
  | .vpopc f => f.cf
  | .vsel f => f.cf
  | .vcmpiK32 _ => 15
  | .vcmpiG64 f => f.cf
  | .fadd f => f.cf
  | .faddC16 _ => 15
  | .fsub f => f.cf
  | .fsubC16 _ => 15
  | .fmul f => f.cf
  | .fmulC16 _ => 15
  | .ffma f => f.cf
  | .fmin f => f.cf
  | .fminC16 _ => 15
  | .fmax f => f.cf
  | .fmaxC16 _ => 15
  | .fcmp f => f.cf
  | .fclass f => f.cf
  | .frnd f => f.cf
  | .fmed3 f => f.cf
  | .flerp f => f.cf
  | .fdot2 f => f.cf
  | .fpk f => f.cf
  | .hadd2 f => f.cf
  | .hmul2 f => f.cf
  | .hfma2 f => f.cf
  | .cvt f => f.cf
  | .cvtq f => f.cf
  | .frcp f => f.cf
  | .frsq f => f.cf
  | .fsqrt f => f.cf
  | .flog2 f => f.cf
  | .fexp2 f => f.cf
  | .fsin f => f.cf
  | .fcos f => f.cf
  | .ftanh f => f.cf
  | .fdiv f => f.cf
  | .idiv f => f.cf
  | .vrand f => f.cf
  | .vsobol f => f.cf
  | .vmoviK32 _ => 15
  | .vmoviL64 f => f.cf
  | .vmov f => f.cf
  | .vmovC16 _ => 15
  | .vmovx f => f.cf
  | .xset f => f.cf
  | .xbnd f => f.cf
  | .vtrn f => f.cf
  | .vpack f => f.cf
  | .vunpk f => f.cf
  | .vbyte f => f.cf
  | .vext f => f.cf
  | .vins f => f.cf
  | .vaddc f => f.cf
  | .vsubb f => f.cf
  | .vmul64 f => f.cf
  | .vshl64 f => f.cf
  | .vshr64 f => f.cf
  | .vcmp64 f => f.cf
  | .vabsd f => f.cf
  | .shfl f => f.cf
  | .vote f => f.cf
  | .ballot f => f.cf
  | .matchLanes f => f.cf
  | .red f => f.cf
  | .scan f => f.cf
  | .fred f => f.cf
  | .bcast f => f.cf
  | .qswz f => f.cf
  | .vcompact f => f.cf
  | .laclr _ => 15
  | .laadd f => f.cf
  | .lafma f => f.cf
  | .lard f => f.cf
  | .lasave f => f.cf
  | .larst f => f.cf
  | .fndef f => f.cf
  | .fnfree _ => 15
  | .fnfit f => f.cf
  | .fnld f => f.cf
  | .fnst f => f.cf
  | .fnadd f => f.cf
  | .fnmul f => f.cf
  | .fnscl f => f.cf
  | .fncomp f => f.cf
  | .fnint f => f.cf
  | .fnder f => f.cf
  | .fneval f => f.cf
  | .fnroot f => f.cf
  | .fnext f => f.cf
  | .fnrestr f => f.cf
  | .fncoef f => f.cf
  | .ld f => f.cf
  | .st f => f.cf
  | .lds f => f.cf
  | .sts f => f.cf
  | .ldk f => f.cf
  | .atom f => f.cf
  | .atomn f => f.cf
  | .atoms f => f.cf
  | .cas f => f.cf
  | .fence f => f.cf
  | .trans f => f.cf
  | .trinv f => f.cf
  | .pref f => f.cf
  | .cache f => f.cf
  | .cpa f => f.cf
  | .cpcommit _ => 15
  | .cpb f => f.cf
  | .cpr f => f.cf
  | .cpsm f => f.cf
  | .cwprd _ => 15
  | .binit f => f.cf
  | .barr f => f.cf
  | .bwait f => f.cf
  | .bexp f => f.cf
  | .seal f => f.cf
  | .unseal f => f.cf
  | .worel f => f.cf
  | .smap f => f.cf
  | .sunmap f => f.cf
  | .enq f => f.cf
  | .deq f => f.cf
  | .fetchw _ => 15
  | .tcfg f => f.cf
  | .tld f => f.cf
  | .tst f => f.cf
  | .tzero f => f.cf
  | .tmovv f => f.cf
  | .vmovt f => f.cf
  | .mma f => f.cf
  | .mmas f => f.cf
  | .mmat f => f.cf
  | .mmax f => f.cf
  | .accld f => f.cf
  | .accst f => f.cf
  | .accq f => f.cf
  | .ttrl f => f.cf
  | .tscl f => f.cf
  | .txp f => f.cf
  | .dice f => f.cf
  | .gridacq f => f.cf
  | .gridrel f => f.cf
  | .rast f => f.cf
  | .rayq f => f.cf
  | .rayrd f => f.cf
  | .bkt f => f.cf
  | .spill f => f.cf
  | .rep _ => 15
  | .pblk _ => 15
  | .trap _ => 15
  | .rte _ => 15
  | .prd _ => 15
  | .pwr _ => 15
  | .bkpt _ => 15
  | .logev _ => 15
  | .pipeIssue _ _ => 15
  | .wavePromote _ _ => 15
  | .distElapsed _ _ => 15
  | .tokenGrant => 15
  | .counterCompletion _ _ _ => 15
  | .functionDecisionPoint _ => 15
  | .matrixCompletion _ => 15
  | .bartRelease _ _ => 15
  | .yieldExpiry _ _ => 15
  | .copyBatchComplete _ _ => 15
  | .cpbByteAddition _ _ => 15
  | .rastComplete _ _ _ => 15
  | .rayqComplete _ _ _ => 15
  | .nopPacket _ _ => 15
  | .launch _ _ => 15
  | .waitv _ _ => 15
  | .signal _ _ => 15
  | .harvest _ _ => 15
  | .shootdown _ _ => 15
  | .packetClaim _ _ => 15
  | .parkedPacketReexamine _ _ => 15
  | .parkRecheckTimer _ _ => 15
  | .placementRequest _ _ => 15
  | .placementGrant _ => 15
  | .launchStart _ => 15
  | .launchCompletion _ => 15
  | .drainClockMark _ => 15
  | .drainClockPreempt _ => 15
  | .preemptRetry _ => 15
  | .groupPreempt _ _ => 15
  | .groupResume _ => 15
  | .waveSlotReturn _ _ => 15
  | .groupFree _ _ => 15
  | .bucketFill _ _ _ => 15
  | .queueCloseWake _ => 15
  | .queueHeaderRevalidate _ => 15
  | .queueWaiterServe _ _ => 15
  | .stealOptimistic _ _ => 15
  | .stealLocked _ _ => 15
  | .evconsWrite _ => 15
  | .leaseExpiry _ => 15
  | .reqs _ _ => 15
  | .reqm _ _ => 15
  | .data _ _ => 15
  | .forward _ _ => 15
  | .inv _ _ => 15
  | .invAck _ _ => 15
  | .recall _ _ => 15
  | .cleanEvict _ _ => 15
  | .wbdata _ _ => 15
  | .snoopFilterEviction _ => 15
  | .snpinv _ => 15
  | .snpdata _ => 15
  | .birsp _ _ => 15
  | .hostAtomicHelperCas _ _ _ _ => 15
  | .hostAccess _ _ _ => 15
  | .translationWalk _ _ _ => 15
  | .sideLogReplay _ => 15
  | .genRefusalRetry _ _ _ => 15
  | .moveCopyStep _ => 15
  | .frespMapped _ => 15
  | .frespDeclined _ => 15
  | .fltconsWrite _ => 15
  | .fpcmdRead => 15
  | .fpcmdWrite => 15
  | .mvdoorStart => 15
  | .mvdoorEnd => 15
  | .ctrlGo => 15
  | .ctrlCommit => 15
  | .ctrlWarmrst => 15
  | .plimitWrite _ => 15
  | .powerThrottle _ => 15
  | .powerRecover _ => 15
  | .hcfgWrite _ _ => 15
  | .timingWrite _ _ => 15
  | .registerWrite _ _ => 15
  | .headScanDecision _ => 15
  | .vblank _ => 15
  | .perstDeassert => 15
  | .recoveryBoot => 15
  | .recoveryProgram => 15
  | .recoveryBootslot => 15
  | .scrub _ _ _ _ => 15
  | .deferredReport _ _ => 15
  | .trapDelivery _ _ => 15
  | .replicaUpdate _ _ => 15
  | .replicaAcknowledge _ _ => 15
  | .cxlCacheResponse _ => 15

/-- The DIST field of an instruction (R81); that of C16 is 0 or 4 (R71). -/
def insDist (i : Instr) : Nat :=
  match i with
  | .nopK32 f => f.dist.toNat
  | .nopL64 f => f.dist.toNat
  | .smov f => f.dist.toNat
  | .smoviK32 f => f.dist.toNat
  | .smoviL64 f => f.dist.toNat
  | .saddK32 f => f.dist.toNat
  | .saddG64 f => f.dist.toNat
  | .ssubK32 f => f.dist.toNat
  | .ssubG64 f => f.dist.toNat
  | .smulK32 f => f.dist.toNat
  | .smulG64 f => f.dist.toNat
  | .smulh f => f.dist.toNat
  | .sandK32 f => f.dist.toNat
  | .sandG64 f => f.dist.toNat
  | .sorK32 f => f.dist.toNat
  | .sorG64 f => f.dist.toNat
  | .sxorK32 f => f.dist.toNat
  | .sxorG64 f => f.dist.toNat
  | .sshlK32 f => f.dist.toNat
  | .sshlG64 f => f.dist.toNat
  | .sshrK32 f => f.dist.toNat
  | .sshrG64 f => f.dist.toNat
  | .scmpK32 f => f.dist.toNat
  | .scmpL64 f => f.dist.toNat
  | .ssel f => f.dist.toNat
  | .sminmax f => f.dist.toNat
  | .sbfx f => f.dist.toNat
  | .braB32 f => f.dist.toNat
  | .braL64 f => f.dist.toNat
  | .brcB32 f => f.dist.toNat
  | .brcL64 f => f.dist.toNat
  | .brmB32 f => f.dist.toNat
  | .brmL64 f => f.dist.toNat
  | .callB32 f => f.dist.toNat
  | .callL64 f => f.dist.toNat
  | .ret f => f.dist.toNat
  | .jmpi f => f.dist.toNat
  | .mlog f => f.dist.toNat
  | .mmov f => f.dist.toNat
  | .mcnt f => f.dist.toNat
  | .srd f => f.dist.toNat
  | .swr f => f.dist.toNat
  | .wait f => f.dist.toNat
  | .bart f => f.dist.toNat
  | .loop f => f.dist.toNat
  | .exit f => f.dist.toNat
  | .yield f => f.dist.toNat
  | .vaddK32 f => f.dist.toNat
  | .vaddG64 f => f.dist.toNat
  | .vaddC16 f => if f.d4 then 4 else 0
  | .vsubK32 f => f.dist.toNat
  | .vsubG64 f => f.dist.toNat
  | .vsubC16 f => if f.d4 then 4 else 0
  | .vmul f => f.dist.toNat
  | .vmulC16 f => if f.d4 then 4 else 0
  | .vmulh f => f.dist.toNat
  | .vmad f => f.dist.toNat
  | .vandK32 f => f.dist.toNat
  | .vandG64 f => f.dist.toNat
  | .vandC16 f => if f.d4 then 4 else 0
  | .vorK32 f => f.dist.toNat
  | .vorG64 f => f.dist.toNat
  | .vorC16 f => if f.d4 then 4 else 0
  | .vxorK32 f => f.dist.toNat
  | .vxorG64 f => f.dist.toNat
  | .vxorC16 f => if f.d4 then 4 else 0
  | .vshl f => f.dist.toNat
  | .vshlC16 f => if f.d4 then 4 else 0
  | .vshr f => f.dist.toNat
  | .vshrC16 f => if f.d4 then 4 else 0
  | .vmin f => f.dist.toNat
  | .vminC16 f => if f.d4 then 4 else 0
  | .vmax f => f.dist.toNat
  | .vmaxC16 f => if f.d4 then 4 else 0
  | .vbfx f => f.dist.toNat
  | .vpopc f => f.dist.toNat
  | .vsel f => f.dist.toNat
  | .vcmpiK32 f => f.dist.toNat
  | .vcmpiG64 f => f.dist.toNat
  | .fadd f => f.dist.toNat
  | .faddC16 f => if f.d4 then 4 else 0
  | .fsub f => f.dist.toNat
  | .fsubC16 f => if f.d4 then 4 else 0
  | .fmul f => f.dist.toNat
  | .fmulC16 f => if f.d4 then 4 else 0
  | .ffma f => f.dist.toNat
  | .fmin f => f.dist.toNat
  | .fminC16 f => if f.d4 then 4 else 0
  | .fmax f => f.dist.toNat
  | .fmaxC16 f => if f.d4 then 4 else 0
  | .fcmp f => f.dist.toNat
  | .fclass f => f.dist.toNat
  | .frnd f => f.dist.toNat
  | .fmed3 f => f.dist.toNat
  | .flerp f => f.dist.toNat
  | .fdot2 f => f.dist.toNat
  | .fpk f => f.dist.toNat
  | .hadd2 f => f.dist.toNat
  | .hmul2 f => f.dist.toNat
  | .hfma2 f => f.dist.toNat
  | .cvt f => f.dist.toNat
  | .cvtq f => f.dist.toNat
  | .frcp f => f.dist.toNat
  | .frsq f => f.dist.toNat
  | .fsqrt f => f.dist.toNat
  | .flog2 f => f.dist.toNat
  | .fexp2 f => f.dist.toNat
  | .fsin f => f.dist.toNat
  | .fcos f => f.dist.toNat
  | .ftanh f => f.dist.toNat
  | .fdiv f => f.dist.toNat
  | .idiv f => f.dist.toNat
  | .vrand f => f.dist.toNat
  | .vsobol f => f.dist.toNat
  | .vmoviK32 f => f.dist.toNat
  | .vmoviL64 f => f.dist.toNat
  | .vmov f => f.dist.toNat
  | .vmovC16 f => if f.d4 then 4 else 0
  | .vmovx f => f.dist.toNat
  | .xset f => f.dist.toNat
  | .xbnd f => f.dist.toNat
  | .vtrn f => f.dist.toNat
  | .vpack f => f.dist.toNat
  | .vunpk f => f.dist.toNat
  | .vbyte f => f.dist.toNat
  | .vext f => f.dist.toNat
  | .vins f => f.dist.toNat
  | .vaddc f => f.dist.toNat
  | .vsubb f => f.dist.toNat
  | .vmul64 f => f.dist.toNat
  | .vshl64 f => f.dist.toNat
  | .vshr64 f => f.dist.toNat
  | .vcmp64 f => f.dist.toNat
  | .vabsd f => f.dist.toNat
  | .shfl f => f.dist.toNat
  | .vote f => f.dist.toNat
  | .ballot f => f.dist.toNat
  | .matchLanes f => f.dist.toNat
  | .red f => f.dist.toNat
  | .scan f => f.dist.toNat
  | .fred f => f.dist.toNat
  | .bcast f => f.dist.toNat
  | .qswz f => f.dist.toNat
  | .vcompact f => f.dist.toNat
  | .laclr f => f.dist.toNat
  | .laadd f => f.dist.toNat
  | .lafma f => f.dist.toNat
  | .lard f => f.dist.toNat
  | .lasave f => f.dist.toNat
  | .larst f => f.dist.toNat
  | .fndef f => f.dist.toNat
  | .fnfree f => f.dist.toNat
  | .fnfit f => f.dist.toNat
  | .fnld f => f.dist.toNat
  | .fnst f => f.dist.toNat
  | .fnadd f => f.dist.toNat
  | .fnmul f => f.dist.toNat
  | .fnscl f => f.dist.toNat
  | .fncomp f => f.dist.toNat
  | .fnint f => f.dist.toNat
  | .fnder f => f.dist.toNat
  | .fneval f => f.dist.toNat
  | .fnroot f => f.dist.toNat
  | .fnext f => f.dist.toNat
  | .fnrestr f => f.dist.toNat
  | .fncoef f => f.dist.toNat
  | .ld f => f.dist.toNat
  | .st f => f.dist.toNat
  | .lds f => f.dist.toNat
  | .sts f => f.dist.toNat
  | .ldk f => f.dist.toNat
  | .atom f => f.dist.toNat
  | .atomn f => f.dist.toNat
  | .atoms f => f.dist.toNat
  | .cas f => f.dist.toNat
  | .fence f => f.dist.toNat
  | .trans f => f.dist.toNat
  | .trinv f => f.dist.toNat
  | .pref f => f.dist.toNat
  | .cache f => f.dist.toNat
  | .cpa f => f.dist.toNat
  | .cpcommit f => f.dist.toNat
  | .cpb f => f.dist.toNat
  | .cpr f => f.dist.toNat
  | .cpsm f => f.dist.toNat
  | .cwprd f => f.dist.toNat
  | .binit f => f.dist.toNat
  | .barr f => f.dist.toNat
  | .bwait f => f.dist.toNat
  | .bexp f => f.dist.toNat
  | .seal f => f.dist.toNat
  | .unseal f => f.dist.toNat
  | .worel f => f.dist.toNat
  | .smap f => f.dist.toNat
  | .sunmap f => f.dist.toNat
  | .enq f => f.dist.toNat
  | .deq f => f.dist.toNat
  | .fetchw f => f.dist.toNat
  | .tcfg f => f.dist.toNat
  | .tld f => f.dist.toNat
  | .tst f => f.dist.toNat
  | .tzero f => f.dist.toNat
  | .tmovv f => f.dist.toNat
  | .vmovt f => f.dist.toNat
  | .mma f => f.dist.toNat
  | .mmas f => f.dist.toNat
  | .mmat f => f.dist.toNat
  | .mmax f => f.dist.toNat
  | .accld f => f.dist.toNat
  | .accst f => f.dist.toNat
  | .accq f => f.dist.toNat
  | .ttrl f => f.dist.toNat
  | .tscl f => f.dist.toNat
  | .txp f => f.dist.toNat
  | .dice f => f.dist.toNat
  | .gridacq f => f.dist.toNat
  | .gridrel f => f.dist.toNat
  | .rast f => f.dist.toNat
  | .rayq f => f.dist.toNat
  | .rayrd f => f.dist.toNat
  | .bkt f => f.dist.toNat
  | .spill f => f.dist.toNat
  | .rep f => f.dist.toNat
  | .pblk f => f.dist.toNat
  | .trap f => f.dist.toNat
  | .rte f => f.dist.toNat
  | .prd f => f.dist.toNat
  | .pwr f => f.dist.toNat
  | .bkpt f => f.dist.toNat
  | .logev f => f.dist.toNat
  | .pipeIssue _ _ => 0
  | .wavePromote _ _ => 0
  | .distElapsed _ _ => 0
  | .tokenGrant => 0
  | .counterCompletion _ _ _ => 0
  | .functionDecisionPoint _ => 0
  | .matrixCompletion _ => 0
  | .bartRelease _ _ => 0
  | .yieldExpiry _ _ => 0
  | .copyBatchComplete _ _ => 0
  | .cpbByteAddition _ _ => 0
  | .rastComplete _ _ _ => 0
  | .rayqComplete _ _ _ => 0
  | .nopPacket _ _ => 0
  | .launch _ _ => 0
  | .waitv _ _ => 0
  | .signal _ _ => 0
  | .harvest _ _ => 0
  | .shootdown _ _ => 0
  | .packetClaim _ _ => 0
  | .parkedPacketReexamine _ _ => 0
  | .parkRecheckTimer _ _ => 0
  | .placementRequest _ _ => 0
  | .placementGrant _ => 0
  | .launchStart _ => 0
  | .launchCompletion _ => 0
  | .drainClockMark _ => 0
  | .drainClockPreempt _ => 0
  | .preemptRetry _ => 0
  | .groupPreempt _ _ => 0
  | .groupResume _ => 0
  | .waveSlotReturn _ _ => 0
  | .groupFree _ _ => 0
  | .bucketFill _ _ _ => 0
  | .queueCloseWake _ => 0
  | .queueHeaderRevalidate _ => 0
  | .queueWaiterServe _ _ => 0
  | .stealOptimistic _ _ => 0
  | .stealLocked _ _ => 0
  | .evconsWrite _ => 0
  | .leaseExpiry _ => 0
  | .reqs _ _ => 0
  | .reqm _ _ => 0
  | .data _ _ => 0
  | .forward _ _ => 0
  | .inv _ _ => 0
  | .invAck _ _ => 0
  | .recall _ _ => 0
  | .cleanEvict _ _ => 0
  | .wbdata _ _ => 0
  | .snoopFilterEviction _ => 0
  | .snpinv _ => 0
  | .snpdata _ => 0
  | .birsp _ _ => 0
  | .hostAtomicHelperCas _ _ _ _ => 0
  | .hostAccess _ _ _ => 0
  | .translationWalk _ _ _ => 0
  | .sideLogReplay _ => 0
  | .genRefusalRetry _ _ _ => 0
  | .moveCopyStep _ => 0
  | .frespMapped _ => 0
  | .frespDeclined _ => 0
  | .fltconsWrite _ => 0
  | .fpcmdRead => 0
  | .fpcmdWrite => 0
  | .mvdoorStart => 0
  | .mvdoorEnd => 0
  | .ctrlGo => 0
  | .ctrlCommit => 0
  | .ctrlWarmrst => 0
  | .plimitWrite _ => 0
  | .powerThrottle _ => 0
  | .powerRecover _ => 0
  | .hcfgWrite _ _ => 0
  | .timingWrite _ _ => 0
  | .registerWrite _ _ => 0
  | .headScanDecision _ => 0
  | .vblank _ => 0
  | .perstDeassert => 0
  | .recoveryBoot => 0
  | .recoveryProgram => 0
  | .recoveryBootslot => 0
  | .scrub _ _ _ _ => 0
  | .deferredReport _ _ => 0
  | .trapDelivery _ _ => 0
  | .replicaUpdate _ _ => 0
  | .replicaAcknowledge _ _ => 0
  | .cxlCacheResponse _ => 0

end Sys2Proof.Machine
end

