-- ==== Sys2Proof/Machine/Fields.lean ====
section
/-! DEFINITION. The checks of a decoded instruction's fields (checks 4 to 6 of R83): reserved values, unused fields,
scalar-class bits, and the range of every register field. One arm for each instruction, from its entry. -/

namespace Sys2Proof.Machine

/-- What the ranges of register fields depend on: vector registers of the wave, tile registers of the group,
descriptors of the launch (R16, R20, R68). -/
structure Limits where
  vregs : Nat
  tiles : Nat
  tds : Nat
  deriving DecidableEq, Repr

/-- The most that any launch can have (R16, R17). -/
def Limits.most : Limits := { vregs := 256, tiles := 16, tds := 256 }

/-- What an entry says of one register field. -/
inductive Role where
  /-- Not used: zero, with its class bit clear. -/
  | zero
  /-- A scalar source of the scalar path, `wide` for a pair: the value names the class (R104). -/
  | sp (wide : Bool)
  /-- A scalar destination. -/
  | sd (wide : Bool)
  /-- `cnt` vector registers from a number that is a multiple of `align`. -/
  | vec (cnt align : Nat)
  /-- The same, or a scalar when the class bit is set. -/
  | vsc (cnt align : Nat) (wide : Bool)
  /-- A scalar source whose class bit must be set (R78). -/
  | sc (wide : Bool)
  /-- A scalar register, no constant, from a multiple of `align`, `cnt` of them, class bit set. -/
  | scReg (cnt align : Nat)
  /-- A scalar register, no constant, class bit clear, `cnt` from a multiple of `align`. -/
  | sReg (cnt align : Nat)
  /-- A mask. -/
  | mask
  /-- An index register. -/
  | idx
  /-- A function register. -/
  | fn
  /-- A tile register. -/
  | tile
  /-- A tensor identifier. -/
  | td
  /-- A number of at most `n`, class bit clear. -/
  | num (n : Nat)
  deriving DecidableEq, Repr

/-- Is a scalar source field valid (R68, R69)? -/
def scalarOk (wide : Bool) (x : Nat) : Bool := (128 ≤ x && x < 256) || (x < 64 && (!wide || x % 2 == 0))

/-- Does a field with its class bit meet its role? -/
def roleOk (l : Limits) (bit : Bool) (x : Nat) : Role → Bool
  | .zero => !bit && x == 0
  | .sp w => !bit && scalarOk w x
  | .sd w => !bit && x < 64 && (!w || x % 2 == 0)
  | .vec n a => !bit && x % a == 0 && x + n ≤ l.vregs
  | .vsc n a w => if bit then scalarOk w x else x % a == 0 && x + n ≤ l.vregs
  | .sc w => bit && scalarOk w x
  | .scReg n a => bit && x + n ≤ 64 && x % a == 0
  | .sReg n a => !bit && x + n ≤ 64 && x % a == 0
  | .mask => !bit && x ≤ 8
  | .idx => !bit && x < 8
  | .fn => !bit && x < 16
  | .tile => !bit && x < l.tiles
  | .td => !bit && x < l.tds
  | .num n => !bit && x ≤ n

/-- CF: none, or one of k4 to k11 where the entry names a use (R81). -/
def cfOk (allowed : Bool) (cf : BitVec 4) : Bool := cf == 15 || (allowed && cf.toNat < 8)

/-- What an entry says of the fields of its word. -/
inductive Shape where
  /-- Nothing that depends on the wave: the condition. -/
  | plain (ok : Bool)
  /-- A G64 or T64 word: SUB and MOD as the entry gives them (`ok`), CF, XE (R70), and the four fields. -/
  | gWord (f : G64) (ok cf xe : Bool) (d a b c : Role)
  /-- An M64 word (R254): `ok` for SIZE, AOP, TR and IMM14 as the entry gives them. -/
  | mWord (f : M64) (ok cf : Bool) (orders : List Nat) (d a : Role)
  /-- A C16 word: two vector registers (R72); `both` says that it reads the first too. -/
  | cWord (f : C16) (both : Bool)
  /-- A word with one field of a role, which it reads or does not. -/
  | field (ok reads : Bool) (d : Nat) (role : Role)
  deriving DecidableEq, Repr

/-- SUB at most `n`. -/
def subLe (f : G64) (n : Nat) : Bool := f.sub.toNat ≤ n

/-- MOD at most `n`. -/
def modLe (f : G64) (n : Nat) : Bool := f.mod.toNat ≤ n

/-- The width bit W of the scalar path (R104). -/
def wbit (f : G64) : Bool := f.mod.getLsbD 0

/-- A G64 word of the scalar path: SUB at most `n`, W only where allowed (R104, R106). -/
def spShape (f : G64) (n : Nat) (w : Bool) (d a b c : Role) : Shape :=
  .gWord f (subLe f n && modLe f (if w then 1 else 0)) false false d a b c

/-- A K32 word whose D names a scalar register (R108). -/
def kS (f : K32) : Bool := f.d.toNat < 64

/-- ORDER and SCOPE (R77, R256): the orders allowed, and no scope with relaxed. -/
def orderOk (f : M64) (allowed : List Nat) : Bool :=
  allowed.contains f.order.toNat && (if f.order == 0 then f.scope == 0 else f.scope.toNat ≤ 5)

/-- Registers of a transfer of 2^SIZE bytes (R258). -/
def sizeRegs (f : M64) : Nat := if f.size.toNat ≤ 2 then 1 else 2 ^ (f.size.toNat - 2)

/-- The data registers of a transfer. -/
def dataRole (f : M64) : Role := .vec (sizeRegs f) (sizeRegs f)

/-- Registers of an atomic's operand: one, or a pair (R262). -/
def atomRole (f : M64) : Role := if f.size == 3 then .vec 2 2 else .vec 1 1

/-- An atomic's SIZE and AOP (R254, R261). -/
def atomOk (f : M64) : Bool := (f.size == 2 || f.size == 3) && !(f.aop == 15 && f.size == 3)

/-- Width of a special register: is it a pair (R118)? -/
def specialPair (n : Nat) : Bool := n == 0 || n == 7 || n == 12

/-- May SWR write it (R118)? -/
def specialRw (n : Nat) : Bool := n == 8 || n == 9 || n == 11 || n == 12

/-- A privileged register's number that R394 lists: is it a pair? -/
def privReg (n : Nat) : Option Bool :=
  if n == 0 || n == 1 || n == 2 || (8 ≤ n && n ≤ 11) || n == 0x20 || n == 0x21 then some false
  else if n == 4 || n == 6 || n == 0x22 || n == 0x24 then some true
  else none

/-- A 32-bit vector operand that may be scalar (R131). -/
abbrev V0 : Role := .vsc 1 1 false

/-- A G64 word of the vector class with a vector destination and A (R131): XE allowed, no CF. -/
def vShape (f : G64) (ok : Bool) (a b c : Role) : Shape := .gWord f ok false true (.vec 1 1) a b c

/-- A pair, or 0 with the class bit clear (R292). -/
def pairOr (bit : Bool) : Role := if bit then .scReg 2 2 else .zero

/-- A scalar, or 0 with the class bit clear (R292). -/
def scOr (bit : Bool) : Role := if bit then .sc false else .zero
/-- What the entry of an instruction says of its fields. -/
def shapeOf (i : Instr) : Shape :=
  match i with
  | .nopK32 f => .plain (f.d == 0 && f.imm == 0)
  | .nopL64 f => .plain (f.d == 0 && f.sub7 == 0 && f.cf == 15)
  | .smov f => spShape f 0 true (.sd (wbit f)) (.sp (wbit f)) .zero .zero
  | .smoviK32 f => .plain (kS f)
  | .smoviL64 f => .plain (f.sub7.toNat ≤ 1 && f.cf == 15 && f.d.toNat < 64 && (f.sub7 == 0 || f.d.toNat % 2 == 0))
  | .saddK32 f => .plain (kS f)
  | .saddG64 f => spShape f 2 true (.sd (wbit f)) (.sp (wbit f)) (.sp (wbit f)) .zero
  | .ssubK32 f => .plain (kS f)
  | .ssubG64 f => spShape f 2 true (.sd (wbit f)) (.sp (wbit f)) (.sp (wbit f)) .zero
  | .smulK32 f => .plain (kS f)
  | .smulG64 f => spShape f 0 false (.sd false) (.sp false) (.sp false) .zero
  | .smulh f => spShape f 1 false (.sd false) (.sp false) (.sp false) .zero
  | .sandK32 f => .plain (kS f)
  | .sandG64 f => spShape f 0 true (.sd (wbit f)) (.sp (wbit f)) (.sp (wbit f)) .zero
  | .sorK32 f => .plain (kS f)
  | .sorG64 f => spShape f 0 true (.sd (wbit f)) (.sp (wbit f)) (.sp (wbit f)) .zero
  | .sxorK32 f => .plain (kS f)
  | .sxorG64 f => spShape f 0 true (.sd (wbit f)) (.sp (wbit f)) (.sp (wbit f)) .zero
  | .sshlK32 f => .plain (kS f && f.imm.toNat < 32)
  | .sshlG64 f => spShape f 0 true (.sd (wbit f)) (.sp (wbit f)) (.sp false) .zero
  | .sshrK32 f => .plain (kS f && f.imm.toNat < 64)
  | .sshrG64 f => spShape f 1 true (.sd (wbit f)) (.sp (wbit f)) (.sp false) .zero
  | .scmpK32 f =>
    let w := f.imm.getLsbD 6
    .plain (scalarOk w f.d.toNat && !f.imm.getLsbD 10 && (!w || !f.imm.getLsbD 0))
  | .scmpL64 f => .plain (f.sub7.toNat < 16 && f.cf == 15 && f.d.toNat < 64 && (!f.sub7.getLsbD 3 || f.d.toNat % 2 == 0))
  | .ssel f => spShape f 0 true (.sd (wbit f)) (.sp (wbit f)) (.sp (wbit f)) .zero
  | .sminmax f => spShape f 3 true (.sd (wbit f)) (.sp (wbit f)) (.sp (wbit f)) .zero
  | .sbfx f => spShape f 1 false (.sd false) (.sp false) (.sp false) (.sp false)
  | .braB32 _ => .plain true
  | .braL64 f => .plain (f.sub7 == 0 && f.d == 0 && f.cf == 15)
  | .brcB32 _ => .plain true
  | .brcL64 f => .plain (f.sub7.toNat ≤ 1 && f.d == 0 && f.cf == 15)
  | .brmB32 f => .plain (bits f.off 5 2 ≤ 8)
  | .brmL64 f => .plain (f.sub7.toNat ≤ 3 && f.d.toNat ≤ 8 && f.cf == 15)
  | .callB32 _ => .plain true
  | .callL64 f => .plain (f.sub7 == 0 && f.d == 0 && f.cf == 15)
  | .ret f => .plain (f.d.toNat < 64 && f.d.toNat % 2 == 0 && f.imm == 0)
  | .jmpi f => .plain (f.d.toNat < 64 && f.d.toNat % 2 == 0)
  | .mlog f =>
    let r (b : Bool) : Role := if b then .mask else .zero
    .gWord f (subLe f 7 && f.mod == 0) false false .mask (r (subLe f 5)) (r (subLe f 4)) .zero
  | .mmov f =>
    .gWord f (subLe f 4 && f.mod == 0) false (f.sub == 3)
      (if f.sub == 1 then .sd true else if f.sub == 4 then .vec 1 1 else .mask)
      (if f.sub == 2 then .sp true else if f.sub == 3 then .vec 1 1 else .mask) .zero .zero
  | .mcnt f => .gWord f (subLe f 2 && f.mod == 0) false false (.sd false) .mask .zero .zero
  | .srd f =>
    let n := bits f.imm 7 0
    let p := specialPair n
    let v := f.imm.getLsbD 8
    .field (bits f.imm 10 9 == 0 && n ≤ 12 && (v || n != 1)) false f.d.toNat (if v then (if p then .vec 2 2 else .vec 1 1) else .sd p)
  | .swr f =>
    let n := bits f.imm 7 0
    let p := specialPair n
    .field (bits f.imm 10 9 == 0 && specialRw n) true f.d.toNat
      (if f.imm.getLsbD 8 then (if p then .vec 2 2 else .vec 1 1) else .sd p)
  | .wait f => .plain (f.imm.toNat < 2 ^ 24 && f.sub7 == 0 && f.d == 0 && f.cf == 15)
  | .bart f => .plain (f.d == 0 && f.imm.toNat < 16)
  | .loop f => .plain (f.d.toNat < 64 && f.sub7 == 0 && f.cf == 15)
  | .exit f => .plain (f.d == 0 && f.imm.toNat ≤ 1)
  | .yield f => .plain (f.d == 0 && f.imm.toNat < 1024)
  | .vaddK32 f => .field true true f.d.toNat (.vec 1 1)
  | .vaddG64 f => vShape f (modLe f 2 && subLe f 2) V0 V0 .zero
  | .vaddC16 f => .cWord f true
  | .vsubK32 f => .field true true f.d.toNat (.vec 1 1)
  | .vsubG64 f => vShape f (modLe f 2 && subLe f 2) V0 V0 .zero
  | .vsubC16 f => .cWord f true
  | .vmul f => vShape f (modLe f 0 && subLe f 0) V0 V0 .zero
  | .vmulC16 f => .cWord f true
  | .vmulh f => vShape f (modLe f 0 && subLe f 1) V0 V0 .zero
  | .vmad f => vShape f (modLe f 0 && subLe f 0) V0 V0 V0
  | .vandK32 f => .field true true f.d.toNat (.vec 1 1)
  | .vandG64 f => vShape f (modLe f 0 && subLe f 0) V0 V0 .zero
  | .vandC16 f => .cWord f true
  | .vorK32 f => .field true true f.d.toNat (.vec 1 1)
  | .vorG64 f => vShape f (modLe f 0 && subLe f 0) V0 V0 .zero
  | .vorC16 f => .cWord f true
  | .vxorK32 f => .field true true f.d.toNat (.vec 1 1)
  | .vxorG64 f => vShape f (modLe f 0 && subLe f 0) V0 V0 .zero
  | .vxorC16 f => .cWord f true
  | .vshl f => vShape f (modLe f 0 && subLe f 0) V0 V0 .zero
  | .vshlC16 f => .cWord f true
  | .vshr f => vShape f (modLe f 0 && subLe f 1) V0 V0 .zero
  | .vshrC16 f => .cWord f true
  | .vmin f => vShape f (modLe f 2 && subLe f 1) V0 V0 .zero
  | .vminC16 f => .cWord f true
  | .vmax f => vShape f (modLe f 2 && subLe f 1) V0 V0 .zero
  | .vmaxC16 f => .cWord f true
  | .vbfx f => vShape f (modLe f 0 && subLe f 1) V0 V0 V0
  | .vpopc f => vShape f (modLe f 0 && subLe f 3) V0 .zero .zero
  | .vsel f => vShape f (modLe f 0 && subLe f 0) V0 V0 .mask
  | .vcmpiK32 f => .field true true (f.d.toNat % 32) (.vec 1 1)
  | .vcmpiG64 f => .gWord f (modLe f 0 && subLe f 7) false true .mask V0 V0 .zero
  | .fadd f => vShape f (subLe f 5) V0 V0 .zero
  | .faddC16 f => .cWord f true
  | .fsub f => vShape f (subLe f 5) V0 V0 .zero
  | .fsubC16 f => .cWord f true
  | .fmul f => vShape f (subLe f 5) V0 V0 .zero
  | .fmulC16 f => .cWord f true
  | .ffma f => vShape f (subLe f 5) V0 V0 V0
  | .fmin f => vShape f (subLe f 0) V0 V0 .zero
  | .fminC16 f => .cWord f true
  | .fmax f => vShape f (subLe f 0) V0 V0 .zero
  | .fmaxC16 f => .cWord f true
  | .fcmp f => .gWord f (subLe f 7) false true .mask V0 V0 .zero
  | .fclass f => vShape f (modLe f 0 && subLe f 0) V0 .zero .zero
  | .frnd f => vShape f (modLe f 0 && subLe f 5) V0 .zero .zero
  | .fmed3 f => vShape f (modLe f 0 && subLe f 0) V0 V0 V0
  | .flerp f => vShape f (modLe f 0 && subLe f 5) V0 V0 V0
  | .fdot2 f => vShape f (modLe f 1 && subLe f 5) V0 V0 V0
  | .fpk f => vShape f (modLe f 1 && subLe f 5) V0 V0 .zero
  | .hadd2 f => vShape f (modLe f 1 && subLe f 5) V0 V0 .zero
  | .hmul2 f => vShape f (modLe f 1 && subLe f 5) V0 V0 .zero
  | .hfma2 f => vShape f (modLe f 1 && subLe f 5) V0 V0 V0
  | .cvt f =>
    let wide (x : BitVec 4) : Bool := x == 11 || x == 12
    let int (x : BitVec 4) : Bool := x == 0 || x == 1 || 7 ≤ x.toNat
    let rs := f.c.toNat % 8 == 6
    .gWord f (modLe f 12 && subLe f 12 && f.c.toNat < 16 && f.c.toNat % 8 != 7 && !(f.c.toNat / 8 == 1 && int f.mod) &&
        !(rs && (wide f.mod || f.mod.toNat ≤ 2)))
      false (!wide f.sub) (if wide f.mod then .vec 2 2 else .vec 1 1)
      (if wide f.sub then .vsc 2 2 true else V0) (if rs then V0 else .zero) (.num 15)
  | .cvtq f => vShape f (modLe f 8 && subLe f 6) V0 V0 (if f.sub == 6 then V0 else .zero)
  | .frcp f => .gWord f (modLe f 0 && subLe f 0) true true (.vec 1 1) V0 .zero .zero
  | .frsq f => .gWord f (modLe f 0 && subLe f 0) true true (.vec 1 1) V0 .zero .zero
  | .fsqrt f => .gWord f (modLe f 0 && subLe f 0) true true (.vec 1 1) V0 .zero .zero
  | .flog2 f => .gWord f (modLe f 0 && subLe f 0) true true (.vec 1 1) V0 .zero .zero
  | .fexp2 f => .gWord f (modLe f 0 && subLe f 0) true true (.vec 1 1) V0 .zero .zero
  | .fsin f => .gWord f (modLe f 1 && subLe f 0) true true (.vec 1 1) V0 .zero .zero
  | .fcos f => .gWord f (modLe f 1 && subLe f 0) true true (.vec 1 1) V0 .zero .zero
  | .ftanh f => .gWord f (modLe f 0 && subLe f 0) true true (.vec 1 1) V0 .zero .zero
  | .fdiv f => .gWord f (modLe f 0 && subLe f 0) true true (.vec 1 1) V0 V0 .zero
  | .idiv f => .gWord f (modLe f 0 && subLe f 3) true true (.vec 1 1) V0 V0 .zero
  | .vrand f => vShape f (modLe f 0 && subLe f 1) V0 V0 .zero
  | .vsobol f => vShape f (modLe f 3 && subLe f 4) V0 V0 .zero
  | .vmoviK32 f => .field true false f.d.toNat (.vec 1 1)
  | .vmoviL64 f => .field (f.sub7 == 0 && f.cf == 15) false f.d.toNat (.vec 1 1)
  | .vmov f => .gWord f (modLe f 0 && subLe f 0) false false (.vec 1 1) (.num 255) V0 .zero
  | .vmovC16 f => .cWord f false
  | .vmovx f =>
    if f.sub == 0 then .gWord f (modLe f 0) false false (.vec 1 1) .idx .zero .zero
    else .gWord f (modLe f 0 && subLe f 1) false false .idx .zero V0 .zero
  | .xset f => .gWord f (modLe f 0 && subLe f 0) false true .idx V0 .zero .zero
  | .xbnd f => .plain (f.imm.toNat < 2 ^ 17 && 1 ≤ f.imm.toNat / 256 && f.imm.toNat / 256 ≤ 256 && f.sub7 == 0 && f.cf == 15 && f.d.toNat < 8)
  | .vtrn f =>
    let n := 2 ^ (f.mod.toNat + 1)
    .gWord f (modLe f 4 && subLe f 0) false false (.vec n 1) (.vec n 1) .zero .zero
  | .vpack f => vShape f (modLe f 0 && subLe f 2) V0 V0 .zero
  | .vunpk f => vShape f (modLe f 0 && subLe f 11) V0 .zero .zero
  | .vbyte f => vShape f (modLe f 0 && subLe f 0) V0 V0 V0
  | .vext f => .gWord f (modLe f 0 && subLe f 0) false true (.sd false) (.vec 1 1) (.sc false) .zero
  | .vins f => .gWord f (modLe f 0 && subLe f 0) false false (.vec 1 1) (.sc false) (.sc false) .zero
  | .vaddc f => vShape f (modLe f 0 && subLe f 0 && f.c != 0) V0 V0 .mask
  | .vsubb f => vShape f (modLe f 0 && subLe f 0 && f.c != 0) V0 V0 .mask
  | .vmul64 f =>
    let w := f.sub == 2
    .gWord f (modLe f 0 && subLe f 2) false (!w) (.vec 2 2) (if w then .vsc 2 2 true else V0)
      (if w then .vsc 2 2 true else V0) .zero
  | .vshl64 f => .gWord f (modLe f 0 && subLe f 0) false false (.vec 2 2) (.vsc 2 2 true) V0 .zero
  | .vshr64 f => .gWord f (modLe f 0 && subLe f 1) false false (.vec 2 2) (.vsc 2 2 true) V0 .zero
  | .vcmp64 f => .gWord f (modLe f 0 && subLe f 7) false false .mask (.vsc 2 2 true) (.vsc 2 2 true) .zero
  | .vabsd f => vShape f (modLe f 2 && subLe f 1) V0 V0 .zero
  | .shfl f => .gWord f (modLe f 6 && subLe f 3) false false (.vec 1 1) (.vec 1 1) V0 .zero
  | .vote f => .gWord f (modLe f 0 && subLe f 3) false false .mask (.vec 1 1) .zero .zero
  | .ballot f => .gWord f (modLe f 0 && subLe f 0) false false (.sd true) (.vec 1 1) .zero .zero
  | .matchLanes f =>
    let n := f.mod.toNat + 1
    .gWord f (modLe f 1 && subLe f 2) false false (if f.sub == 0 then .vec 2 2 else .vec 1 1) (.vec n n) .zero .zero
  | .red f => .gWord f (modLe f 1 && subLe f 7) false false (if f.mod == 1 then .sd false else .vec 1 1) (.vec 1 1) .zero .zero
  | .scan f => .gWord f (modLe f 1 && subLe f 7) false false (.vec 1 1) (.vec 1 1) .zero .zero
  | .fred f => .gWord f (modLe f 1 && subLe f 2) false false (if f.mod == 1 then .sd false else .vec 1 1) (.vec 1 1) .zero .zero
  | .bcast f => .gWord f (modLe f 0 && subLe f 0) false false (.vec 1 1) (.vec 1 1) (.sc false) .zero
  | .qswz f => .gWord f (modLe f 0 && subLe f 0) false false (.vec 1 1) (.vec 1 1) .zero (.num 255)
  | .vcompact f => .gWord f (modLe f 0 && subLe f 1) false false (.vec 1 1) (.vec 1 1) .zero .zero
  | .laclr f => .plain (f.d == 0 && f.imm == 0)
  | .laadd f => .gWord f (modLe f 1 && subLe f 2) false true .zero V0 .zero .zero
  | .lafma f => .gWord f (modLe f 1 && subLe f 0) false true .zero V0 V0 .zero
  | .lard f => .gWord f (modLe f 1 && subLe f 5) false false (.sd false) .zero .zero .zero
  | .lasave f => .gWord f (modLe f 0 && subLe f 0) false false (.vec 2 2) .zero .zero .zero
  | .larst f => .gWord f (modLe f 0 && subLe f 0) false false .zero (.vec 2 2) .zero .zero
  | .fndef f =>
    .gWord f (modLe f 1 && (f.c == 0 || 129 ≤ f.c.toNat)) false false .fn (.sc false) (.sc false) (.num 255)
  | .fnfree f => .plain (f.d.toNat < 16 && (f.imm == 0 || (f.imm == 1 && f.d == 0)))
  | .fnfit f => .gWord f (modLe f 0 && subLe f 0) true false .fn (.vec 1 1) .zero .zero
  | .fnld f => .gWord f (modLe f 0 && subLe f 0) true false .fn (.vec 1 1) .zero .zero
  | .fnst f => .gWord f (modLe f 0 && subLe f 0) true false (.vec 1 1) .fn .zero .zero
  | .fnadd f => .gWord f (modLe f 0 && subLe f 1) true false .fn .fn .fn .zero
  | .fnmul f => .gWord f (modLe f 0 && subLe f 0) true false .fn .fn .fn .zero
  | .fnscl f => .gWord f (modLe f 0 && subLe f 0) true false .fn .fn V0 V0
  | .fncomp f => .gWord f (modLe f 0 && subLe f 0) true false .fn .fn .fn .zero
  | .fnint f => .gWord f (modLe f 0 && subLe f 0) true false .fn .fn .zero .zero
  | .fnder f => .gWord f (modLe f 0 && subLe f 0) true false .fn .fn .zero .zero
  | .fneval f => .gWord f (modLe f 0 && subLe f 0) true false (.vec 1 1) .fn V0 .zero
  | .fnroot f => .gWord f (modLe f 0 && subLe f 0) true false (.vec 1 1) .fn V0 .zero
  | .fnext f => .gWord f (modLe f 0 && subLe f 3) true false (.vec 1 1) .fn .zero .zero
  | .fnrestr f => .gWord f (modLe f 0 && subLe f 0) true false .fn .fn (.sc false) (.sc false)
  | .fncoef f =>
    match f.sub.toNat with
    | 0 => .gWord f (modLe f 0) true false (.vec 1 1) .fn (.sc false) .zero
    | 1 => .gWord f (modLe f 0) true false .fn V0 (.sc false) .zero
    | _ => .gWord f (modLe f 0 && subLe f 2) true false (.sd false) .fn .zero .zero
  | .ld f =>
    .mWord f (f.size.toNat ≤ 5 && f.aop.toNat < 8 && f.aop.toNat % 4 != 3 && (f.aop.toNat < 4 || f.size.toNat ≤ 1)) true
      [0, 1, 4] (dataRole f) (.vsc 1 1 false)
  | .st f => .mWord f (f.size.toNat ≤ 5 && f.aop == 0) true [0, 2, 4] (dataRole f) (.vsc 1 1 false)
  | .lds f =>
    .mWord f (f.size.toNat ≤ 5 && f.tr == 0 && (f.aop == 0 || (f.aop == 4 && f.size.toNat ≤ 1))) true
      [0, 1, 4] (dataRole f) (.vsc 1 1 false)
  | .sts f => .mWord f (f.size.toNat ≤ 5 && f.tr == 0 && f.aop == 0) true [0, 2, 4] (dataRole f) (.vsc 1 1 false)
  | .ldk f =>
    let n := sizeRegs f
    .mWord f (2 ≤ f.size.toNat && f.size.toNat ≤ 5 && f.aop.toNat ≤ 1 && (f.aop == 1 || f.tr == 0)) true
      [0] (.sReg n n) (.sc false)
  | .atom f => .mWord f (atomOk f) true [0, 1, 2, 3, 4] (atomRole f) (.vsc 1 1 false)
  | .atomn f => .mWord f (atomOk f) true [0, 2, 4] (atomRole f) (.vsc 1 1 false)
  | .atoms f => .mWord f (atomOk f && f.tr == 0) true [0, 1, 2, 3, 4] (atomRole f) (.vsc 1 1 false)
  | .cas f =>
    let n := if f.size == 3 then 4 else 2
    .mWord f ((f.size == 2 || f.size == 3) && f.aop.toNat ≤ 1 && (f.aop == 0 || f.tr == 0)) true
      [0, 1, 2, 3, 4] (.vec n n) (.vsc 1 1 false)
  | .fence f => .mWord f (f.size == 0 && f.aop == 0 && f.tr == 0 && f.imm == 0) false [1, 2, 3, 4] .zero .zero
  | .trans f => .mWord f (f.size == 0 && f.aop == 0) true [0] .zero (.sc true)
  | .trinv f =>
    .mWord f (f.size == 0 && f.aop.toNat ≤ 1 && f.imm == 0 && (f.aop == 0 || f.tr == 0)) false [0] .zero .zero
  | .pref f => .mWord f (f.size == 0 && f.aop.toNat ≤ 1) false [0] .zero (.vsc 1 1 false)
  | .cache f =>
    let u := f.aop == 2
    .mWord f (f.size == 0 && f.aop.toNat ≤ 3 && (u || (f.tr == 0 && f.imm == 0))) false [0] .zero
      (if u then .vsc 1 1 false else .zero)
  | .cpa f => .mWord f (f.size.toNat ≤ 5 && (f.aop == 0 || 8 ≤ f.aop.toNat)) false [0] (.vec 1 1) (.vsc 1 1 false)
  | .cpcommit f => .plain (if f.imm.getLsbD 10 then f.imm == 1024 && f.d.toNat < 64 else f.imm == 0 && f.d == 0)
  | .cpb f => .mWord f (f.size == 0 && f.tr == 0 && f.aop.toNat ≤ 3) false [0] (.sp false) (.scReg 8 8)
  | .cpr f => .mWord f (f.size == 0 && f.tr == 0 && f.aop.toNat ≤ 2 && f.imm == 0) false [0] (.sd false) (.scReg 8 8)
  | .cpsm f => .mWord f (f.size == 0 && f.aop.toNat ≤ 6) true [0] (.sp false) (.sc false)
  | .cwprd f => .plain (f.d.toNat < 64 && f.d.toNat % 2 == 0 && (if f.imm.getLsbD 10 then bits f.imm 9 7 == 0 else f.imm == 0))
  | .binit f =>
    .mWord f (f.size == 0 && f.tr == 0 && f.aop.toNat ≤ 1) true [0] (if f.aop == 1 then .zero else .sp false) (.sc false)
  | .barr f => .mWord f (f.size == 0 && f.tr == 0 && f.aop == 0) true [0, 2] (.sp false) (.sc false)
  | .bwait f => .mWord f (f.size == 0 && f.tr == 0 && f.aop == 0) false [0, 1] (.sp false) (.sc false)
  | .bexp f => .mWord f (f.size == 0 && f.tr == 0 && f.aop == 0) true [0] (.sp false) (.sc false)
  | .seal f => .mWord f (f.size == 0 && f.aop == 0) false [0] (.sp false) (.sc false)
  | .unseal f => .mWord f (f.size == 0 && f.aop == 0) false [0] (.sp false) (.sc false)
  | .worel f => .mWord f (f.size == 0 && f.aop == 0) true [0] (.sp false) (.sc false)
  | .smap f => .mWord f (f.size == 0 && f.aop == 0) false [0] (.sp true) (.sc false)
  | .sunmap f => .mWord f (f.size == 0 && f.aop == 0) false [0] .zero (.sc false)
  | .enq f => .mWord f (f.size == 0 && f.aop == 0) false [0] (.sReg 8 8) (.sc false)
  | .deq f => .mWord f (f.size == 0 && f.aop == 0) false [0] (.sReg 8 8) (.sc false)
  | .fetchw f => .plain (f.d.toNat < 64 && f.imm == 0)
  | .tcfg f =>
    if f.sub == 0 then .gWord f (f.mod.toNat ≤ 1) false false .tile .td (.num 255) (.num 255)
    else .gWord f (f.sub == 1 && f.mod == 0) false false .tile .td (.sc false) .zero
  | .tld f => .gWord f (f.mod == 0 && f.sub == 0) true false .tile (.scReg 2 2) (pairOr f.sb) .zero
  | .tst f => .gWord f (f.mod == 0 && f.sub == 0) true false .tile (.scReg 2 2) (pairOr f.sb) .zero
  | .tzero f => .gWord f (f.mod == 0 && f.sub == 0) true false .tile .zero .zero .zero
  | .tmovv f => .gWord f (f.mod == 0 && f.sub == 0) true false .tile (.vec 1 1) (.sc false) .zero
  | .vmovt f => .gWord f (f.mod == 0 && f.sub == 0) true false (.vec 1 1) .tile (.sc false) .zero
  | .mma f => .gWord f (f.mod.toNat ≤ 1 && f.sub == 0) true false .zero .tile .tile (.sc false)
  | .mmas f => .gWord f (f.mod.toNat ≤ 1 && f.sub == 0) true false .zero .tile .tile (.scReg 2 2)
  | .mmat f => .gWord f (f.mod.toNat ≤ 1 && f.sub == 0) true false .zero .tile .tile (.sc false)
  | .mmax f => .gWord f (f.mod.toNat ≤ 1 && f.sub == 0) true false .zero .tile .tile (.sc false)
  | .accld f => .gWord f (f.mod.toNat ≤ 2 && f.sub == 0) true false .td (.sc false) (.scReg 2 2) (scOr f.sc)
  | .accst f => .gWord f (f.mod.toNat ≤ 2 && f.sub.toNat ≤ 5) true false .td (.sc false) (.scReg 2 2) (scOr f.sc)
  | .accq f => .gWord f (f.mod.toNat ≤ 1 && f.sub.toNat ≤ 6) true false .td (.sc false) (.sc false) (scOr f.sc)
  | .ttrl f => .gWord f (f.mod == 0 && f.sub == 0) true false (.vec 1 1) .td .zero .zero
  | .tscl f => .gWord f (f.mod == 0 && f.sub.toNat ≤ 1) true false .zero (.sc false) (.sc false) (.sc false)
  | .txp f => .gWord f (f.mod == 0 && f.sub == 0) true false .tile .tile .zero .zero
  | .dice f => .gWord f (f.mod == 0 && f.sub == 0) false false (.sd false) (.sc false) .zero .zero
  | .gridacq f => .gWord f (f.mod == 0 && f.sub.toNat ≤ 1) false false (.sReg 4 4) (.sc false) .zero .zero
  | .gridrel f => .gWord f (f.mod == 0 && f.sub == 0) false false (.sd false) (.sc false) .zero .zero
  | .rast f => .gWord f (f.mod == 0 && f.sub == 0) true false .zero (.sc false) (.sc false) .zero
  | .rayq f => .gWord f (f.mod.toNat ≤ 3 && f.sub.toNat ≤ 1) true false .zero (.vec 8 1) (.scReg 2 2) .zero
  | .rayrd f => .gWord f (f.mod.toNat ≤ 3 && f.sub == 0) false false (.vec 5 1) .zero .zero .zero
  | .bkt f =>
    .gWord f (f.mod == 0 && f.sub.toNat ≤ 2) false false (.sd false) (if f.sub == 0 then .scReg 8 8 else .sc false) .zero .zero
  | .spill f => .gWord f (f.mod == 0 && f.sub == 0) false false .zero (.sc false) .zero .zero
  | .rep _ => .plain true
  | .pblk f => .plain (f.pat.toNat < 2 ^ (f.cnt.toNat + 1))
  | .trap f => .plain (f.d == 0)
  | .rte f => .plain (f.d == 0 && f.imm == 0)
  | .prd f =>
    .plain (bits f.imm 10 8 == 0 &&
      match privReg (bits f.imm 7 0) with
      | none => false
      | some p => f.d.toNat < 64 && (!p || f.d.toNat % 2 == 0))
  | .pwr f =>
    .plain (bits f.imm 10 8 == 0 &&
      match privReg (bits f.imm 7 0) with
      | none => false
      | some p => !(8 ≤ bits f.imm 7 0 && bits f.imm 7 0 ≤ 11) && scalarOk p f.d.toNat)
  | .bkpt f => .plain (f.d == 0)
  | .logev f => .plain (scalarOk true f.d.toNat)
  | .pipeIssue _ _ => .plain true
  | .wavePromote _ _ => .plain true
  | .distElapsed _ _ => .plain true
  | .tokenGrant => .plain true
  | .counterCompletion _ _ _ => .plain true
  | .functionDecisionPoint _ => .plain true
  | .matrixCompletion _ => .plain true
  | .bartRelease _ _ => .plain true
  | .yieldExpiry _ _ => .plain true
  | .copyBatchComplete _ _ => .plain true
  | .cpbByteAddition _ _ => .plain true
  | .rastComplete _ _ _ => .plain true
  | .rayqComplete _ _ _ => .plain true
  | .nopPacket _ _ => .plain true
  | .launch _ _ => .plain true
  | .waitv _ _ => .plain true
  | .signal _ _ => .plain true
  | .harvest _ _ => .plain true
  | .shootdown _ _ => .plain true
  | .packetClaim _ _ => .plain true
  | .parkedPacketReexamine _ _ => .plain true
  | .parkRecheckTimer _ _ => .plain true
  | .placementRequest _ _ => .plain true
  | .placementGrant _ => .plain true
  | .launchStart _ => .plain true
  | .launchCompletion _ => .plain true
  | .drainClockMark _ => .plain true
  | .drainClockPreempt _ => .plain true
  | .preemptRetry _ => .plain true
  | .groupPreempt _ _ => .plain true
  | .groupResume _ => .plain true
  | .waveSlotReturn _ _ => .plain true
  | .groupFree _ _ => .plain true
  | .bucketFill _ _ _ => .plain true
  | .queueCloseWake _ => .plain true
  | .queueHeaderRevalidate _ => .plain true
  | .queueWaiterServe _ _ => .plain true
  | .stealOptimistic _ _ => .plain true
  | .stealLocked _ _ => .plain true
  | .evconsWrite _ => .plain true
  | .leaseExpiry _ => .plain true
  | .reqs _ _ => .plain true
  | .reqm _ _ => .plain true
  | .data _ _ => .plain true
  | .forward _ _ => .plain true
  | .inv _ _ => .plain true
  | .invAck _ _ => .plain true
  | .recall _ _ => .plain true
  | .cleanEvict _ _ => .plain true
  | .wbdata _ _ => .plain true
  | .snoopFilterEviction _ => .plain true
  | .snpinv _ => .plain true
  | .snpdata _ => .plain true
  | .birsp _ _ => .plain true
  | .hostAtomicHelperCas _ _ _ _ => .plain true
  | .hostAccess _ _ _ => .plain true
  | .translationWalk _ _ _ => .plain true
  | .sideLogReplay _ => .plain true
  | .genRefusalRetry _ _ _ => .plain true
  | .moveCopyStep _ => .plain true
  | .frespMapped _ => .plain true
  | .frespDeclined _ => .plain true
  | .fltconsWrite _ => .plain true
  | .fpcmdRead => .plain true
  | .fpcmdWrite => .plain true
  | .mvdoorStart => .plain true
  | .mvdoorEnd => .plain true
  | .ctrlGo => .plain true
  | .ctrlCommit => .plain true
  | .ctrlWarmrst => .plain true
  | .plimitWrite _ => .plain true
  | .powerThrottle _ => .plain true
  | .powerRecover _ => .plain true
  | .hcfgWrite _ _ => .plain true
  | .timingWrite _ _ => .plain true
  | .registerWrite _ _ => .plain true
  | .headScanDecision _ => .plain true
  | .vblank _ => .plain true
  | .perstDeassert => .plain true
  | .recoveryBoot => .plain true
  | .recoveryProgram => .plain true
  | .recoveryBootslot => .plain true
  | .scrub _ _ _ _ => .plain true
  | .deferredReport _ _ => .plain true
  | .trapDelivery _ _ => .plain true
  | .replicaUpdate _ _ => .plain true
  | .replicaAcknowledge _ _ => .plain true
  | .cxlCacheResponse _ => .plain true

/-- Do the fields of a word meet its entry? -/
def Shape.ok (l : Limits) : Shape → Bool
  | .plain ok => ok
  | .gWord f ok cf xe d a b c =>
    ok && cfOk cf f.cf && (if f.xe then xe && f.a == 0 && !f.sa else f.xi == 0) &&
      roleOk l false f.d.toNat d && roleOk l f.sa f.a.toNat a && roleOk l f.sb f.b.toNat b && roleOk l f.sc f.c.toNat c
  | .mWord f ok cf orders d a => ok && cfOk cf f.cf && orderOk f orders && roleOk l false f.d.toNat d && roleOk l f.asc f.a.toNat a
  | .cWord f _ => f.vd.toNat < l.vregs && f.vb.toNat < l.vregs
  | .field ok _ d role => ok && roleOk l false d role

/-- Checks 4 to 6 of R83 for an instruction. [DEDUCED, log 23; DEDUCED, log 24; DEDUCED, log 35; DEDUCED, log 138] -/
def fieldsOk (l : Limits) (i : Instr) : Bool := (shapeOf i).ok l

end Sys2Proof.Machine
end

