-- ==== Sys2Proof/WellFormed.lean ====
section
/-! DEFINITION. Well-formed instructions: every field holds a value that some wave of some group could execute
(checks 4 to 6 of R83, with the widest ranges of R16 and R20). -/

namespace Sys2Proof

/-- The instruction passes checks 4 to 6 of R83 for the widest launch. -/
abbrev WellFormed (i : Instr) : Prop := Machine.fieldsOk Machine.Limits.most i = true

/-- The instruction has words: it is one that a wave fetches, not a step of another agent. -/
abbrev HasWords (i : Instr) : Prop := (Machine.insLen i != 0) = true

end Sys2Proof
end

