-- ==== Sys2Proof/Decode.lean ====
section
/-! DEFINITION. Decoding, total on any bytes and rejecting by name (R63, R67 to R86), and after it the encoder, from
the same tables. -/

namespace Sys2Proof

/-- Why bytes are not an instruction. -/
inductive DecodeError where
  /-- The bytes end before the instruction does. -/
  | tooShort
  /-- The opcode names no instruction of this length: ILLEGAL_OPCODE (R83 check 1). -/
  | illegalOpcode
  /-- A field holds a value that no wave may execute: ILLEGAL_OPERAND, after checks 2 and 3 (R83 checks 4 to 6). The
  instruction as its fields read. -/
  | illegalOperand (i : Instr)
  deriving DecidableEq, Repr

/-! ### The fields of a word (R71 to R80) -/

/-- C16 (R71). -/
def readC16 (w : BitVec 16) : C16 :=
  { vb := w.extractLsb' 11 5, vd := w.extractLsb' 6 5, d4 := w.getLsbD 1 }

/-- K32 (R73). -/
def readK32 (w : BitVec 32) : K32 :=
  { imm := w.extractLsb' 21 11, d := w.extractLsb' 13 8, dist := w.extractLsb' 2 3 }

/-- B32 (R74). -/
def readB32 (w : BitVec 32) : B32 := { off := w.extractLsb' 13 19, dist := w.extractLsb' 2 3 }

/-- REP (R79). -/
def readRep (w : BitVec 32) : Rep :=
  { stc := w.extractLsb' 25 2, stb := w.extractLsb' 23 2, sta := w.extractLsb' 21 2, std := w.extractLsb' 19 2,
    cnt := w.extractLsb' 13 6, dist := w.extractLsb' 2 3 }

/-- PBLK (R80). -/
def readPblk (w : BitVec 32) : Pblk :=
  { sense := w.getLsbD 27, cm := w.extractLsb' 24 3, pat := w.extractLsb' 16 8, cnt := w.extractLsb' 13 3,
    dist := w.extractLsb' 2 3 }

/-- L64 (R75). -/
def readL64 (w : BitVec 64) : L64 :=
  { imm := w.extractLsb' 32 32, sub7 := w.extractLsb' 25 7, d := w.extractLsb' 17 8, cf := w.extractLsb' 5 4,
    dist := w.extractLsb' 2 3 }

/-- G64 and T64 (R76, R78). -/
def readG64 (w : BitVec 64) : G64 :=
  { xe := w.getLsbD 63, xi := w.extractLsb' 60 3, sub := w.extractLsb' 56 4, mod := w.extractLsb' 52 4,
    sc := w.getLsbD 51, sb := w.getLsbD 50, sa := w.getLsbD 49, c := w.extractLsb' 41 8, b := w.extractLsb' 33 8,
    a := w.extractLsb' 25 8, d := w.extractLsb' 17 8, cf := w.extractLsb' 5 4, dist := w.extractLsb' 2 3 }

/-- M64 (R77). -/
def readM64 (w : BitVec 64) : M64 :=
  { imm := w.extractLsb' 50 14, aop := w.extractLsb' 46 4, size := w.extractLsb' 43 3, order := w.extractLsb' 40 3,
    scope := w.extractLsb' 37 3, asc := w.getLsbD 36, tr := w.extractLsb' 33 3, a := w.extractLsb' 25 8,
    d := w.extractLsb' 17 8, cf := w.extractLsb' 5 4, dist := w.extractLsb' 2 3 }

/-! ### The opcode map (R72, R82) -/

/-- The compact index of R72. -/
def byCix (n : Nat) (f : C16) : Option Instr :=
  match n with
  | 1 => some (.vaddC16 f)
  | 2 => some (.vsubC16 f)
  | 3 => some (.vmulC16 f)
  | 4 => some (.vandC16 f)
  | 5 => some (.vorC16 f)
  | 6 => some (.vxorC16 f)
  | 7 => some (.vshlC16 f)
  | 8 => some (.vshrC16 f)
  | 9 => some (.vminC16 f)
  | 10 => some (.vmaxC16 f)
  | 11 => some (.faddC16 f)
  | 12 => some (.fsubC16 f)
  | 13 => some (.fmulC16 f)
  | 14 => some (.fminC16 f)
  | 15 => some (.fmaxC16 f)
  | 0 => some (.vmovC16 f)
  | _ => none

/-- The 32-bit forms of R82. -/
def byOp32 (op : Nat) (w : BitVec 32) : Option Instr :=
  match op with
  | 0x00 => some (.nopK32 (readK32 w))
  | 0x02 => some (.smoviK32 (readK32 w))
  | 0x03 => some (.saddK32 (readK32 w))
  | 0x04 => some (.ssubK32 (readK32 w))
  | 0x05 => some (.smulK32 (readK32 w))
  | 0x07 => some (.sandK32 (readK32 w))
  | 0x08 => some (.sorK32 (readK32 w))
  | 0x09 => some (.sxorK32 (readK32 w))
  | 0x0A => some (.sshlK32 (readK32 w))
  | 0x0B => some (.sshrK32 (readK32 w))
  | 0x0C => some (.scmpK32 (readK32 w))
  | 0x10 => some (.braB32 (readB32 w))
  | 0x11 => some (.brcB32 (readB32 w))
  | 0x12 => some (.brmB32 (readB32 w))
  | 0x13 => some (.callB32 (readB32 w))
  | 0x14 => some (.ret (readK32 w))
  | 0x15 => some (.jmpi (readK32 w))
  | 0x19 => some (.srd (readK32 w))
  | 0x1A => some (.swr (readK32 w))
  | 0x1C => some (.bart (readK32 w))
  | 0x1E => some (.exit (readK32 w))
  | 0x1F => some (.yield (readK32 w))
  | 0x20 => some (.vaddK32 (readK32 w))
  | 0x21 => some (.vsubK32 (readK32 w))
  | 0x25 => some (.vandK32 (readK32 w))
  | 0x26 => some (.vorK32 (readK32 w))
  | 0x27 => some (.vxorK32 (readK32 w))
  | 0x2F => some (.vcmpiK32 (readK32 w))
  | 0x4E => some (.vmoviK32 (readK32 w))
  | 0x6A => some (.laclr (readK32 w))
  | 0x71 => some (.fnfree (readK32 w))
  | 0x8F => some (.cpcommit (readK32 w))
  | 0x93 => some (.cwprd (readK32 w))
  | 0x9F => some (.fetchw (readK32 w))
  | 0xB8 => some (.rep (readRep w))
  | 0xB9 => some (.pblk (readPblk w))
  | 0xBA => some (.trap (readK32 w))
  | 0xBB => some (.rte (readK32 w))
  | 0xBC => some (.prd (readK32 w))
  | 0xBD => some (.pwr (readK32 w))
  | 0xBE => some (.bkpt (readK32 w))
  | 0xBF => some (.logev (readK32 w))
  | _ => none

/-- The 64-bit forms of R82. -/
def byOp64 (op : Nat) (w : BitVec 64) : Option Instr :=
  match op with
  | 0x00 => some (.nopL64 (readL64 w))
  | 0x01 => some (.smov (readG64 w))
  | 0x02 => some (.smoviL64 (readL64 w))
  | 0x03 => some (.saddG64 (readG64 w))
  | 0x04 => some (.ssubG64 (readG64 w))
  | 0x05 => some (.smulG64 (readG64 w))
  | 0x06 => some (.smulh (readG64 w))
  | 0x07 => some (.sandG64 (readG64 w))
  | 0x08 => some (.sorG64 (readG64 w))
  | 0x09 => some (.sxorG64 (readG64 w))
  | 0x0A => some (.sshlG64 (readG64 w))
  | 0x0B => some (.sshrG64 (readG64 w))
  | 0x0C => some (.scmpL64 (readL64 w))
  | 0x0D => some (.ssel (readG64 w))
  | 0x0E => some (.sminmax (readG64 w))
  | 0x0F => some (.sbfx (readG64 w))
  | 0x10 => some (.braL64 (readL64 w))
  | 0x11 => some (.brcL64 (readL64 w))
  | 0x12 => some (.brmL64 (readL64 w))
  | 0x13 => some (.callL64 (readL64 w))
  | 0x16 => some (.mlog (readG64 w))
  | 0x17 => some (.mmov (readG64 w))
  | 0x18 => some (.mcnt (readG64 w))
  | 0x1B => some (.wait (readL64 w))
  | 0x1D => some (.loop (readL64 w))
  | 0x20 => some (.vaddG64 (readG64 w))
  | 0x21 => some (.vsubG64 (readG64 w))
  | 0x22 => some (.vmul (readG64 w))
  | 0x23 => some (.vmulh (readG64 w))
  | 0x24 => some (.vmad (readG64 w))
  | 0x25 => some (.vandG64 (readG64 w))
  | 0x26 => some (.vorG64 (readG64 w))
  | 0x27 => some (.vxorG64 (readG64 w))
  | 0x28 => some (.vshl (readG64 w))
  | 0x29 => some (.vshr (readG64 w))
  | 0x2A => some (.vmin (readG64 w))
  | 0x2B => some (.vmax (readG64 w))
  | 0x2C => some (.vbfx (readG64 w))
  | 0x2D => some (.vpopc (readG64 w))
  | 0x2E => some (.vsel (readG64 w))
  | 0x2F => some (.vcmpiG64 (readG64 w))
  | 0x30 => some (.fadd (readG64 w))
  | 0x31 => some (.fsub (readG64 w))
  | 0x32 => some (.fmul (readG64 w))
  | 0x33 => some (.ffma (readG64 w))
  | 0x34 => some (.fmin (readG64 w))
  | 0x35 => some (.fmax (readG64 w))
  | 0x36 => some (.fcmp (readG64 w))
  | 0x37 => some (.fclass (readG64 w))
  | 0x38 => some (.frnd (readG64 w))
  | 0x39 => some (.fmed3 (readG64 w))
  | 0x3A => some (.flerp (readG64 w))
  | 0x3B => some (.fdot2 (readG64 w))
  | 0x3C => some (.fpk (readG64 w))
  | 0x3D => some (.hadd2 (readG64 w))
  | 0x3E => some (.hmul2 (readG64 w))
  | 0x3F => some (.hfma2 (readG64 w))
  | 0x40 => some (.cvt (readG64 w))
  | 0x41 => some (.cvtq (readG64 w))
  | 0x42 => some (.frcp (readG64 w))
  | 0x43 => some (.frsq (readG64 w))
  | 0x44 => some (.fsqrt (readG64 w))
  | 0x45 => some (.flog2 (readG64 w))
  | 0x46 => some (.fexp2 (readG64 w))
  | 0x47 => some (.fsin (readG64 w))
  | 0x48 => some (.fcos (readG64 w))
  | 0x49 => some (.ftanh (readG64 w))
  | 0x4A => some (.fdiv (readG64 w))
  | 0x4B => some (.idiv (readG64 w))
  | 0x4C => some (.vrand (readG64 w))
  | 0x4D => some (.vsobol (readG64 w))
  | 0x4E => some (.vmoviL64 (readL64 w))
  | 0x4F => some (.vmov (readG64 w))
  | 0x50 => some (.vmovx (readG64 w))
  | 0x51 => some (.xset (readG64 w))
  | 0x52 => some (.xbnd (readL64 w))
  | 0x53 => some (.vtrn (readG64 w))
  | 0x54 => some (.vpack (readG64 w))
  | 0x55 => some (.vunpk (readG64 w))
  | 0x56 => some (.vbyte (readG64 w))
  | 0x57 => some (.vext (readG64 w))
  | 0x58 => some (.vins (readG64 w))
  | 0x59 => some (.vaddc (readG64 w))
  | 0x5A => some (.vsubb (readG64 w))
  | 0x5B => some (.vmul64 (readG64 w))
  | 0x5C => some (.vshl64 (readG64 w))
  | 0x5D => some (.vshr64 (readG64 w))
  | 0x5E => some (.vcmp64 (readG64 w))
  | 0x5F => some (.vabsd (readG64 w))
  | 0x60 => some (.shfl (readG64 w))
  | 0x61 => some (.vote (readG64 w))
  | 0x62 => some (.ballot (readG64 w))
  | 0x63 => some (.matchLanes (readG64 w))
  | 0x64 => some (.red (readG64 w))
  | 0x65 => some (.scan (readG64 w))
  | 0x66 => some (.fred (readG64 w))
  | 0x67 => some (.bcast (readG64 w))
  | 0x68 => some (.qswz (readG64 w))
  | 0x69 => some (.vcompact (readG64 w))
  | 0x6B => some (.laadd (readG64 w))
  | 0x6C => some (.lafma (readG64 w))
  | 0x6D => some (.lard (readG64 w))
  | 0x6E => some (.lasave (readG64 w))
  | 0x6F => some (.larst (readG64 w))
  | 0x70 => some (.fndef (readG64 w))
  | 0x72 => some (.fnfit (readG64 w))
  | 0x73 => some (.fnld (readG64 w))
  | 0x74 => some (.fnst (readG64 w))
  | 0x75 => some (.fnadd (readG64 w))
  | 0x76 => some (.fnmul (readG64 w))
  | 0x77 => some (.fnscl (readG64 w))
  | 0x78 => some (.fncomp (readG64 w))
  | 0x79 => some (.fnint (readG64 w))
  | 0x7A => some (.fnder (readG64 w))
  | 0x7B => some (.fneval (readG64 w))
  | 0x7C => some (.fnroot (readG64 w))
  | 0x7D => some (.fnext (readG64 w))
  | 0x7E => some (.fnrestr (readG64 w))
  | 0x7F => some (.fncoef (readG64 w))
  | 0x80 => some (.ld (readM64 w))
  | 0x81 => some (.st (readM64 w))
  | 0x82 => some (.lds (readM64 w))
  | 0x83 => some (.sts (readM64 w))
  | 0x84 => some (.ldk (readM64 w))
  | 0x85 => some (.atom (readM64 w))
  | 0x86 => some (.atomn (readM64 w))
  | 0x87 => some (.atoms (readM64 w))
  | 0x88 => some (.cas (readM64 w))
  | 0x89 => some (.fence (readM64 w))
  | 0x8A => some (.trans (readM64 w))
  | 0x8B => some (.trinv (readM64 w))
  | 0x8C => some (.pref (readM64 w))
  | 0x8D => some (.cache (readM64 w))
  | 0x8E => some (.cpa (readM64 w))
  | 0x90 => some (.cpb (readM64 w))
  | 0x91 => some (.cpr (readM64 w))
  | 0x92 => some (.cpsm (readM64 w))
  | 0x94 => some (.binit (readM64 w))
  | 0x95 => some (.barr (readM64 w))
  | 0x96 => some (.bwait (readM64 w))
  | 0x97 => some (.bexp (readM64 w))
  | 0x98 => some (.seal (readM64 w))
  | 0x99 => some (.unseal (readM64 w))
  | 0x9A => some (.worel (readM64 w))
  | 0x9B => some (.smap (readM64 w))
  | 0x9C => some (.sunmap (readM64 w))
  | 0x9D => some (.enq (readM64 w))
  | 0x9E => some (.deq (readM64 w))
  | 0xA0 => some (.tcfg (readG64 w))
  | 0xA1 => some (.tld (readG64 w))
  | 0xA2 => some (.tst (readG64 w))
  | 0xA3 => some (.tzero (readG64 w))
  | 0xA4 => some (.tmovv (readG64 w))
  | 0xA5 => some (.vmovt (readG64 w))
  | 0xA6 => some (.mma (readG64 w))
  | 0xA7 => some (.mmas (readG64 w))
  | 0xA8 => some (.mmat (readG64 w))
  | 0xA9 => some (.mmax (readG64 w))
  | 0xAA => some (.accld (readG64 w))
  | 0xAB => some (.accst (readG64 w))
  | 0xAC => some (.accq (readG64 w))
  | 0xAD => some (.ttrl (readG64 w))
  | 0xAE => some (.tscl (readG64 w))
  | 0xAF => some (.txp (readG64 w))
  | 0xB0 => some (.dice (readG64 w))
  | 0xB1 => some (.gridacq (readG64 w))
  | 0xB2 => some (.gridrel (readG64 w))
  | 0xB3 => some (.rast (readG64 w))
  | 0xB4 => some (.rayq (readG64 w))
  | 0xB5 => some (.rayrd (readG64 w))
  | 0xB6 => some (.bkt (readG64 w))
  | 0xB7 => some (.spill (readG64 w))
  | _ => none

/-- Reserved bits that no field of the form holds: those of REP and PBLK (R79, R80). -/
def reservedBits (op : Nat) (w : BitVec 32) : Bool :=
  (op == 0xB8 && w.extractLsb' 27 5 != 0) || (op == 0xB9 && w.extractLsb' 28 4 != 0)

/-- An instruction whose fields have been read, unless a field rules it out. -/
def accept (bad : Bool) (i : Instr) (rest : List Byte) : Except DecodeError (Instr × List Byte) :=
  if bad || !Machine.fieldsOk Machine.Limits.most i then .error (.illegalOperand i) else .ok (i, rest)

/-- Decodes the instruction at the front of `bs`: its length from the lowest bits (R67), its opcode and form, its
fields; the rest of the bytes. [DEDUCED, log 129] -/
def decode (bs : List Byte) : Except DecodeError (Instr × List Byte) :=
  match bs with
  | b0 :: b1 :: r2 =>
    if !b0.getLsbD 0 then
      let w := b1 ++ b0
      match byCix (w.extractLsb' 2 4).toNat (readC16 w) with
      | some i => accept false i r2
      | none => .error .illegalOpcode
    else
      match r2 with
      | b2 :: b3 :: r4 =>
        if !b0.getLsbD 1 then
          let w := b3 ++ b2 ++ b1 ++ b0
          let op := (w.extractLsb' 5 8).toNat
          match byOp32 op w with
          | some i => accept (reservedBits op w) i r4
          | none => .error .illegalOpcode
        else
          match r4 with
          | b4 :: b5 :: b6 :: b7 :: r8 =>
            let w := b7 ++ b6 ++ b5 ++ b4 ++ b3 ++ b2 ++ b1 ++ b0
            match byOp64 (w.extractLsb' 9 8).toNat w with
            | some i => accept false i r8
            | none => .error .illegalOpcode
          | _ => .error .tooShort
      | _ => .error .tooShort
  | _ => .error .tooShort

/-- The number of bytes that the lowest bits of the first byte give (R67). -/
def lengthOf (b0 : Byte) : Nat := if !b0.getLsbD 0 then 2 else if !b0.getLsbD 1 then 4 else 8

/-- The instruction that the decoder reads from a word whose bits are `w`, `nbits` of them, the bits above being 0. -/
def decodeTableWord (nbits w : Nat) : Option Instr :=
  match decode (Machine.toBytes (w % 2 ^ nbits) 8) with
  | .ok (i, _) => some i
  | .error _ => none

/-! ### Encoding -/

/-- A Boolean as a field of one bit. -/
def bit1 (b : Bool) : BitVec 1 := BitVec.ofBool b

/-- The word of a C16 instruction (R71). -/
def wordC16 (cix : Nat) (f : C16) : BitVec 16 := f.vb ++ f.vd ++ BitVec.ofNat 4 cix ++ bit1 f.d4 ++ 0#1

/-- The word of a K32 instruction (R73). -/
def wordK32 (op : Nat) (f : K32) : BitVec 32 := f.imm ++ f.d ++ BitVec.ofNat 8 op ++ f.dist ++ 1#2

/-- The word of a B32 instruction (R74). -/
def wordB32 (op : Nat) (f : B32) : BitVec 32 := f.off ++ BitVec.ofNat 8 op ++ f.dist ++ 1#2

/-- The word of REP (R79). -/
def wordRep (f : Rep) : BitVec 32 :=
  0#5 ++ f.stc ++ f.stb ++ f.sta ++ f.std ++ f.cnt ++ 0xB8#8 ++ f.dist ++ 1#2

/-- The word of PBLK (R80). -/
def wordPblk (f : Pblk) : BitVec 32 :=
  0#4 ++ bit1 f.sense ++ f.cm ++ f.pat ++ f.cnt ++ 0xB9#8 ++ f.dist ++ 1#2

/-- The word of an L64 instruction (R75). -/
def wordL64 (op : Nat) (f : L64) : BitVec 64 :=
  f.imm ++ f.sub7 ++ f.d ++ BitVec.ofNat 8 op ++ f.cf ++ f.dist ++ 3#2

/-- The word of a G64 or T64 instruction (R76). -/
def wordG64 (op : Nat) (f : G64) : BitVec 64 :=
  bit1 f.xe ++ f.xi ++ f.sub ++ f.mod ++ bit1 f.sc ++ bit1 f.sb ++ bit1 f.sa ++ f.c ++ f.b ++ f.a ++ f.d ++
    BitVec.ofNat 8 op ++ f.cf ++ f.dist ++ 3#2

/-- The word of an M64 instruction (R77). -/
def wordM64 (op : Nat) (f : M64) : BitVec 64 :=
  f.imm ++ f.aop ++ f.size ++ f.order ++ f.scope ++ bit1 f.asc ++ f.tr ++ f.a ++ f.d ++ BitVec.ofNat 8 op ++
    f.cf ++ f.dist ++ 3#2

/-- The bytes of a word in memory, lowest first (R63). -/
def bytes16 (w : BitVec 16) : List Byte := [w.extractLsb' 0 8, w.extractLsb' 8 8]
/-- The bytes of a 32-bit word. -/
def bytes32 (w : BitVec 32) : List Byte :=
  [w.extractLsb' 0 8, w.extractLsb' 8 8, w.extractLsb' 16 8, w.extractLsb' 24 8]
/-- The bytes of a 64-bit word. -/
def bytes64 (w : BitVec 64) : List Byte :=
  [w.extractLsb' 0 8, w.extractLsb' 8 8, w.extractLsb' 16 8, w.extractLsb' 24 8, w.extractLsb' 32 8,
   w.extractLsb' 40 8, w.extractLsb' 48 8, w.extractLsb' 56 8]

/-- The bytes of an instruction; a step of another agent has none. -/
def encode (i : Instr) : List Byte :=
  match i with
  | .nopK32 f => bytes32 (wordK32 0x00 f)
  | .nopL64 f => bytes64 (wordL64 0x00 f)
  | .smov f => bytes64 (wordG64 0x01 f)
  | .smoviK32 f => bytes32 (wordK32 0x02 f)
  | .smoviL64 f => bytes64 (wordL64 0x02 f)
  | .saddK32 f => bytes32 (wordK32 0x03 f)
  | .saddG64 f => bytes64 (wordG64 0x03 f)
  | .ssubK32 f => bytes32 (wordK32 0x04 f)
  | .ssubG64 f => bytes64 (wordG64 0x04 f)
  | .smulK32 f => bytes32 (wordK32 0x05 f)
  | .smulG64 f => bytes64 (wordG64 0x05 f)
  | .smulh f => bytes64 (wordG64 0x06 f)
  | .sandK32 f => bytes32 (wordK32 0x07 f)
  | .sandG64 f => bytes64 (wordG64 0x07 f)
  | .sorK32 f => bytes32 (wordK32 0x08 f)
  | .sorG64 f => bytes64 (wordG64 0x08 f)
  | .sxorK32 f => bytes32 (wordK32 0x09 f)
  | .sxorG64 f => bytes64 (wordG64 0x09 f)
  | .sshlK32 f => bytes32 (wordK32 0x0A f)
  | .sshlG64 f => bytes64 (wordG64 0x0A f)
  | .sshrK32 f => bytes32 (wordK32 0x0B f)
  | .sshrG64 f => bytes64 (wordG64 0x0B f)
  | .scmpK32 f => bytes32 (wordK32 0x0C f)
  | .scmpL64 f => bytes64 (wordL64 0x0C f)
  | .ssel f => bytes64 (wordG64 0x0D f)
  | .sminmax f => bytes64 (wordG64 0x0E f)
  | .sbfx f => bytes64 (wordG64 0x0F f)
  | .braB32 f => bytes32 (wordB32 0x10 f)
  | .braL64 f => bytes64 (wordL64 0x10 f)
  | .brcB32 f => bytes32 (wordB32 0x11 f)
  | .brcL64 f => bytes64 (wordL64 0x11 f)
  | .brmB32 f => bytes32 (wordB32 0x12 f)
  | .brmL64 f => bytes64 (wordL64 0x12 f)
  | .callB32 f => bytes32 (wordB32 0x13 f)
  | .callL64 f => bytes64 (wordL64 0x13 f)
  | .ret f => bytes32 (wordK32 0x14 f)
  | .jmpi f => bytes32 (wordK32 0x15 f)
  | .mlog f => bytes64 (wordG64 0x16 f)
  | .mmov f => bytes64 (wordG64 0x17 f)
  | .mcnt f => bytes64 (wordG64 0x18 f)
  | .srd f => bytes32 (wordK32 0x19 f)
  | .swr f => bytes32 (wordK32 0x1A f)
  | .wait f => bytes64 (wordL64 0x1B f)
  | .bart f => bytes32 (wordK32 0x1C f)
  | .loop f => bytes64 (wordL64 0x1D f)
  | .exit f => bytes32 (wordK32 0x1E f)
  | .yield f => bytes32 (wordK32 0x1F f)
  | .vaddK32 f => bytes32 (wordK32 0x20 f)
  | .vaddG64 f => bytes64 (wordG64 0x20 f)
  | .vaddC16 f => bytes16 (wordC16 1 f)
  | .vsubK32 f => bytes32 (wordK32 0x21 f)
  | .vsubG64 f => bytes64 (wordG64 0x21 f)
  | .vsubC16 f => bytes16 (wordC16 2 f)
  | .vmul f => bytes64 (wordG64 0x22 f)
  | .vmulC16 f => bytes16 (wordC16 3 f)
  | .vmulh f => bytes64 (wordG64 0x23 f)
  | .vmad f => bytes64 (wordG64 0x24 f)
  | .vandK32 f => bytes32 (wordK32 0x25 f)
  | .vandG64 f => bytes64 (wordG64 0x25 f)
  | .vandC16 f => bytes16 (wordC16 4 f)
  | .vorK32 f => bytes32 (wordK32 0x26 f)
  | .vorG64 f => bytes64 (wordG64 0x26 f)
  | .vorC16 f => bytes16 (wordC16 5 f)
  | .vxorK32 f => bytes32 (wordK32 0x27 f)
  | .vxorG64 f => bytes64 (wordG64 0x27 f)
  | .vxorC16 f => bytes16 (wordC16 6 f)
  | .vshl f => bytes64 (wordG64 0x28 f)
  | .vshlC16 f => bytes16 (wordC16 7 f)
  | .vshr f => bytes64 (wordG64 0x29 f)
  | .vshrC16 f => bytes16 (wordC16 8 f)
  | .vmin f => bytes64 (wordG64 0x2A f)
  | .vminC16 f => bytes16 (wordC16 9 f)
  | .vmax f => bytes64 (wordG64 0x2B f)
  | .vmaxC16 f => bytes16 (wordC16 10 f)
  | .vbfx f => bytes64 (wordG64 0x2C f)
  | .vpopc f => bytes64 (wordG64 0x2D f)
  | .vsel f => bytes64 (wordG64 0x2E f)
  | .vcmpiK32 f => bytes32 (wordK32 0x2F f)
  | .vcmpiG64 f => bytes64 (wordG64 0x2F f)
  | .fadd f => bytes64 (wordG64 0x30 f)
  | .faddC16 f => bytes16 (wordC16 11 f)
  | .fsub f => bytes64 (wordG64 0x31 f)
  | .fsubC16 f => bytes16 (wordC16 12 f)
  | .fmul f => bytes64 (wordG64 0x32 f)
  | .fmulC16 f => bytes16 (wordC16 13 f)
  | .ffma f => bytes64 (wordG64 0x33 f)
  | .fmin f => bytes64 (wordG64 0x34 f)
  | .fminC16 f => bytes16 (wordC16 14 f)
  | .fmax f => bytes64 (wordG64 0x35 f)
  | .fmaxC16 f => bytes16 (wordC16 15 f)
  | .fcmp f => bytes64 (wordG64 0x36 f)
  | .fclass f => bytes64 (wordG64 0x37 f)
  | .frnd f => bytes64 (wordG64 0x38 f)
  | .fmed3 f => bytes64 (wordG64 0x39 f)
  | .flerp f => bytes64 (wordG64 0x3A f)
  | .fdot2 f => bytes64 (wordG64 0x3B f)
  | .fpk f => bytes64 (wordG64 0x3C f)
  | .hadd2 f => bytes64 (wordG64 0x3D f)
  | .hmul2 f => bytes64 (wordG64 0x3E f)
  | .hfma2 f => bytes64 (wordG64 0x3F f)
  | .cvt f => bytes64 (wordG64 0x40 f)
  | .cvtq f => bytes64 (wordG64 0x41 f)
  | .frcp f => bytes64 (wordG64 0x42 f)
  | .frsq f => bytes64 (wordG64 0x43 f)
  | .fsqrt f => bytes64 (wordG64 0x44 f)
  | .flog2 f => bytes64 (wordG64 0x45 f)
  | .fexp2 f => bytes64 (wordG64 0x46 f)
  | .fsin f => bytes64 (wordG64 0x47 f)
  | .fcos f => bytes64 (wordG64 0x48 f)
  | .ftanh f => bytes64 (wordG64 0x49 f)
  | .fdiv f => bytes64 (wordG64 0x4A f)
  | .idiv f => bytes64 (wordG64 0x4B f)
  | .vrand f => bytes64 (wordG64 0x4C f)
  | .vsobol f => bytes64 (wordG64 0x4D f)
  | .vmoviK32 f => bytes32 (wordK32 0x4E f)
  | .vmoviL64 f => bytes64 (wordL64 0x4E f)
  | .vmov f => bytes64 (wordG64 0x4F f)
  | .vmovC16 f => bytes16 (wordC16 0 f)
  | .vmovx f => bytes64 (wordG64 0x50 f)
  | .xset f => bytes64 (wordG64 0x51 f)
  | .xbnd f => bytes64 (wordL64 0x52 f)
  | .vtrn f => bytes64 (wordG64 0x53 f)
  | .vpack f => bytes64 (wordG64 0x54 f)
  | .vunpk f => bytes64 (wordG64 0x55 f)
  | .vbyte f => bytes64 (wordG64 0x56 f)
  | .vext f => bytes64 (wordG64 0x57 f)
  | .vins f => bytes64 (wordG64 0x58 f)
  | .vaddc f => bytes64 (wordG64 0x59 f)
  | .vsubb f => bytes64 (wordG64 0x5A f)
  | .vmul64 f => bytes64 (wordG64 0x5B f)
  | .vshl64 f => bytes64 (wordG64 0x5C f)
  | .vshr64 f => bytes64 (wordG64 0x5D f)
  | .vcmp64 f => bytes64 (wordG64 0x5E f)
  | .vabsd f => bytes64 (wordG64 0x5F f)
  | .shfl f => bytes64 (wordG64 0x60 f)
  | .vote f => bytes64 (wordG64 0x61 f)
  | .ballot f => bytes64 (wordG64 0x62 f)
  | .matchLanes f => bytes64 (wordG64 0x63 f)
  | .red f => bytes64 (wordG64 0x64 f)
  | .scan f => bytes64 (wordG64 0x65 f)
  | .fred f => bytes64 (wordG64 0x66 f)
  | .bcast f => bytes64 (wordG64 0x67 f)
  | .qswz f => bytes64 (wordG64 0x68 f)
  | .vcompact f => bytes64 (wordG64 0x69 f)
  | .laclr f => bytes32 (wordK32 0x6A f)
  | .laadd f => bytes64 (wordG64 0x6B f)
  | .lafma f => bytes64 (wordG64 0x6C f)
  | .lard f => bytes64 (wordG64 0x6D f)
  | .lasave f => bytes64 (wordG64 0x6E f)
  | .larst f => bytes64 (wordG64 0x6F f)
  | .fndef f => bytes64 (wordG64 0x70 f)
  | .fnfree f => bytes32 (wordK32 0x71 f)
  | .fnfit f => bytes64 (wordG64 0x72 f)
  | .fnld f => bytes64 (wordG64 0x73 f)
  | .fnst f => bytes64 (wordG64 0x74 f)
  | .fnadd f => bytes64 (wordG64 0x75 f)
  | .fnmul f => bytes64 (wordG64 0x76 f)
  | .fnscl f => bytes64 (wordG64 0x77 f)
  | .fncomp f => bytes64 (wordG64 0x78 f)
  | .fnint f => bytes64 (wordG64 0x79 f)
  | .fnder f => bytes64 (wordG64 0x7A f)
  | .fneval f => bytes64 (wordG64 0x7B f)
  | .fnroot f => bytes64 (wordG64 0x7C f)
  | .fnext f => bytes64 (wordG64 0x7D f)
  | .fnrestr f => bytes64 (wordG64 0x7E f)
  | .fncoef f => bytes64 (wordG64 0x7F f)
  | .ld f => bytes64 (wordM64 0x80 f)
  | .st f => bytes64 (wordM64 0x81 f)
  | .lds f => bytes64 (wordM64 0x82 f)
  | .sts f => bytes64 (wordM64 0x83 f)
  | .ldk f => bytes64 (wordM64 0x84 f)
  | .atom f => bytes64 (wordM64 0x85 f)
  | .atomn f => bytes64 (wordM64 0x86 f)
  | .atoms f => bytes64 (wordM64 0x87 f)
  | .cas f => bytes64 (wordM64 0x88 f)
  | .fence f => bytes64 (wordM64 0x89 f)
  | .trans f => bytes64 (wordM64 0x8A f)
  | .trinv f => bytes64 (wordM64 0x8B f)
  | .pref f => bytes64 (wordM64 0x8C f)
  | .cache f => bytes64 (wordM64 0x8D f)
  | .cpa f => bytes64 (wordM64 0x8E f)
  | .cpcommit f => bytes32 (wordK32 0x8F f)
  | .cpb f => bytes64 (wordM64 0x90 f)
  | .cpr f => bytes64 (wordM64 0x91 f)
  | .cpsm f => bytes64 (wordM64 0x92 f)
  | .cwprd f => bytes32 (wordK32 0x93 f)
  | .binit f => bytes64 (wordM64 0x94 f)
  | .barr f => bytes64 (wordM64 0x95 f)
  | .bwait f => bytes64 (wordM64 0x96 f)
  | .bexp f => bytes64 (wordM64 0x97 f)
  | .seal f => bytes64 (wordM64 0x98 f)
  | .unseal f => bytes64 (wordM64 0x99 f)
  | .worel f => bytes64 (wordM64 0x9A f)
  | .smap f => bytes64 (wordM64 0x9B f)
  | .sunmap f => bytes64 (wordM64 0x9C f)
  | .enq f => bytes64 (wordM64 0x9D f)
  | .deq f => bytes64 (wordM64 0x9E f)
  | .fetchw f => bytes32 (wordK32 0x9F f)
  | .tcfg f => bytes64 (wordG64 0xA0 f)
  | .tld f => bytes64 (wordG64 0xA1 f)
  | .tst f => bytes64 (wordG64 0xA2 f)
  | .tzero f => bytes64 (wordG64 0xA3 f)
  | .tmovv f => bytes64 (wordG64 0xA4 f)
  | .vmovt f => bytes64 (wordG64 0xA5 f)
  | .mma f => bytes64 (wordG64 0xA6 f)
  | .mmas f => bytes64 (wordG64 0xA7 f)
  | .mmat f => bytes64 (wordG64 0xA8 f)
  | .mmax f => bytes64 (wordG64 0xA9 f)
  | .accld f => bytes64 (wordG64 0xAA f)
  | .accst f => bytes64 (wordG64 0xAB f)
  | .accq f => bytes64 (wordG64 0xAC f)
  | .ttrl f => bytes64 (wordG64 0xAD f)
  | .tscl f => bytes64 (wordG64 0xAE f)
  | .txp f => bytes64 (wordG64 0xAF f)
  | .dice f => bytes64 (wordG64 0xB0 f)
  | .gridacq f => bytes64 (wordG64 0xB1 f)
  | .gridrel f => bytes64 (wordG64 0xB2 f)
  | .rast f => bytes64 (wordG64 0xB3 f)
  | .rayq f => bytes64 (wordG64 0xB4 f)
  | .rayrd f => bytes64 (wordG64 0xB5 f)
  | .bkt f => bytes64 (wordG64 0xB6 f)
  | .spill f => bytes64 (wordG64 0xB7 f)
  | .rep f => bytes32 (wordRep f)
  | .pblk f => bytes32 (wordPblk f)
  | .trap f => bytes32 (wordK32 0xBA f)
  | .rte f => bytes32 (wordK32 0xBB f)
  | .prd f => bytes32 (wordK32 0xBC f)
  | .pwr f => bytes32 (wordK32 0xBD f)
  | .bkpt f => bytes32 (wordK32 0xBE f)
  | .logev f => bytes32 (wordK32 0xBF f)
  | .pipeIssue _ _ => []
  | .wavePromote _ _ => []
  | .distElapsed _ _ => []
  | .tokenGrant => []
  | .counterCompletion _ _ _ => []
  | .functionDecisionPoint _ => []
  | .matrixCompletion _ => []
  | .bartRelease _ _ => []
  | .yieldExpiry _ _ => []
  | .copyBatchComplete _ _ => []
  | .cpbByteAddition _ _ => []
  | .rastComplete _ _ _ => []
  | .rayqComplete _ _ _ => []
  | .nopPacket _ _ => []
  | .launch _ _ => []
  | .waitv _ _ => []
  | .signal _ _ => []
  | .harvest _ _ => []
  | .shootdown _ _ => []
  | .packetClaim _ _ => []
  | .parkedPacketReexamine _ _ => []
  | .parkRecheckTimer _ _ => []
  | .placementRequest _ _ => []
  | .placementGrant _ => []
  | .launchStart _ => []
  | .launchCompletion _ => []
  | .drainClockMark _ => []
  | .drainClockPreempt _ => []
  | .preemptRetry _ => []
  | .groupPreempt _ _ => []
  | .groupResume _ => []
  | .waveSlotReturn _ _ => []
  | .groupFree _ _ => []
  | .bucketFill _ _ _ => []
  | .queueCloseWake _ => []
  | .queueHeaderRevalidate _ => []
  | .queueWaiterServe _ _ => []
  | .stealOptimistic _ _ => []
  | .stealLocked _ _ => []
  | .evconsWrite _ => []
  | .leaseExpiry _ => []
  | .reqs _ _ => []
  | .reqm _ _ => []
  | .data _ _ => []
  | .forward _ _ => []
  | .inv _ _ => []
  | .invAck _ _ => []
  | .recall _ _ => []
  | .cleanEvict _ _ => []
  | .wbdata _ _ => []
  | .snoopFilterEviction _ => []
  | .snpinv _ => []
  | .snpdata _ => []
  | .birsp _ _ => []
  | .hostAtomicHelperCas _ _ _ _ => []
  | .hostAccess _ _ _ => []
  | .translationWalk _ _ _ => []
  | .sideLogReplay _ => []
  | .genRefusalRetry _ _ _ => []
  | .moveCopyStep _ => []
  | .frespMapped _ => []
  | .frespDeclined _ => []
  | .fltconsWrite _ => []
  | .fpcmdRead => []
  | .fpcmdWrite => []
  | .mvdoorStart => []
  | .mvdoorEnd => []
  | .ctrlGo => []
  | .ctrlCommit => []
  | .ctrlWarmrst => []
  | .plimitWrite _ => []
  | .powerThrottle _ => []
  | .powerRecover _ => []
  | .hcfgWrite _ _ => []
  | .timingWrite _ _ => []
  | .registerWrite _ _ => []
  | .headScanDecision _ => []
  | .vblank _ => []
  | .perstDeassert => []
  | .recoveryBoot => []
  | .recoveryProgram => []
  | .recoveryBootslot => []
  | .scrub _ _ _ _ => []
  | .deferredReport _ _ => []
  | .trapDelivery _ _ => []
  | .replicaUpdate _ _ => []
  | .replicaAcknowledge _ _ => []
  | .cxlCacheResponse _ => []

end Sys2Proof
end

