-- ==== Sys2Proof/Config.lean ====
section
/-! DEFINITION. What is fixed for the module: the counts of R2, the numbers an implementation fixes, and
the free values, opaque constants that stand for what the manual leaves open. No proof can see the value of a
free value, so a statement about one holds whatever it is. -/

namespace Sys2Proof.Config

/-- Dies of the module (R2). -/
def dies : Nat := 4
/-- Cores of one die (R2, R17). -/
def coresPerDie : Nat := 96
/-- Cores of the module (R2). -/
def cores : Nat := 384
/-- Wave slots of one core: four pipes of sixteen (R2). -/
def slotsPerCore : Nat := 64
/-- Granules of 2 KiB in one pipe's register file (R48). -/
def granulesPerPipe : Nat := 128
/-- Bytes of a core's scratchpad (R2, R241). -/
def spadBytes : Nat := 524288
/-- Bytes of a core's accumulator memory (R241). -/
def accBytes : Nat := 131072
/-- Physical tile registers of a core (R241). -/
def tileRegs : Nat := 16
/-- Bytes of one tile register (R241, R291). -/
def tileBytes : Nat := 16384
/-- Bytes of a core's sparsity side memory (R241, R282). -/
def sideBytes : Nat := 16384
/-- Entries of a core's side log (R230). -/
def sideLogEntries : Nat := 256
/-- Local offsets of a die that a page may use: 60 GiB less the 128 MiB of frame records (R207). -/
def frameLimit : Nat := 60 * 2 ^ 30 - 128 * 2 ^ 20
/-- Site offsets a page may claim: 7.5 GiB less 16 MiB (R207, R218). -/
def siteLimit : Nat := 7680 * 2 ^ 20 - 16 * 2 ^ 20

/-! ### Free values -/

/-- Whether a cached translation, code unit, constant line or walk entry is still held when it is looked up: which
entries a cache keeps is open (R65, R225, R260). The argument is the model's counter of fresh values. [DESIGN CHOICE, log 19] -/
opaque keep : Nat → Bool

/-- What VEXT reads through an index that is not checked and names no register of the wave, by a fresh number (R132). [DESIGN CHOICE, log 142] -/
opaque strayReg : Nat → Word

/-- Whether a parity error is found in a unit of a code cache that is looked up, by a fresh number (R64). [DEDUCED, log 141] -/
opaque parityError : Nat → Bool

/-- Whether the host link carries CXL.cache (R376: "When the host link is PCIe without CXL.cache"). [DESIGN CHOICE, log 115] -/
opaque cxlCache : Bool
/-- Whether the host completes PCIe AtomicOps (R377). -/
opaque pcieAtomics : Bool

/-- What a die's CLOCK is ahead of the slowest, taken modulo 16 (R118: "within 16 clocks of each other"). [DESIGN CHOICE, log 18] -/
opaque clockSkew : Nat → Nat
/-- Does the host keep a copy of a line that it reads through CXL.mem, by a fresh number (R378)? [DESIGN CHOICE, log 114] -/
opaque hostCaches : Nat → Bool
/-- Byte `i` of a half that the host sends back, where it has modified it, by a fresh number (R378). -/
opaque hostByte (n i : Nat) : Option (BitVec 8)

/-- SM3 of a list of bytes, and whether an SM2 signature verifies: key, digest, signature (R430 names these algorithms and
does not give them). [DESIGN CHOICE, log 122] -/
opaque sm3 : List (BitVec 8) → List (BitVec 8)
opaque sm2 : List (BitVec 8) → List (BitVec 8) → List (BitVec 8) → Bool
/-- The hash of the public key that is fused in die 0 (R430). -/
opaque keyHash : List (BitVec 8)
/-- What an erased byte of flash reads as (R431). -/
opaque erased : BitVec 8

/-- Does the compare-and-swap that the host-atomic helper issues succeed, by a fresh number (R377)? -/
opaque helperWins : Nat → Bool

/-- Which core's agent looks for a packet next, by a fresh number, taken modulo the number of cores (R25). [DESIGN CHOICE, log 95] -/
opaque claimer : Nat → Nat
/-- What SRD of GROUPID reads in the privileged slot, which belongs to no group, taken modulo 8 (R118). [DESIGN CHOICE, log 20] -/
opaque agentGroup : Nat

/-- What the special-function unit gives for an operand, by the function's opcode and MOD; it counts only where it
lies within the bound of R141. [DESIGN CHOICE, log 28] -/
opaque sfu (op mod : Nat) (a : Word) : Word

/-- The value FNROOT gives for the k-th root, from LO, HI and the lane's coefficients; it counts only within 2 ulp of the
root and within the interval (R203). [DESIGN CHOICE, log 38] -/
opaque fnRoot (lo hi : Word) (c : List Word) (k : Nat) : Word
/-- The point at which FNEXT evaluates, from `.min` or `.max`, LO, HI and the lane's coefficients; it counts only where
R204 allows it. [DESIGN CHOICE, log 37] -/
opaque fnPoint (least : Bool) (lo hi : Word) (c : List Word) : Word

/-- What Galena gives for a value of a hit (0 is t, 1 and 2 are b1 and b2), from the eight words of the ray and those of the
instance's matrix and of the triangle (R9); it counts only within 4 ulp of the exact value (R333). [DESIGN CHOICE, log 39] -/
opaque rayValue (i : Nat) (ray item : List Word) : Word
/-- Word `i` that a lane's query gives where a value is not finite, from the ray, `.any`, the structure's address, the records
read and, for a ray that is not finite itself, memory (R9). -/
opaque rayOdd (i : Nat) (ray : List Word) (any : Bool) (top : Nat) (seen : List (BitVec 8)) (mem : List (Nat × BitVec 8)) : Word
/-- The place of micropolygon (i, j) in the order in which a grid of NU by NV is drawn (R330). [DESIGN CHOICE, log 90] -/
opaque cellKey (nu nv i j : Nat) : Nat
/-- The set of a home slice's snoop filter to which a line belongs, by its physical address over 128, taken modulo 1,024 (R375). [DESIGN CHOICE, log 143] -/
opaque filterSet : Nat → Nat
/-- Which half the bridge cache gives up when it is full, by a fresh number, taken modulo the halves it holds (R376). [DESIGN CHOICE, log 144] -/
opaque bridgeVictim : Nat → Nat
/-- Whether an error is found in the L1 line that a load hits, by a fresh number (R252). [DESIGN CHOICE, log 145] -/
opaque l1Error : Nat → Bool
/-- Which of a core's counted copies its L1 evicts in a clock, by a fresh number: its place among them, if any (R251). [DESIGN CHOICE, log 146] -/
opaque evictLine : Nat → Option Nat
/-- Whether an access that could be performed waits for a later clock, by a fresh number (R369). -/
opaque defer : Nat → Bool

/-- Which hit `.any` reports, by a fresh number, taken modulo the number of hits (R333). -/
opaque rayPick : Nat → Nat

end Sys2Proof.Config
end

