-- ==== Sys2Proof/Machine/State.lean ====
section
/-! DEFINITION. The state of the whole module as plain data: storage and its records, the cores with their
on-core stores, the resident waves (one of them in focus), groups, launches, packets, queue unit, coherence
directory, host bridge, management registers, display heads, firmware and black boxes; and the reasons a step
can stop. The rule that names a field stands in its docstring. -/

namespace Sys2Proof.Machine

/-- Why a step stops with a fault. -/
inductive Fault where
  /-- Raised by `step` when a chosen wave would fetch while PTROOT holds a reserved physical address (R207: "Reserved";
  R436: PTROOT holds one in frame space or host memory). A leaf that passes R218 names none. Safe: the model stops where
  the manual gives no effect. -/
  | reservedAddress (addr : Nat)
  deriving DecidableEq, Repr

/-- Why a step refuses an instruction. -/
inductive Refusal where
  /-- Answered by an arm of `exec` whose instruction has no meaning yet. Safe: the run stops there. -/
  | notModelled (mnemonic : String)
  deriving DecidableEq, Repr

/-- A position in happens-before (R353, R366): how much of each agent, by its unique number, lies before it. -/
abbrev Vec := Table Nat

/-- What a write releases: by scope, what lies before it (R352). -/
abbrev Rels := List (Nat × Vec)

/-- A translation register (R223), and the translation of one page that an access carries. -/
structure TransReg where
  limit : BitVec 33
  gen : BitVec 16
  pw : BitVec 32
  valid : Bool
  stale : Bool
  rc : Bool
  perm : BitVec 3
  kind : BitVec 2
  psize : BitVec 4
  pbase : BitVec 52
  vbase : BitVec 52
  deriving DecidableEq, Repr

/-- A write to the registers of a wave or of its group that lands later than its issue (R88 to R90). -/
inductive WaveWrite where
  /-- Scalar register. -/
  | sreg (n : Nat) (x : Word)
  /-- Scalar condition bit. -/
  | scc (b : Bool)
  /-- Mask register (0 is em, 1 to 8 are m0 to m7): the bits of `sel` take the bits of `val`. -/
  | mask (n : Nat) (sel val : Lanes)
  /-- Vector register: the lanes of `sel` take their entry of `xs`. -/
  | vreg (r : Nat) (sel : Lanes) (xs : List Word)
  /-- Index register. -/
  | xreg (k : Nat) (sel : Lanes) (xs : List (BitVec 16))
  /-- Bound descriptor of an index register (R132). -/
  | bound (k xb xl : Nat)
  /-- Special register of the number of R118. -/
  | special (n : Nat) (x : DWord)
  /-- Translation register (R223). -/
  | treg (n : Nat) (t : TransReg)
  /-- Header of a function register (R181). -/
  | fnHead (n : Nat) (lo hi w2 : Word)
  /-- Word of the function pool in every lane of `sel` (R183). -/
  | pool (w : Nat) (sel : Lanes) (xs : List Word)
  /-- tcfg register of the group (R290). -/
  | tcfg (t : Nat) (x : Word)
  /-- The bytes of a tile register from `off` on (R294). -/
  | tile (t off : Nat) (bytes : List Byte)
  /-- A whole tile register (R294). -/
  | tileAll (t : Nat) (bytes : Cells 8)
  deriving DecidableEq, Repr

/-- One lane's part of a memory instruction: its offset (R255) and the bytes it writes or operates with. -/
structure LaneAcc where
  lane : Nat
  off : Int
  data : List Byte
  deriving DecidableEq, Repr

/-- What a global memory instruction captured at its issue (R89, R224, R255): the lanes that have not been performed,
what those that have been performed returned, and what a write of it releases, at which scope (R352). The number 8 for `trn`
stands for the group's own scratchpad, which no translation register maps. -/
structure MemCap where
  trn : Nat
  tr : TransReg
  nbytes : Nat
  lanes : List LaneAcc
  done : List LaneAcc
  order : Nat
  scope : Nat
  rels : Rels
  deriving DecidableEq, Repr

/-- One lane's copy of a CPA (R270): destination, source offset, valid and total bytes. -/
structure LaneCopy where
  lane : Nat
  dst : Nat
  src : Int
  valid : Nat
  total : Nat
  deriving DecidableEq, Repr

/-- One CPA in a batch (R270, R271). -/
structure CpaCopy where
  trn : Nat
  tr : TransReg
  lanes : List LaneCopy
  deriving DecidableEq, Repr

/-- A tile operand as it stood at an instruction's issue (R294). -/
structure TileSnap where
  cfg : Word
  bytes : Cells 8
  deriving DecidableEq, Repr

/-- One write of an engine at a virtual address (R296): bytes (`op` none), or a merge into one byte, of the bits of a mask
(`op` 16, data mask and value) or of a base-3 digit (`op` 17, data place and digit); or the poisoning of the unit there
(`op` 18, R253). -/
structure StoreItem where
  va : Nat
  op : Option Nat
  data : List Byte
  deriving DecidableEq, Repr

/-- What an instruction that has issued still has to do when it completes (R92, R93). -/
inductive Effect where
  /-- Nothing but the counters. -/
  | none
  /-- Results formed from operands read at issue. -/
  | writes (ws : List WaveWrite)
  /-- A function operation (R190): past its decision point or not, its writes to function registers, its results. -/
  | fn (decided : Bool) (regs results : List WaveWrite)
  /-- LD (R258): destination, `.s`, whether it fills L1 (R256). -/
  | load (c : MemCap) (d : Nat) (sx fill : Bool)
  /-- ST (R258). -/
  | store (c : MemCap)
  /-- ATOM and ATOMN (R262); the old values go to `ret`. -/
  | atomic (c : MemCap) (op : Nat) (ret : Option Nat)
  /-- CAS on global memory (R263). -/
  | cas (c : MemCap) (d : Nat)
  /-- LDK .glb (R260). -/
  | ldk (c : MemCap) (d : Nat)
  /-- TRANS (R266). -/
  | trans (n : Nat) (va : DWord)
  /-- CPSM (R282). -/
  | cpsm (c : MemCap) (dst : Nat)
  /-- WOREL (R284): unit count, from the captured address. -/
  | worel (c : MemCap) (units : Nat)
  /-- A committed copy batch (R271), with the barrier object it reports to, the bytes it declares, and the physical addresses of
  poisoned units that it has copied (R272). -/
  | batch (copies : List CpaCopy) (obj : Option Nat) (bytes : Nat) (ecc : List Nat)
  /-- BARR with release order, waiting for the wave's earlier accesses (R278). -/
  | barr (off arrivals : Nat) (scope : Nat)
  /-- TLD (R299). -/
  | tld (t : Nat) (cfg : Word) (org : List Int)
  /-- Writes of an engine that are still to be made: those of TST, ACCST and ACCQ (R296); whether every page must be
  write-once. -/
  | stores (wo : Bool) (items : List StoreItem)
  /-- MMA, MMAS and MMAT (R304, R306, R307): operands as read at issue, the metadata bytes of A for MMAS,
  accumulator address, whether the block starts from zero. -/
  | mma (a b : TileSnap) (sparse : Option (List Byte)) (addr : Nat) (z : Bool)
  /-- MMAX that waits for its partners (R309, R310): the A tile of an even core, this core's B tile, accumulator address,
  `.z`, and the number of this MMAX in the group. -/
  | mmax (a : Option TileSnap) (b : TileSnap) (addr : Nat) (z : Bool) (j : Nat)
  /-- ACCLD (R311): descriptor, accumulator address, origin, rows, columns, type. -/
  | accld (td addr : Nat) (i0 i1 : Int) (rows cols ty : Nat)
  /-- ACCST (R311): as ACCLD, with the rounding mode. -/
  | accst (td addr : Nat) (i0 i1 : Int) (rows cols ty mode : Nat)
  /-- ACCQ (R312): descriptor, address, type, mode, scale, seed. -/
  | accq (td addr ty mode : Nat) (scale seed : Word)
  /-- TTRL (R303). -/
  | ttrl (d td : Nat)
  /-- TSCL (R313): address, rows, columns, factor, `.i2f`. -/
  | tscl (addr rows cols : Nat) (f : Word) (i2f : Bool)
  /-- RAST (R330): bucket handle and grid handle, pages that the driver has declined to it (R438), what its writes release,
  whether the bucket's list has been found to name the grid. -/
  | rast (bucket grid : Word) (dropped : List Nat) (vc : Vec) (listed : Bool)
  /-- RAYQ (R341): query slot, the rays of the active lanes (eight words each), structure address, `.any`. -/
  | rayq (q : Nat) (rays : List (Nat × List Word)) (top : DWord) (any : Bool)
  deriving DecidableEq, Repr

/-- How far the accesses of an outstanding instruction have come (R227, R229, R232). -/
inductive Wait where
  /-- Nothing stands in the way. -/
  | ready
  /-- Held by a translation fault that has been reported to the driver with this tag (R229, R432). -/
  | fault (va : DWord) (tag : Word)
  /-- Refused by a home whose generation is newer; walks again at this clock (R227). -/
  | retry (clock : Nat)
  /-- A declined fault: the access writes nothing (R396). -/
  | declined (va : DWord)
  deriving DecidableEq, Repr

/-- An instruction that has issued and not completed (R92): its class counter and general counter, its address, the
clock of its issue, whether a translation fault of it holds its wave (R255), whether it holds a power token (R95), what
it still has to do, how far it is, what lay before its issue (R351, R365). -/
structure Outst where
  id : Nat
  cls : Option Nat
  cf : Option Nat
  pc : DWord
  issued : Nat
  holds : Bool
  token : Bool
  eff : Effect
  wait : Wait
  vc : Vec
  deriving DecidableEq, Repr

/-- What holds a wave (R88, R99). -/
inductive Hold where
  /-- Nothing. -/
  | none
  /-- An instruction of general-variable or held class, until this outstanding one completes (R93). -/
  | outst (id : Nat)
  /-- BART at this tag (R123). -/
  | bart (tag : Nat)
  /-- BWAIT on the object at this offset, past this phase, with its scope where it acquires (R279). -/
  | bwait (off phase : Nat) (acq : Option Nat)
  /-- ENQ waiting on this queue, in the order of `since`, with its eight words (R40). -/
  | enq (queue : DWord) (since : Nat) (words : List Word)
  /-- DEQ waiting on this queue, in the order of `since`, with its destination (R40). -/
  | deq (queue : DWord) (since d : Nat)
  /-- A fetch or a held instruction at a translation fault, with its PAGE_LOAD detail (R66, R229, R383). -/
  | fault (va : DWord) (tag : Word) (detail : Nat)
  /-- An instruction that has not issued: a condition of its issue does not hold yet (R99). -/
  | unissued
  /-- A held instruction that has issued and goes on in each clock until it completes, which a trap withdraws: BART before it
  arrives, ENQ before its queue is reached, an instruction of the micropolygon pipeline (R342, R384). -/
  | pipeline
  /-- A held instruction that has issued and goes on in each clock until it completes, and that no trap withdraws: FENCE, SEAL,
  UNSEAL, SMAP, SUNMAP, an access to a race-checked page, an instruction of the micropolygon pipeline that has changed
  something (R251, R265, R285, R342, R365, R384). -/
  | issued
  /-- DICE waiting at a Geode, in the order of `since` (R323). -/
  | dice (die geode since : Nat)
  deriving DecidableEq, Repr

/-- A trap that has been decided (R382): code, detail, address, the PC the frame records, RETIRED; `boundary` for a trap of the
deferred classes, whose frame records the instruction at which the wave then stands. -/
structure TrapReq where
  code : Nat
  detail : Nat
  addr : DWord
  pc : DWord
  retired : Bool
  boundary : Bool := false
  deriving DecidableEq, Repr

/-- A deferred report (R385). -/
structure Report where
  code : Nat
  detail : Nat
  addr : DWord
  deriving DecidableEq, Repr

/-- A REP in progress (R79, R129): the next repeat and the count, the steps of D, A, B and C, the covered
instruction with its address and the address that follows it. The wave's PC stays at the REP. -/
structure RepState where
  j : Nat
  n : Nat
  std : Nat
  sta : Nat
  stb : Nat
  stc : Nat
  ins : Instr
  insAt : DWord
  after : DWord
  deriving DecidableEq, Repr

/-- A PBLK in progress (R80, R130): the next covered instruction, the captured condition, PAT, and the covered
instructions still to come with the address of each; the address that follows them. The PC stays at the PBLK. -/
structure PblkState where
  j : Nat
  cond : Lanes
  pat : BitVec 8
  body : List (DWord × Instr)
  after : DWord
  deriving DecidableEq, Repr

/-- What RTE or resumption has restored for the prefix at the PC (R393, R399). -/
inductive Resume where
  /-- Nothing. -/
  | none
  /-- A REP resumes at this repeat. -/
  | rep (j : Nat)
  /-- A PBLK resumes at this covered instruction with this condition. -/
  | pblk (j : Nat) (cond : Lanes)
  deriving DecidableEq, Repr

/-- A bound descriptor (R132). -/
structure Bound where
  xb : Nat
  xl : Nat
  deriving DecidableEq, Repr

/-- Results held in a query slot (R341): the lanes that were queried; word i of lane L is at 5 L + i. -/
structure QuerySlot where
  lanes : Lanes
  words : Cells 32
  deriving DecidableEq, Repr

/-- What a write has released (R352): the agent, the scope, what lies before it, and whether every read that sees it takes it,
not acquires alone. -/
structure RelMsg where
  core : Nat
  slot : Nat
  launch : Nat
  uid : Nat
  scope : Nat
  vc : Vec
  every : Bool
  deriving DecidableEq, Repr

/-- A record of a race-checked line (R366): the number by which happens-before knows the event, the agent for whom it was made,
its core and slot, the bytes touched, whether the event was atomic, its position. -/
structure RaceRec where
  uid : Nat
  owner : Nat
  core : Nat
  slot : Nat
  mask : BitVec 128
  atomic : Bool
  pos : Nat
  deriving DecidableEq, Repr

/-- The records of a line of a race-checked page (R366): one of a write, at most four of reads, newest first. -/
structure RaceLine where
  write : Option RaceRec
  reads : List RaceRec
  deriving DecidableEq, Repr

/-- An instruction of the held class that has issued and has not completed (R88): the instruction, its number in issue order,
and the registers as it read them at its issue (R89). -/
structure Held where
  ins : Instr
  since : Nat
  em : Lanes
  scc : Bool
  m : Cells 64
  s : Cells 32
  v : Cells 32
  tr : Table TransReg
  deriving DecidableEq, Repr

/-- A resident wave: its registers (R49, R131), its place (R118), and where it stands. -/
structure Wave where
  /-- COREID and WAVEID (R118). -/
  core : Nat
  slot : Nat
  /-- Group slot on the core, 0 to 7 (R118); launch; index of the wave in its group (R19). -/
  gslot : Nat
  launch : Nat
  windex : Nat
  /-- Privileged slot (R50). An idle wave has no work and never issues. -/
  priv : Bool
  idle : Bool
  ended : Bool
  suspended : Bool
  /-- Wave width in lanes, vector-register count, pool words a lane (R16, R183). -/
  width : Nat
  vregs : Nat
  pwords : Nat
  granules : Nat
  /-- Program counter (R63). -/
  pc : DWord
  /-- Execution mask and LIVE (R105). -/
  em : Lanes
  live : Lanes
  scc : Bool
  /-- m0 to m7, by number. -/
  m : Cells 64
  /-- s0 to s63. -/
  s : Cells 32
  /-- Lane L of vector register r is at 64 r + L. -/
  v : Cells 32
  /-- The bytes of the rounded footprint beyond its exact size, by word (R241). -/
  slack : Cells 32
  /-- The poisoned words of its registers, by word index of its rounded footprint (R241, R253). -/
  vbad : List Nat
  /-- Lane L of index register k is at 64 k + L. -/
  x : Cells 16
  bound : Table Bound
  /-- Completion counters k0 to k11 (R92). -/
  k : Cells 6
  /-- Special registers (R118). -/
  wid : DWord
  fpctl : Word
  fnctl : Word
  qdepth : Word
  trapcode : Word
  trapaddr : DWord
  /-- Translation registers (R223). -/
  tr : Table TransReg
  /-- Function-register headers: word i of cn is at 3 n + i (R181). -/
  fn : Cells 32
  /-- Function pool: word w of lane L is at 64 w + L (R183). -/
  pool : Cells 32
  /-- Long accumulator: V and the flags of word 20 (R161). -/
  lacc : BitVec 640
  laccFlags : Word
  /-- Query slots (R341). -/
  query : Table QuerySlot
  /-- Prefix states (R129, R130). -/
  rep : Option RepState
  pblk : Option PblkState
  resume : Resume
  /-- Recovery-mode bit (R387). -/
  recovery : Bool
  hold : Hold
  /-- The held-class instruction that holds the wave, where it goes on by itself (R88, R89). -/
  held : Option Held
  /-- Pages that the driver has declined to the instruction the wave stands at (R438). -/
  dropped : List Nat
  trap : Option TrapReq
  /-- Deferred reports, oldest first, and the count lost (R385). -/
  reports : List Report
  lost : Nat
  /-- Results in flight with the clock at which each lands (R88). -/
  pend : List (Nat × WaveWrite)
  /-- Issued and uncompleted instructions, oldest first (R92). -/
  outst : List Outst
  /-- The open batch (R271). -/
  batch : List CpaCopy
  /-- One more than the clock of the last issue, 0 when DIST is satisfied; earliest clock of the next issue by a redirect or
  YIELD (R87, R128). -/
  lastIssue : Nat
  notBefore : Nat
  /-- Scheduler state (R100). -/
  age : Nat
  waited : Nat
  promoted : Bool
  requested : Bool
  granted : Bool
  /-- Tag at which the wave's arrival stands, and whether it was made with ORD (R123, R124). -/
  arrived : Option Nat
  arrOrd : Bool
  /-- Unique number as an agent; what lies before it; what its release fences release, by scope; what its relaxed reads have
  seen, for an acquire fence (R352, R353). -/
  uid : Nat
  hb : Vec
  hbRel : Rels
  hbAcq : List RelMsg
  /-- The instruction for which an engine makes accesses now; engine instructions, with the counter that counts them, oldest
  first, that no WAIT has covered (R351, R365). -/
  eng : Option Nat
  unwaited : List (Nat × Nat)
  deriving DecidableEq, Repr

/-- A group resident on a core, or suspended (R51, R56). -/
structure Group where
  launch : Nat
  /-- Position of the core among the set bits of CMASK (R19). -/
  gindex : Nat
  spadBase : Nat
  spadLen : Nat
  accBase : Nat
  accLen : Nat
  /-- Physical tile registers of t0, t1, … (R242). -/
  tiles : List Nat
  /-- tcfg0 to tcfg15 (R290). -/
  tcfg : Cells 32
  /-- Waves that have not returned their slot. -/
  waves : Nat
  /-- MMAX issued by the group so far (R309). -/
  mmax : Nat
  since : Nat
  /-- It is being stopped for pre-emption (R398). -/
  stopping : Bool
  deriving DecidableEq, Repr

/-- A launch that has been captured (R16, R17, R22, R30). -/
structure Launch where
  stream : Nat
  ticket : Nat
  /-- The claiming agent's core. -/
  core : Nat
  entry : DWord
  done : DWord
  evt : Bool
  seq : BitVec 16
  width : Nat
  nwave : Nat
  vregs : Nat
  fpool : Nat
  spad : Nat
  acc : Nat
  tiles : Nat
  btags : BitVec 8
  wsrc : Nat
  gang : Bool
  widfmt : List Nat
  widbase : DWord
  ext : List Nat
  qaddr : DWord
  reqfeat : BitVec 128
  /-- COREIDs of CMASK, ascending. -/
  cmask : List Nat
  /-- The captured argument block and descriptor table, byte by byte. -/
  args : List Byte
  desc : List Byte
  pseq : Nat
  /-- Step 2 of R30 is done: tags and dispenser taken, `pseq` given. -/
  sequenced : Bool
  /-- Cores whose agents have received the request, and those that have granted it. -/
  requested : List Nat
  granted : List Nat
  started : Bool
  /-- Groups freed so far (R406). -/
  freed : Nat
  /-- Dispenser: die and number, extent N and counter NEXT (R33, R34). -/
  disp : Option (Nat × Nat)
  dispN : Nat
  dispNext : Nat
  /-- Physical route tags bound to the launch's tags (R51). -/
  tags : List (Nat × Nat)
  /-- Phases completed and not yet released: tag and the clock of release (R123). -/
  phase : List (Nat × Nat)
  /-- Drain clock (R55): when it began, the cluster being drained, the last pre-emption attempt at which every candidate was
  skipped (R56). -/
  drain : Option Nat
  draining : Option Nat
  tried : Option Nat
  /-- Joined MMAX that have failed: cluster and number (R310). -/
  mmaxBad : List (Nat × Nat)
  /-- What lies before its waves' start, and what its ended waves have done (R352). -/
  hbStart : Vec
  hbEnd : Vec
  deriving DecidableEq, Repr

/-- A packet that an agent has claimed (R25). -/
structure Packet where
  stream : Nat
  ticket : Nat
  core : Nat
  bytes : List Byte
  parked : Bool
  /-- The launch the packet became. -/
  launch : Option Nat
  /-- What its claim has acquired (R25). -/
  vc : Vec
  deriving DecidableEq, Repr

/-- An entry of a scratchpad mapping table (R245). -/
structure Binding where
  vbase : DWord
  len : Nat
  spoff : Nat
  grp : Nat
  /-- The translation under which the range was bound, and the lines written while bound. -/
  tr : TransReg
  dirty : List Nat
  deriving DecidableEq, Repr

/-- A live barrier object (R274): its fields and the outstanding copies that name it. -/
structure BarrierObj where
  gslot : Nat
  off : Nat
  expcnt : BitVec 16
  arrcnt : BitVec 16
  phase : BitVec 16
  expbytes : Word
  arrbytes : Word
  users : Nat
  /-- What the arrivals of the open phase release, and those of the phases completed, by PHASE after each; the same of the bytes
  added (R279, R352). -/
  vc : List RelMsg
  vcDone : Table (List RelMsg)
  vcBytes : Vec
  vcBytesDone : Table Vec
  deriving DecidableEq, Repr

/-- An entry of the side log (R230): a store or update that waits for its page. -/
structure LogEntry where
  id : Nat
  slot : Nat
  launch : Nat
  va : DWord
  /-- AOP of an update, none for a store. -/
  op : Option Nat
  nbytes : Nat
  /-- Lanes with their address and bytes, in lane order. -/
  lanes : List (Nat × DWord × List Byte)
  /-- It has an acquire order beyond its wave (R354); what its wave's release fences before it release (R352). -/
  acq : Bool
  rels : Rels
  /-- Report tag; set once the driver has answered (R432). -/
  tag : Word
  answered : Bool
  declined : Bool
  deriving DecidableEq, Repr

/-- A bulk tensor copy in progress (R280, R281). -/
structure Bulk where
  id : Nat
  slot : Nat
  launch : Nat
  gslot : Nat
  obj : Nat
  st : Bool
  td : Nat
  spoff : Nat
  org : List Int
  ext : List Nat
  bytes : Nat
  /-- The writes that `.st` still has to make, once its scratchpad has been read; the 4 KiB pages that the driver has
  declined to `.ld` (R281). -/
  items : Option (List StoreItem)
  dropped : List Nat
  wait : Wait
  /-- What lay before its issue (R365). -/
  vc : Vec
  deriving DecidableEq, Repr

/-- A core: its privileged registers, on-core stores and caches. A core that is not listed is as at reset. -/
structure Core where
  /-- LEASE1 and LEASE2 (R249). -/
  lease1 : Word
  lease2 : Word
  /-- TRAPVEC and TRAPFRM (R386). -/
  trapvec : DWord
  trapfrm : DWord
  /-- Scratchpad, accumulator memory, tile registers and sparsity side memory by physical byte (R241). -/
  spad : Cells 8
  acc : Cells 8
  tile : Cells 8
  side : Cells 8
  /-- Scratchpad mapping table (R245), barrier objects (R274), side log (R230), bulk copies (R281). -/
  smap : List Binding
  objs : List BarrierObj
  log : List LogEntry
  bulks : List Bulk
  /-- Instruction cache and constant cache: the 16-byte or 64-byte units held, and their bytes by physical
  address (R64, R65, R260). -/
  icacheUnits : List Nat
  icache : Cells 8
  kcacheUnits : List Nat
  kcache : Cells 8
  /-- First-level TLB (R225). -/
  tlb : List TransReg
  /-- Lines of which the L1 holds a counted write-once copy (R251). -/
  counted : List Nat
  /-- Placement requests received, by launch (R30). -/
  requests : List Nat
  /-- Next Age stamp and the matrix instructions' order (R100, R295). -/
  nextAge : Nat
  deriving DecidableEq, Repr

/-- A slot of a Geode (R318, R344): its serial, the grid that occupies it, by handle, and what the RASTs of its grids that have
ended had before them, which the DICE that reuses it takes (R352). -/
structure GridSlot where
  serial : BitVec 19
  grid : Option Nat
  vc : Vec
  deriving DecidableEq, Repr

/-- A live grid (R318, R319): what the device knows of it. A grid whose slot has been reused is not in its slot; state:
1 DICED, 2 SHADING, 3 SHADED, 4 SPILLED; its frame table and home bucket; stamps of dicing, release and spill; what its
GRIDREL has released (R338). -/
structure Grid where
  handle : Word
  inSlot : Bool
  state : Nat
  refs : Nat
  infl : Nat
  patch : Word
  prec : DWord
  nu : Nat
  nv : Nat
  mlen : Nat
  stride : Nat
  frame : Nat
  home : Nat
  spaddr : Nat
  diced : Nat
  released : Nat
  spilled : Nat
  vc : Vec
  deriving DecidableEq, Repr

/-- A range of a patch still to be diced (R321). -/
structure Range where
  patch : DWord
  pnum : Word
  u0 : Word
  u1 : Word
  v0 : Word
  v1 : Word
  depth : Nat
  deriving DecidableEq, Repr

/-- A Geode: the bucket open on it, its split stack, top first, and patch cursor, its slots and bytes, the RASTs of its
bucket that have not completed (R317 to R323, R335). -/
structure Geode where
  /-- Frame table address and bucket index of the open bucket. -/
  open_ : Option (Nat × Nat)
  stack : List Range
  next : Nat
  slots : Table GridSlot
  bytes : Cells 8
  rasts : Nat
  /-- What the RASTs of the open bucket that have ended had before them, which BKT.close takes (R352). -/
  vc : Vec
  deriving DecidableEq, Repr

/-- A record of a black box (R400). -/
structure BoxRecord where
  kind : Nat
  code : Nat
  detail : Nat
  core : Nat
  wave : Nat
  clock : Nat
  addr : DWord
  pc : DWord
  deriving DecidableEq, Repr

/-- A request for power tokens in a die's queue (R96, R97): wave by core and slot, tokens needed. -/
structure TokenReq where
  core : Nat
  slot : Nat
  need : Nat
  deriving DecidableEq, Repr

/-- A die. A die that is not listed is as at reset. -/
structure Die where
  /-- GCFG, GRATE, GAP and GSP (R317). -/
  gcfg : Word
  grate : Word
  gap : DWord
  gsp : DWord
  geodes : Table Geode
  /-- Live grids, by handle (R318). -/
  grids : Table Grid
  /-- Units of the spill area in use, by virtual unit, with the grid and the unit's frame; units reported as unusable
  (R329). -/
  spillUsed : List (Nat × Nat × Nat)
  badUnits : List Nat
  /-- Dispensers in use (R33). -/
  dispUsed : List Nat
  /-- Black box, newest record first, and WCOUNT (R400). -/
  box : List BoxRecord
  wcount : Nat
  /-- Write pointers of the copy channels (R273). -/
  wptr : Cells 64
  /-- Token queue (R96). -/
  tokens : List TokenReq
  /-- Second-level TLB and walk cache (R225): level and virtual index, next table. -/
  tlb : List TransReg
  walk : List (Nat × Nat × Nat)
  deriving DecidableEq, Repr

/-- An entry of the migration table (R236). -/
structure Move where
  src : Nat
  dst : Nat
  psize : Nat
  oldPw : Word
  newPw : Word
  pp : Nat
  busy : Bool
  deriving DecidableEq, Repr

/-- Directory states of a home (R373). -/
inductive DirState where
  /-- No copy on another die. -/
  | u
  /-- Shared by the dies of the mask. -/
  | s (mask : BitVec 4)
  /-- Owned, E or M, by the die. -/
  | em (o : Nat)
  /-- Owned in O by the die, shared by the mask. -/
  | o (o : Nat) (mask : BitVec 4)
  deriving DecidableEq, Repr

/-- States of a die's copy of a line (R372). -/
inductive LineState where
  /-- Modified. -/
  | m
  /-- Owned. -/
  | o
  /-- Exclusive. -/
  | e
  /-- Shared. -/
  | s
  /-- Invalid. -/
  | i
  deriving DecidableEq, Repr

/-- A die's copy of a line (R372): its state and the 128 bytes it holds. -/
structure Copy where
  state : LineState
  data : List Byte
  deriving DecidableEq, Repr

/-- Kinds of the messages between dies (R373, R374). -/
inductive MsgKind where
  /-- A line's data and the state it grants. -/
  | data (grant : LineState) (bytes : List Byte)
  /-- Forward to the owner, for requester `r`; `take` when the owner loses its copy. -/
  | forward (r : Nat) (take : Bool)
  /-- Invalidate. -/
  | inv
  /-- Acknowledgement of an Inv. -/
  | ack
  /-- Recall of the owner's copy. -/
  | recall
  /-- A write-back on its way to the home. -/
  | wbdata (bytes : List Byte)
  deriving DecidableEq, Repr

/-- A message in flight, by its destination die and line. -/
structure Msg where
  die : Nat
  line : Nat
  kind : MsgKind
  deriving DecidableEq, Repr

/-- A line's entry in the snoop filter of its home slice (R370, R373, R375, R378): the line's physical address and home die, the
directory state, the host bit, the transaction that is open (requester, and the state to enter when its acknowledgements have
come), requests that wait, the clock of its last use. -/
structure DirEntry where
  pa : Nat
  home : Nat
  state : DirState
  host : Bool
  busy : Option (Nat × DirState)
  acks : Nat
  queue : List (Nat × Bool)
  used : Nat
  deriving DecidableEq, Repr

/-- A write by physical address that waits (R250), by the host or by the device. -/
structure DevWrite where
  pa : Nat
  bytes : List Byte
  host : Bool
  deriving DecidableEq, Repr

/-- A write to a replicated page on its way to the other dies (R220): the die that orders it, whose copy takes it last, the
agent that waits for it, the bytes by their key within a die, the dies it has not reached, the dies that have not
acknowledged. -/
structure Replica where
  hd : Nat
  owner : Option Nat
  line : Nat
  bytes : List (Nat × Byte)
  toSend : List Nat
  acks : List Nat
  deriving DecidableEq, Repr

/-- States of a 64-byte half in the host bridge (R376). -/
inductive HalfState where
  /-- Invalid. -/
  | i
  /-- Shared. -/
  | s
  /-- Exclusive. -/
  | e
  /-- Modified. -/
  | m
  deriving DecidableEq, Repr

/-- A half-line of host memory in the bridge: its state and the request outstanding (`true`: RdOwn). -/
structure Half where
  state : HalfState
  req : Option Bool
  deriving DecidableEq, Repr

/-- What the queue unit keeps of a task queue (R59 to R61): rotor, the dies whose next attempt is locked, the dies
that await a fill, the mirrors of the counts, the events lost. -/
structure QueueUnit where
  rotor : BitVec 2
  locked : List Nat
  parked : List Nat
  mirror : List Nat
  deriving DecidableEq, Repr

/-- A fault report (R432). -/
structure FaultReport where
  page : DWord
  kind : Nat
  die : Nat
  core : Nat
  tag : Word
  /-- Written to the ring. -/
  written : Bool
  deriving DecidableEq, Repr

/-- A display head (R411, R412, R433): its registers, what it scans, the pose it last read. -/
structure Head where
  hcfg : Word
  timing : DWord
  timingNext : Option DWord
  present : DWord
  pose : DWord
  scanseq : DWord
  relseqNext : Option DWord
  pseq : DWord
  /-- 0 black, 1 a new frame, 2 a re-projection, 3 a repeat. -/
  shows : Nat
  /-- The record and the pose matrix read at T. -/
  record : List Byte
  matrix : List Byte
  deriving DecidableEq, Repr

/-- A context in the suspension area (R56, R399): place in the area, whose bytes are the save set; what the device knows of
the group and its waves besides, whether it was stopped before its launch started, its barrier objects and bindings. -/
structure Suspended where
  core : Nat
  addr : Nat
  len : Nat
  group : Group
  waves : List Wave
  unstarted : Bool
  objs : List BarrierObj
  binds : List Binding
  deriving DecidableEq, Repr

/-- The host-visible management registers (R427), those with a home elsewhere left out. -/
structure Mgmt where
  featacc : BitVec 128
  ptroot : DWord
  strtab : DWord
  evbase : DWord
  evsize : Word
  evprod : Word
  evcons : Word
  fltbase : DWord
  fltsize : Word
  fltprod : Word
  fltcons : Word
  fresp : DWord
  fpaddr : DWord
  fpdata : DWord
  mvreq : List Word
  mvresp : List Word
  mvdone : Bool
  suspbase : DWord
  susplen : DWord
  tvec : DWord
  tfrm : DWord
  plimit : Word
  power : Word
  deriving DecidableEq, Repr

/-- Start-up and firmware (R429 to R431). -/
structure Boot where
  /-- BOOTSTS.STATE: 1 BOOT, 2 TRAIN, 3 READY, 4 RUN, 5 RECOVERY. -/
  state : Nat
  version : Nat
  fuse : Nat
  fail0 : Bool
  fail1 : Bool
  slot : Nat
  flash : Cells 8
  staging : Cells 8
  arg : Word
  status : Nat
  pagesel : Word
  /-- Next part of a PROGRAM in parts: slot and part (R431). -/
  part : Option (Nat × Nat)
  deriving DecidableEq, Repr

/-- The state of the module. -/
structure State where
  /-- The wave in focus: the one whose instruction `exec` runs. -/
  wave : Wave
  /-- The other resident waves. -/
  waves : List Wave
  /-- The wave in focus has been chosen to issue (R100). -/
  chosen : Bool
  /-- The model's own: the steps of outside agents that come next, oldest first. [DESIGN CHOICE, log 8] -/
  agenda : List Instr
  /-- The model's own: next free number for identifiers and free values. [DESIGN CHOICE, log 9] -/
  fresh : Nat
  /-- The model's own: the next pipe to be looked at in this clock, as 4 × COREID + pipe. -/
  turn : Nat
  /-- Arithmetic clocks since reset (R118). -/
  clock : Nat
  /-- Pipes that an instruction keeps from issuing, by 4 × COREID + pipe, and until which clock (R151). -/
  pipeFree : Table Nat
  /-- Storage by storage key: frame space by die, site and site offset (R217), host memory by physical address. -/
  mem : List Host.Cell
  /-- Poisoned units, by the key of their first byte (R253). -/
  poison : List Nat
  /-- Frame records by frame number (R222). -/
  frames : Cells 64
  /-- Seal bitmap by frame number (R251). -/
  seals : Cells 1
  /-- Lease expiries recorded at the slices, by 2^40 × die + storage line (R249, R374). -/
  leases : Table Nat
  /-- Storage lines at whose home a write waits for such an expiry (R250). -/
  waitWrites : List Nat
  /-- Device and host writes by physical address that wait for such an expiry, oldest first (R250). -/
  devWrites : List DevWrite
  /-- What writes have released, by storage byte (R350, R352); the records of race-checked lines (R366). -/
  rel : Table (List RelMsg)
  races : Table RaceLine
  /-- What a stream's completed packets have done; what the host has before it (R346, R352). -/
  hbStream : Table Vec
  hbHost : Vec
  moves : Table Move
  dir : Table DirEntry
  /-- Halves of lines that the homes have asked back from the host, by storage line (R378). -/
  bisnp : Table (List Nat)
  /-- Frames that were last used under a translation of which other dies may hold lines in S only (R371). -/
  shareOnly : List Nat
  /-- Copies of lines on other dies: key 2^40 × die + line (R372). -/
  copies : Table Copy
  msgs : List Msg
  replicas : List Replica
  bridge : Table Half
  /-- What the host's last read of the module gave, and reads of the host that wait for a line, by address and length (R426). -/
  hostRead : List Byte
  hostReads : List (Nat × Nat)
  cores : Table Core
  dies : Table Die
  groups : Table Group
  launches : Table Launch
  packets : List Packet
  nextPseq : Nat
  /-- Physical route tags in use (R51). -/
  tagsUsed : List Nat
  /-- Token pool, tokens out and the last die granted (R96, R98). -/
  pool : Nat
  inuse : Nat
  lastDie : Nat
  /-- Streams: the last one each agent claimed from, by core (R25). -/
  lastStream : Table Nat
  queues : Table QueueUnit
  faults : List FaultReport
  nextTag : Word
  /-- Overflow entries owed: streams (below 16), or 16 more than a queue header's address (R47). -/
  owed : List Nat
  /-- Increments of QOVF that wait for the queue's header, by the header's address (R47). -/
  lostDue : Table Nat
  suspended : List Suspended
  heads : Table Head
  mgmt : Mgmt
  boot : Boot
  /-- POOL as set at the last write of PLIMIT (R434). -/
  poolSet : Nat
  deriving DecidableEq, Repr

/-- A translation register at reset (R223). -/
def TransReg.reset : TransReg :=
  { limit := 0, gen := 0, pw := 0, valid := false, stale := false, rc := false, perm := 0, kind := 0,
    psize := 0, pbase := 0, vbase := 0 }

/-- A wave before any launch: the agent of core 0, idle in its privileged slot (R50, R105, R131, R429). [DESIGN CHOICE, log 1] -/
def Wave.reset : Wave :=
  { core := 0, slot := 15, gslot := 8, launch := 0, windex := 0, priv := true, idle := true, ended := false,
    suspended := false, width := 16, vregs := 8, pwords := 0, granules := 2, pc := 0, em := 0xFFFF,
    live := 0xFFFF, scc := false, m := [], s := [], v := [], slack := [], vbad := [], x := [], bound := [], k := [],
    wid := 0, fpctl := 0, fnctl := 0, qdepth := 0, trapcode := 0, trapaddr := 0, tr := [], fn := [], pool := [],
    lacc := 0, laccFlags := 0, query := [], rep := none, pblk := none, resume := .none,
    recovery := false, hold := .none, held := none, dropped := [],
    trap := none, reports := [], lost := 0, pend := [], outst := [], batch := [], lastIssue := 0, notBefore := 0,
    age := 0, waited := 0, promoted := false, requested := false, granted := false, arrived := none, arrOrd := false,
    uid := 0, hb := [(0, 1)], hbRel := [], hbAcq := [], eng := none, unwaited := [] }

/-- A core at reset (R249, R386). [DESIGN CHOICE, log 2] -/
def Core.reset : Core :=
  { lease1 := 2048, lease2 := 8192, trapvec := 0, trapfrm := 0, spad := [], acc := [], tile := [], side := [],
    smap := [], objs := [], log := [], bulks := [], icacheUnits := [], icache := [], kcacheUnits := [],
    kcache := [], tlb := [], counted := [], requests := [], nextAge := 0 }

/-- A Geode at reset. -/
def Geode.reset : Geode :=
  { open_ := none, stack := [], next := 0, slots := [], bytes := [], rasts := 0, vc := [] }

/-- A die at reset (R317, R400). -/
def Die.reset : Die :=
  { gcfg := 0, grate := 0x3F800000, gap := 0, gsp := 0, geodes := [], grids := [], spillUsed := [],
    badUnits := [], dispUsed := [], box := [], wcount := 0, wptr := [], tokens := [], tlb := [], walk := [] }

/-- The management registers at reset (R427). [DESIGN CHOICE, log 5] -/
def Mgmt.reset : Mgmt :=
  { featacc := 0, ptroot := 0, strtab := 0, evbase := 0, evsize := 0, evprod := 0, evcons := 0, fltbase := 0,
    fltsize := 0, fltprod := 0, fltcons := 0, fresp := 0, fpaddr := 0, fpdata := 0,
    mvreq := [0, 0, 0, 0, 0, 0, 0, 0], mvresp := [0, 0, 0, 0], mvdone := true, suspbase := 0, susplen := 0,
    tvec := 0, tfrm := 0, plimit := 1800, power := 0 }

/-- Start-up at reset (R427, R429). [DESIGN CHOICE, log 6] -/
def Boot.reset : Boot :=
  { state := 1, version := 0, fuse := 0, fail0 := false, fail1 := false, slot := 0, flash := [], staging := [],
    arg := 0, status := 0, pagesel := 0, part := none }

/-- The module right after reset: BOOTSTS.STATE is BOOT, nothing runs, storage lists nothing (R427, R429). [DESIGN CHOICE, log 3; DESIGN CHOICE, log 4] -/
def State.reset : State :=
  { wave := Wave.reset, waves := [], chosen := false, agenda := [], fresh := 0, turn := 0, clock := 0, pipeFree := [], mem := [],
    poison := [], frames := [], seals := [], leases := [], waitWrites := [], devWrites := [], rel := [],
    races := [], hbStream := [], hbHost := [], moves := [], dir := [], bisnp := [], shareOnly := [], copies := [], msgs := [],
    replicas := [], bridge := [], hostRead := [], hostReads := [], cores := [], dies := [], groups := [], launches := [], packets := [],
    nextPseq := 0, tagsUsed := [], pool := 320, inuse := 0, lastDie := 3, lastStream := [], queues := [],
    faults := [], nextTag := 1, owed := [], lostDue := [], suspended := [], heads := [], mgmt := Mgmt.reset, boot := Boot.reset,
    poolSet := 320 }

end Sys2Proof.Machine
end

