-- ==== Sys2Proof/Machine/Ops.lean ====
section
/-! DEFINITION. The named operations over the registers of a wave, over waves, groups, cores and dies: reading
and writing each class of register, posting a result with its latency and landing it (R88 to R90), completion
counters (R92), and bringing a wave into focus. -/

namespace Sys2Proof.Machine

/-! ### Registers of a wave -/

/-- s[n] (R131). -/
def Wave.sreg (w : Wave) (n : Nat) : Word := cget w.s n

/-- s[n+1] : s[n] (R104). -/
def Wave.spair (w : Wave) (n : Nat) : DWord := pair (cget w.s n) (cget w.s (n + 1))

/-- Mask by number: 0 is em, 1 to 8 are m0 to m7 (R68). -/
def Wave.mask (w : Wave) (n : Nat) : Lanes := if n = 0 then w.em else cget w.m (n - 1)

/-- Lane `L` of vector register `r`. -/
def Wave.vlane (w : Wave) (r L : Nat) : Word := cget w.v (64 * r + L)

/-- Lane `L` of index register `k`. -/
def Wave.xlane (w : Wave) (k L : Nat) : Nat := (cget w.x (64 * k + L)).toNat

/-- The bound descriptor of index register `k` (R132). -/
def Wave.bnd (w : Wave) (k : Nat) : Bound := tget { xb := 0, xl := 0 } w.bound k

/-- Completion counter kn (R92). -/
def Wave.cnt (w : Wave) (n : Nat) : Nat := (cget w.k n).toNat

/-- Adds one to counter kn. -/
def Wave.incK (w : Wave) (n : Nat) : Wave := { w with k := cset w.k n (cget w.k n + 1) }

/-- Takes one from counter kn. -/
def Wave.decK (w : Wave) (n : Nat) : Wave := { w with k := cset w.k n (cget w.k n - 1) }

/-- Translation register trn (R223). -/
def Wave.treg (w : Wave) (n : Nat) : TransReg := tget TransReg.reset w.tr n

/-- Query slot q (R341). -/
def Wave.qslot (w : Wave) (q : Nat) : QuerySlot := tget { lanes := 0, words := [] } w.query q

/-- Die on which a core lies (R118). -/
def dieOf (core : Nat) : Nat := core / Config.coresPerDie

/-- Every lane of the wave's width (R105). -/
def Wave.full (w : Wave) : Lanes := lanesBelow w.width

/-- Latency of the vector-fixed class: 4 for widths 16 and 32, 5 for 64 (R88). -/
def Wave.vlat (w : Wave) : Nat := if w.width = 64 then 5 else 4

/-- The execution mask as a covered instruction of PBLK sees it (R80, R130). -/
def Wave.act (w : Wave) : Lanes :=
  match w.pblk with
  | none => w.em
  | some p => if p.pat.getLsbD p.j then w.em &&& p.cond else w.em &&& ~~~p.cond

/-- The numbers of the active lanes, rising. -/
def Wave.actList (w : Wave) : List Nat := laneList w.act

/-- The 64 entries that `f` gives for the active lanes; an inactive lane's entry is zero and is not used. -/
def Wave.perLane (w : Wave) (f : Nat → Word) : List Word :=
  (List.range 64).map fun L => if w.act.getLsbD L then f L else 0

/-! ### Landing results (R88 to R90) -/

/-- Writes the lanes of `sel` from key `base` on. -/
def setLanes {n : Nat} (c : Cells n) (base : Nat) (sel : Lanes) (xs : List (BitVec n)) : Cells n :=
  (List.range 64).foldl (fun c L => if sel.getLsbD L then cset c (base + L) (xs.getD L 0) else c) c

/-- A mask write: the bits of `sel` take those of `val`, within the width, and for em within LIVE (R105). -/
def Wave.setMask (w : Wave) (n : Nat) (sel val : Lanes) : Wave :=
  if n = 0 then { w with em := (w.em &&& ~~~sel ||| val &&& sel) &&& w.live &&& w.full }
  else { w with m := cset w.m (n - 1) ((cget w.m (n - 1) &&& ~~~sel ||| val &&& sel) &&& w.full) }

/-- Writes s[n]. -/
def Wave.setS (w : Wave) (n : Nat) (x : Word) : Wave := { w with s := cset w.s n x }

/-- Writes the pair s[n+1] : s[n]. -/
def Wave.setSpair (w : Wave) (n : Nat) (x : DWord) : Wave := (w.setS n (lo32 x)).setS (n + 1) (hi32 x)

/-- Writes a special register of R118 that software or the device can write. -/
def Wave.setSpecial (w : Wave) (n : Nat) (x : DWord) : Wave :=
  match n with
  | 0 => { w with wid := x }
  | 8 => { w with fpctl := lo32 x }
  | 9 => { w with fnctl := lo32 x }
  | 10 => { w with qdepth := lo32 x }
  | 11 => { w with trapcode := lo32 x }
  | 12 => { w with trapaddr := x }
  | _ => w

/-- The poisoned words that are left once the lanes of `sel` of a row of words are written: a write of a whole unit clears its
poison (R253). -/
def Wave.soundAt (w : Wave) (r : Nat) (sel : Lanes) : List Nat :=
  w.vbad.filter fun i => !(i / w.width == r && sel.getLsbD (i % w.width))

/-- Lands one write in the wave's own registers; the writes of group registers are `landGroup`'s. -/
def landWave (w : Wave) : WaveWrite → Wave
  | .sreg n x => w.setS n x
  | .scc b => { w with scc := b }
  | .mask n sel val => w.setMask n sel val
  | .vreg r sel xs => { w with v := setLanes w.v (64 * r) sel xs, vbad := w.soundAt r sel }
  | .xreg k sel xs => { w with x := setLanes w.x (64 * k) sel xs }
  | .bound k xb xl => { w with bound := tset w.bound k { xb := xb, xl := xl } }
  | .special n x => w.setSpecial n x
  | .treg n t => { w with tr := tset w.tr n t }
  | .fnHead n lo hi w2 => { w with fn := csetList w.fn (3 * n) [lo, hi, w2] }
  | .pool i sel xs => { w with pool := setLanes w.pool (64 * i) sel xs, vbad := w.soundAt (w.vregs + i) sel }
  | .tcfg _ _ => w
  | .tile _ _ _ => w
  | .tileAll _ _ => w

/-- Posts a result that lands `n` clocks from now, behind those that land no later (R88, R90). -/
def postAt (l : List (Nat × WaveWrite)) (due : Nat) (x : WaveWrite) : List (Nat × WaveWrite) :=
  match l with
  | [] => [(due, x)]
  | p :: l => if due < p.1 then (due, x) :: p :: l else p :: postAt l due x

/-! ### Cores, dies, groups, launches -/

/-- A core's record. -/
def State.core (s : State) (c : Nat) : Core := tget Core.reset s.cores c

/-- Replaces a core's record. -/
def State.setCore (s : State) (c : Nat) (x : Core) : State := { s with cores := tset s.cores c x }

/-- A die's record. -/
def State.die (s : State) (d : Nat) : Die := tget Die.reset s.dies d

/-- Replaces a die's record. -/
def State.setDie (s : State) (d : Nat) (x : Die) : State := { s with dies := tset s.dies d x }

/-- Key of the group in slot `g` of core `c`; the privileged slot's is that of no group. -/
def groupKey (c g : Nat) : Nat := 16 * c + g

/-- A group that holds nothing: what the privileged slot belongs to. -/
def noGroup : Group :=
  { launch := 0, gindex := 0, spadBase := 0, spadLen := 0, accBase := 0, accLen := 0, tiles := [], tcfg := [],
    waves := 0, mmax := 0, since := 0, stopping := false }

/-- The group in slot `g` of core `c`. -/
def State.group (s : State) (c g : Nat) : Group := tget noGroup s.groups (groupKey c g)

/-- Replaces a group's record. -/
def State.setGroup (s : State) (c g : Nat) (x : Group) : State :=
  { s with groups := tset s.groups (groupKey c g) x }

/-- The group of the wave in focus. -/
def State.myGroup (s : State) : Group := s.group s.wave.core s.wave.gslot

/-- The core of the wave in focus. -/
def State.myCore (s : State) : Core := s.core s.wave.core

/-- A launch with nothing in it: what the privileged slot belongs to. -/
def noLaunch : Launch :=
  { stream := 0, ticket := 0, core := 0, entry := 0, done := 0, evt := false, seq := 0, width := 16, nwave := 1,
    vregs := 8, fpool := 0, spad := 0, acc := 0, tiles := 0, btags := 0, wsrc := 0, gang := false, widfmt := [],
    widbase := 0, ext := [], qaddr := 0, reqfeat := 0, cmask := [], args := [], desc := [], pseq := 0, sequenced := false,
    requested := [], granted := [], started := false, freed := 0, disp := none, dispN := 0, dispNext := 0,
    tags := [], phase := [], drain := none, draining := none, tried := none, mmaxBad := [], hbStart := [], hbEnd := [] }

/-- A launch by its number. -/
def State.launch (s : State) (l : Nat) : Launch := tget noLaunch s.launches l

/-- Replaces a launch's record. -/
def State.setLaunch (s : State) (l : Nat) (x : Launch) : State := { s with launches := tset s.launches l x }

/-- The launch of the wave in focus; the privileged slot has none. -/
def State.myLaunch (s : State) : Launch := if s.wave.priv then noLaunch else s.launch s.wave.launch

/-- Number of descriptors of a launch (R20). -/
def Launch.tdcount (l : Launch) : Nat := l.desc.length / 64

/-- Physical tile register to which a group binds tile `t` (R242). -/
def Group.tile (g : Group) (t : Nat) : Nat := g.tiles.getD t 0

/-- The on-chip address of a physical offset into a core's scratchpad (R241). -/
def spadPa (core off : Nat) : Nat :=
  2 ^ 38 + dieOf core * 2 ^ 30 + 0x30000000 + core % 96 * 0x100000 + off

/-- The on-chip addresses of offsets into a core's tile registers, accumulator and side memory (R241). -/
def tilePa (core off : Nat) : Nat := spadPa core (0x80000 + off)
def accPa (core off : Nat) : Nat := spadPa core (0xC0000 + off)
def sidePa (core off : Nat) : Nat := spadPa core (0xE0000 + off)

/-- Bytes of an on-chip store other than a register file are written: a unit that lies among them whole is sound (R253). -/
def State.soundIn (s : State) (pa n : Nat) : State :=
  { s with poison := s.poison.filter fun u => !(pa ≤ u && u + 16 ≤ pa + n) }

/-- Lands one write in the group registers of the group in slot `g` of core `c` (R290, R294). -/
def landGroup (s : State) (c g : Nat) : WaveWrite → State
  | .tcfg t x =>
    let gr := s.group c g
    s.setGroup c g { gr with tcfg := cset gr.tcfg t x }
  | .tile t off bs =>
    let co := s.core c
    let base := Config.tileBytes * (s.group c g).tile t + off
    (s.soundIn (tilePa c base) bs.length).setCore c { co with tile := csetList co.tile base bs }
  | .tileAll t bs =>
    let co := s.core c
    let base := Config.tileBytes * (s.group c g).tile t
    (s.soundIn (tilePa c base) Config.tileBytes).setCore c
      { co with tile := cmerge (cclear co.tile base (base + Config.tileBytes)) base bs }
  | _ => s

/-- Does a write go to the group's storage, which outlives a wave that has ended (R127, R290)? -/
def WaveWrite.toGroup : WaveWrite → Bool
  | .tcfg _ _ => true
  | .tile _ _ _ => true
  | .tileAll _ _ => true
  | _ => false

/-- Lands one write of the wave in focus. -/
def landOne (s : State) (x : WaveWrite) : State :=
  match x with
  | .tcfg _ _ => landGroup s s.wave.core s.wave.gslot x
  | .tile _ _ _ => landGroup s s.wave.core s.wave.gslot x
  | .tileAll _ _ => landGroup s s.wave.core s.wave.gslot x
  | _ => { s with wave := landWave s.wave x }

/-- Lands writes of the wave in focus, in order. -/
def landAll (s : State) (xs : List WaveWrite) : State := xs.foldl landOne s

/-- The results of the wave in focus that have become due land (R88). -/
def landDue (s : State) : State :=
  landAll { s with wave := { s.wave with pend := s.wave.pend.filter fun p => s.clock < p.1 } }
    ((s.wave.pend.filter fun p => p.1 ≤ s.clock).map (·.2))

/-- A held instruction gives its results: at once as it issues, and otherwise with what is due, before the next instruction
(R88, R89). -/
def State.give (s : State) (ws : List WaveWrite) : State :=
  if s.wave.held.isNone then landAll s ws
  else { s with wave := { s.wave with pend := ws.foldl (fun l x => postAt l s.clock x) s.wave.pend } }

/-- Every result in flight of the wave in focus lands (R87). -/
def landEvery (s : State) : State :=
  landAll { s with wave := { s.wave with pend := [] } } (s.wave.pend.map (·.2))

/-- The wave in focus posts results that land `n` clocks from now. -/
def State.post (s : State) (n : Nat) (xs : List WaveWrite) : State :=
  { s with wave := { s.wave with pend := xs.foldl (fun l x => postAt l (s.clock + n) x) s.wave.pend } }

/-! ### The wave in focus -/

/-- Is this the wave of that core and slot? -/
def Wave.at_ (w : Wave) (c sl : Nat) : Bool := w.core == c && w.slot == sl

/-- The wave of a core and slot, if one is resident. -/
def State.findWave (s : State) (c sl : Nat) : Option Wave :=
  if s.wave.at_ c sl then some s.wave else s.waves.find? fun w => w.at_ c sl

/-- Every resident wave, the one in focus first. -/
def State.allWaves (s : State) : List Wave := s.wave :: s.waves

/-- Brings the wave of a core and slot into focus; no wave stands there: the state as it was. -/
def State.focus (s : State) (c sl : Nat) : State :=
  if s.wave.at_ c sl then s
  else
    match s.waves.find? fun w => w.at_ c sl with
    | none => s
    | some w => { s with wave := w, waves := s.wave :: s.waves.filter fun v => !v.at_ c sl, chosen := false }

/-- Changes the wave of a core and slot, wherever it stands. -/
def State.mapWave (s : State) (c sl : Nat) (f : Wave → Wave) : State :=
  if s.wave.at_ c sl then { s with wave := f s.wave }
  else { s with waves := s.waves.map fun w => if w.at_ c sl then f w else w }

/-- Changes every resident wave. -/
def State.mapWaves (s : State) (f : Wave → Wave) : State := { s with wave := f s.wave, waves := s.waves.map f }

/-- Replaces the wave in focus. -/
def State.setWave (s : State) (w : Wave) : State := { s with wave := w }

/-! ### Black box (R400) -/

/-- CLOCK as a die counts it: start-up aligns the dies to within 16 clocks (R118). -/
def State.dieClock (s : State) (d : Nat) : DWord := BitVec.ofNat 64 (s.clock + Config.clockSkew d % 16)

/-- Writes a record into a die's ring, with that die's CLOCK; the ring keeps 2,048. -/
def State.boxRecord (s : State) (d : Nat) (r : BoxRecord) : State :=
  let x := s.die d
  s.setDie d { x with box := ({ r with clock := (s.dieClock d).toNat } :: x.box).take 2048, wcount := x.wcount + 1 }

/-- The record of a wave's event. -/
def Wave.record (w : Wave) (kind code detail clock : Nat) (addr pc : DWord) : BoxRecord :=
  { kind := kind, code := code, detail := detail, core := w.core, wave := w.slot % 64, clock := clock, addr := addr,
    pc := pc }

/-- A record of a unit: no wave, no instruction. [DEDUCED, log 118] -/
def unitRecord (kind code detail clock : Nat) (addr : DWord) : BoxRecord :=
  { kind := kind, code := code, detail := detail, core := 0xFFFF, wave := 0xFF, clock := clock, addr := addr,
    pc := 0 }

/-- A deferred report reaches a wave: queued, or lost when the queue holds four (R385). -/
def State.report (s : State) (c sl : Nat) (r : Report) : State :=
  match s.findWave c sl with
  | none => s.boxRecord (dieOf c) { kind := 9, code := r.code, detail := r.detail, core := c, wave := sl % 64, clock := s.clock, addr := r.addr, pc := 0 }
  | some w =>
    if w.ended then s.boxRecord (dieOf c) (w.record 9 r.code r.detail s.clock r.addr w.pc)
    else if w.reports.length < 4 then s.mapWave c sl fun v => { v with reports := v.reports ++ [r] }
    else (s.mapWave c sl fun v => { v with lost := v.lost + 1 }).boxRecord (dieOf c)
      (w.record 12 r.code r.detail s.clock r.addr w.pc)

/-! ### Free numbers -/

/-- Takes the next free number. -/
def State.bump (s : State) : State := { s with fresh := s.fresh + 1 }

end Sys2Proof.Machine
end

