-- ==== Sys2Proof/Machine/Translate.lean ====
section
/-! DEFINITION. Physical addresses, placement words and the storage map, page tables and their walk, TLBs, and the
checks of kinds, permissions and geometry (R206 to R226). -/

namespace Sys2Proof.Machine

/-! ### Where a byte is stored (R207, R217) -/

/-- Frame space of R207. -/
def inFrame (pa : Nat) : Bool := pa < 2 ^ 38
/-- The on-chip physical map of R207. -/
def inChip (pa : Nat) : Bool := 2 ^ 38 ≤ pa && pa < 2 ^ 38 + 2 ^ 32
/-- Host memory of R207. -/
def inHost (pa : Nat) : Bool := 2 ^ 51 ≤ pa && pa < 2 ^ 52

/-- Fields of a placement word (R216). -/
def pwHd (pw : Word) : Nat := bits pw 30 29
def pwHome (pw : Word) : Nat := bits pw 28 27
def pwBkhash (pw : Word) : Nat := bits pw 26 24
def pwChn (pw : Word) : Nat := bits pw 23 22
def pwChsel (pw : Word) : Nat := bits pw 21 20
def pwUs (pw : Word) : Nat := 2 ^ (8 + bits pw 19 16)
def pwUd (pw : Word) : Nat := 2 ^ (8 + bits pw 7 4)
/-- The dies of DMASK, ascending. -/
def pwDies (pw : Word) : List Nat := (List.range 4).filter fun d => pw.getLsbD d
/-- The sites of SMASK, ascending. -/
def pwSites (pw : Word) : List Nat := (List.range 8).filter fun i => pw.getLsbD (8 + i)

/-- Where Store puts a byte (R217). -/
structure Place where
  die : Nat
  site : Nat
  y : Nat
  channel : Nat
  bank : Nat
  row : Nat
  col : Nat
  deriving DecidableEq, Repr

/-- The bank hashes of R217. -/
def bankHash (h b row : Nat) : Nat :=
  let r (i : Nat) : Nat := row / 2 ^ (4 * i) % 16
  match h with
  | 1 => b ^^^ r 0
  | 2 => b ^^^ r 0 ^^^ r 1
  | 3 => b ^^^ r 0 ^^^ r 2
  | 4 => b ^^^ r 0 ^^^ r 1 ^^^ r 2 ^^^ r 3
  | _ => b

/-- Store over a given list of dies (R217). -/
def storeOn (dd : List Nat) (p : Nat) (pw : Word) (o : Nat) : Place :=
  let es := pwSites pw
  let n := dd.length
  let m := es.length
  let ud := pwUd pw
  let us := pwUs pw
  let b := p % 2 ^ 36 / 8
  let w := o / (ud * n) * ud + o % ud
  let ws := w / (us * m) * us + w % us
  let y := if pwChsel pw = 2 then b + 1024 * (ws / 256) + 256 * pwChn pw + ws % 256 else b + ws
  let ch :=
    if pwChsel pw = 1 then (y / 256 ^^^ y / 65536 ^^^ y / 2 ^ 24) % 4 else y / 256 % 4
  let z := y / 1024 * 256 + y % 256
  { die := dd.getD (o / ud % n) 0, site := es.getD (w / us % m) 0, y := y, channel := ch,
    bank := bankHash (pwBkhash pw) (z / 2048 % 16) (z / 32768), row := z / 32768, col := z % 2048 }

/-- Store of R217; a replicated page is placed as on die `hd`, its sequencer. -/
def store (p : Nat) (pw : Word) (o : Nat) : Place :=
  storeOn (if pwHome pw = 2 then [pwHd pw] else pwDies pw) p pw o

/-- The storage key of a place: die, site and site offset. -/
def Place.key (x : Place) : Nat := x.die * 2 ^ 36 + x.site * 2 ^ 33 + x.y

/-- Bytes of a page by its PSIZE code (R223). -/
def pageBytes (psize : Nat) : Nat := 2 ^ (12 + 4 * psize)

/-- Table placement word of an anchor die (R212). -/
def tpw (a : Nat) : Word := BitVec.ofNat 32 (0x0010FF00 + 2 ^ a)

/-- Frame record of a physical address of frame space (R222). -/
def State.frameRec (s : State) (pa : Nat) : DWord := cget s.frames (pa / 4096)

/-- Fields of a frame record (R222). -/
def recHgen (r : DWord) : Nat := bits r 15 0
def recPw (r : DWord) : Word := BitVec.ofNat 32 (bits r 47 16)
def recSet (r : DWord) : Bool := r.getLsbD 50
def recPsize (r : DWord) : Nat := bits r 53 51

/-- Storage key of a byte that is reached by its physical address, without translation (R426, R436). -/
def State.physKey (s : State) (pa : Nat) : Nat :=
  if inHost pa then pa
  else
    let r := s.frameRec pa
    if recSet r then
      let sz := pageBytes (recPsize r)
      (store (pa / sz * sz) (recPw r) (pa % sz)).key
    else (store (pa / 4096 * 4096) (tpw (pa / 2 ^ 36)) (pa % 4096)).key

/-- The byte at a physical address; a local offset at or above the frames reads as 0 (R426). -/
def State.physByte (s : State) (pa : Nat) : Byte :=
  if inFrame pa && decide (Config.frameLimit ≤ pa % 2 ^ 36) then 0 else cget s.mem (s.physKey pa)

/-- `n` bytes at a physical address. -/
def State.physBytes (s : State) (pa : Nat) : Nat → List Byte
  | 0 => []
  | n + 1 => s.physByte pa :: s.physBytes (pa + 1) n

/-- The little-endian number in `n` bytes at a physical address. -/
def State.physNat (s : State) (pa n : Nat) : Nat := ofBytes (s.physBytes pa n)

/-! ### Page tables (R208 to R212) -/

/-- What a walk ends in. -/
inductive Walked where
  /-- A leaf: the translation of the address that was walked. -/
  | leaf (t : TransReg)
  /-- V = 0 at some level: a translation fault (R212, R229). -/
  | absent
  /-- A malformed entry: PROTECTION 5 (R210). -/
  | malformed
  /-- GEOMETRY with this detail (R211). -/
  | geometry (d : Nat)
  deriving DecidableEq, Repr

/-- The active move in which a physical address lies: its number, the move, the line, whether on the source side
(R236, R237). -/
def State.moveAt (s : State) (pa : Nat) : Option (Nat × Move × Nat × Bool) :=
  s.moves.findSome? fun (e, m) =>
    let sz := pageBytes m.psize
    if m.src ≤ pa && pa < m.src + sz then some (e, m, (pa - m.src) / 128, true)
    else if m.dst ≤ pa && pa < m.dst + sz then some (e, m, (pa - m.dst) / 128, false)
    else none

/-- Page of a translation: its first virtual address, its first physical address, its bytes. -/
def TransReg.vpage (t : TransReg) : Nat := t.vbase.toNat / pageBytes t.psize.toNat * pageBytes t.psize.toNat
def TransReg.ppage (t : TransReg) : Nat := t.pbase.toNat / pageBytes t.psize.toNat * pageBytes t.psize.toNat
def TransReg.bytes (t : TransReg) : Nat := pageBytes t.psize.toNat

/-- Where an access to frame space is performed: its physical address and storage key, after the redirection of R237;
none: the line is being copied. -/
def State.perform (s : State) (t : TransReg) (o : Nat) : Option (Nat × Nat) :=
  let pa := t.ppage + o
  match s.moveAt pa with
  | none => some (pa, (store t.ppage t.pw o).key)
  | some (_, m, i, onSrc) =>
    let oo := pa - (if onSrc then m.src else m.dst)
    if m.busy && i == m.pp then none
    else if i < m.pp then some (m.dst + oo, (store m.dst m.newPw oo).key)
    else some (m.src + oo, (store m.src m.oldPw oo).key)

/-- The placement word under which an access is performed, after the redirection of R237. -/
def State.performPw (s : State) (t : TransReg) (o : Nat) : Word :=
  match s.moveAt (t.ppage + o) with
  | none => t.pw
  | some (_, m, i, _) => if i < m.pp then m.newPw else m.oldPw

/-- The home die of a line under a placement word, from its storage key (R219). -/
def homeOf (pw : Word) (key : Nat) : Nat := if pwHome pw = 1 || pwHome pw = 2 then pwHd pw else key / 2 ^ 36 % 4

/-- The binding of the module that holds a physical address of frame space, with its core and the physical
scratchpad offset of the byte (R246). -/
def State.boundAt (s : State) (pa : Nat) : Option (Nat × Nat) :=
  s.cores.findSome? fun (c, x) => x.smap.findSome? fun b =>
    let p0 := b.tr.ppage + (b.vbase.toNat - b.tr.vpage)
    if p0 ≤ pa && pa < p0 + 256 * b.len then
      some (c, (s.group c b.grp).spadBase + 1024 * b.spoff + (pa - p0))
    else none

/-- The binding that holds a physical address; inside an active move it may be known by either side (R238, R246). -/
def State.boundFor (s : State) (pa : Nat) : Option (Nat × Nat) :=
  match s.moveAt pa with
  | none => s.boundAt pa
  | some (_, m, _, onSrc) =>
    let oo := pa - (if onSrc then m.src else m.dst)
    (s.boundAt (m.src + oo)).orElse fun _ => s.boundAt (m.dst + oo)

/-- Sets the ACC bit, and for a write the DIRTY bit, of a frame record (R222). -/
def State.markRec (s : State) (pa : Nat) (wr : Bool) : State :=
  let r := s.frameRec pa ||| (BitVec.ofNat 64 (2 ^ 48 + (if wr then 2 ^ 49 else 0)))
  { s with frames := cset s.frames (pa / 4096) r }

/-- First use of a frame: its record takes the placement word and the page size (R222). -/
def State.claimRec (s : State) (pa : Nat) (t : TransReg) : State :=
  let r := s.frameRec pa
  if recSet r then s
  else
    let x := BitVec.ofNat 64 (r.toNat % 2 ^ 16 + 2 ^ 16 * t.pw.toNat + 2 ^ 48 * bits r 49 48 + 2 ^ 50 +
      2 ^ 51 * t.psize.toNat)
    { s with frames := cset s.frames (pa / 4096) x }

/-- The 4 KiB of a page table of frame space, placed under TPW (R212). -/
def tablePage (base : Nat) : TransReg :=
  { TransReg.reset with pw := tpw (base / 2 ^ 36 % 4), pbase := BitVec.ofNat 52 base, valid := true }

/-! ### What a line holds (R370, R372) -/

/-- The bytes of a line that are newer than its storage: a copy in M or O on another die, or data on their way. -/
def State.newest (s : State) (line : Nat) : Option (List Byte) :=
  let copy := (List.range 4).findSome? fun d => (tfind s.copies (2 ^ 40 * d + line)).bind fun c =>
    if c.state == .m || c.state == .o then some c.data else none
  copy.orElse fun _ => s.msgs.findSome? fun m =>
    if m.line != line then none
    else match m.kind with
      | .data .m bs => some bs
      | .wbdata bs => some bs
      | _ => none

/-- The bytes of a line from a storage key on, as its performing point holds them. -/
def State.valueAt (s : State) (key n : Nat) : List Byte :=
  match s.newest (key / 128) with
  | none => cgetList s.mem key n
  | some bs => (bs.drop (key % 128)).take n

/-- The byte of a table of frame space as an access by the walker finds it: forwarded to a binding, redirected by a move
(R212, R237, R246); while its line is being copied, the old one. -/
def State.tableByte (s : State) (base o : Nat) : Byte :=
  let t := tablePage base
  match s.boundFor (base + o) with
  | some (c, at_) => cget (s.core c).spad at_
  | none => (s.valueAt ((s.perform t o).getD (base + o, (store base t.pw o).key)).2 1).headD 0

/-- The 128 bits of entry `i` of the table at `base`: in frame space under TPW (R212). -/
def State.tableEntry (s : State) (base i : Nat) : Nat :=
  if inHost base then s.physNat (base + 16 * i) 16
  else ofBytes ((List.range 16).map fun j => s.tableByte base (16 * i + j))

/-- Does the record of a table's frame hold another placement word or page size (R222)? -/
def State.tableRefused (s : State) (base : Nat) : Bool :=
  let r := s.frameRec base
  inFrame base && recSet r && (recPw r != (tablePage base).pw || recPsize r != 0)

/-- Fields of an entry (R209). -/
def pteV (e : Nat) : Bool := nbit e 0
def pteLeaf (e : Nat) : Bool := nbit e 1
def pteKind (e : Nat) : Nat := e / 4 % 4
def pteContig (e : Nat) : Bool := nbit e 8
def pteFrame (e : Nat) : Nat := e / 2 ^ 12 % 2 ^ 40 * 4096
def ptePerm (e : Nat) : Nat := e / 16 % 8
def pteGen (e : Nat) : Nat := e / 2 ^ 64 % 2 ^ 16
def ptePw (e : Nat) : Nat := e / 2 ^ 96 % 2 ^ 32

/-- A set reserved bit (R209). -/
def pteReserved (e : Nat) : Bool :=
  e / 2 ^ 80 % 2 ^ 16 != 0 || e / 2 ^ 52 % 2 ^ 12 != 0 || e / 2 ^ 9 % 8 != 0

/-- Leaf bytes at a level, without CONTIG (R208). -/
def leafBytes (level : Nat) : Nat := 2 ^ (12 + 8 * level)

/-- A malformed entry at a level (R210). -/
def pteMalformed (level e : Nat) : Bool :=
  pteReserved e ||
    (if pteLeaf e then decide (3 ≤ level) || pteFrame e % leafBytes level != 0
     else level == 0 || e / 4 % 2 ^ 7 != 0 || pteGen e != 0 || ptePw e != 0 || !inFrame (pteFrame e))

/-- Bits of an entry in which the members of a contiguous group must agree: KIND, permissions, RC, GEN, PW and the
validity bits (R211). -/
def pteAgree (e : Nat) : Nat := e % 2 ^ 9 + 2 ^ 9 * (pteGen e + 2 ^ 16 * ptePw e)

/-- Do the 16 entries from `16 j` on form a contiguous group (R211)? [DEDUCED, log 42] -/
def State.contigOk (s : State) (base j level : Nat) : Bool :=
  let e0 := s.tableEntry base (16 * j)
  pteFrame e0 % (16 * leafBytes level) == 0 &&
    (List.range 16).all fun i =>
      let e := s.tableEntry base (16 * j + i)
      pteAgree e == pteAgree e0 && !pteReserved e && pteFrame e == pteFrame e0 + i * leafBytes level

/-- The translation that a leaf at a level gives an address (R211, R223). -/
def leafReg (level e : Nat) (f0 : Nat) (contig : Bool) (va : Nat) : TransReg :=
  let psize := 2 * level + (if contig then 1 else 0)
  let sz := pageBytes psize
  { limit := BitVec.ofNat 33 (sz - va % sz), gen := BitVec.ofNat 16 (pteGen e), pw := BitVec.ofNat 32 (ptePw e),
    valid := true, stale := false, rc := nbit e 7, perm := BitVec.ofNat 3 (ptePerm e),
    kind := BitVec.ofNat 2 (pteKind e), psize := BitVec.ofNat 4 psize,
    pbase := BitVec.ofNat 52 (f0 + va % sz), vbase := BitVec.ofNat 52 va }

/-- What an entry met at a level gives; none: the walk goes on at the next table. -/
def State.walkEntry (s : State) (base va level : Nat) : Option Walked :=
  let i := va / 2 ^ (12 + 8 * level) % 256
  let e := s.tableEntry base i
  if s.tableRefused base then some (.geometry 2)
  else if !pteV e then some .absent
  else if pteMalformed level e then some .malformed
  else if pteLeaf e then
    if pteContig e then
      if s.contigOk base (i / 16) level then
        some (.leaf (leafReg level e (pteFrame (s.tableEntry base (i / 16 * 16))) true va))
      else some (.geometry 4)
    else some (.leaf (leafReg level e (pteFrame e) false va))
  else none

/-- The table that the entry of an address at a level names. -/
def State.nextTable (s : State) (base va level : Nat) : Nat :=
  pteFrame (s.tableEntry base (va / 2 ^ (12 + 8 * level) % 256))

/-- The walk from the table at `base` on, downward from a level (R208). -/
def State.walkFrom (s : State) (base va : Nat) : Nat → Walked
  | 0 => (s.walkEntry base va 0).getD .malformed
  | l + 1 =>
    match s.walkEntry base va (l + 1) with
    | some w => w
    | none => s.walkFrom (s.nextTable base va (l + 1)) va l

/-- A walk of the page tables (R208). -/
def State.walk (s : State) (va : Nat) : Walked := s.walkFrom s.mgmt.ptroot.toNat va 4

/-- The tables a walk goes through below level 4: level, the address above it, table (R225). -/
def State.walkTables (s : State) (base va : Nat) : Nat → List (Nat × Nat × Nat)
  | 0 => []
  | l + 1 =>
    if (s.walkEntry base va (l + 1)).isSome then []
    else
      let b := s.nextTable base va (l + 1)
      (l, va / 2 ^ (20 + 8 * l), b) :: s.walkTables b va l

/-- The walk-cache entry of a die that reaches lowest for an address. -/
def Die.walkHit (d : Die) (va : Nat) : Option (Nat × Nat × Nat) :=
  [0, 1, 2, 3].findSome? fun l => d.walk.find? fun e => e.1 == l && e.2.1 == va / 2 ^ (20 + 8 * l)

/-- PTROOT names a reserved physical address (R207; R436: it holds one in frame space or host memory). [DEDUCED, log 16] -/
def State.rootReserved (s : State) : Bool := !inFrame s.mgmt.ptroot.toNat && !inHost s.mgmt.ptroot.toNat

/-! ### TLBs (R225) -/

/-- Does the page of `t` hold the address? -/
def TransReg.covers (t : TransReg) (va : Nat) : Bool := t.vpage ≤ va && va < t.vpage + t.bytes

/-- The same translation, for another address of its page. -/
def TransReg.moveTo (t : TransReg) (va : Nat) : TransReg :=
  { t with limit := BitVec.ofNat 33 (t.bytes - va % t.bytes),
           pbase := BitVec.ofNat 52 (t.ppage + va % t.bytes), vbase := BitVec.ofNat 52 va }

/-- A walk made for a die, from its walk cache where that holds an entry and the free value says it is still held; an entry
that leads where the tables lead makes no difference, and the free value is not asked. -/
def State.walkVia (s : State) (d va : Nat) : State × Walked :=
  let x := s.die d
  match x.walkHit va with
  | some (l, _, b) =>
    if s.walkFrom b va l = s.walk va then (s, s.walk va)
    else if Config.keep s.fresh then (s.bump, s.walkFrom b va l)
    else ((s.setDie d { x with walk := [] }).bump, s.walk va)
  | none => (s.setDie d { x with walk := (s.walkTables s.mgmt.ptroot.toNat va 4 ++ x.walk).take 32 }, s.walk va)

/-- The tables of frame space that a walk reads. -/
def State.tablesOf (s : State) (va : Nat) : List Nat :=
  let root := s.mgmt.ptroot.toNat
  (root :: (s.walkTables root va 4).map fun x => x.2.2).filter inFrame

/-- The walker's reads claim the records of the tables' frames and set ACC (R222). -/
def State.walkMarks (s : State) (va : Nat) : State :=
  (s.tablesOf va).foldl (fun s b => if s.tableRefused b then s else (s.claimRec b (tablePage b)).markRec b false) s

/-- A walk whose leaf fills a core's TLB and its die's TLB (R225). -/
def State.walkFill (s : State) (core va : Nat) : State × Walked :=
  match (s.walkMarks va).walkVia (dieOf core) va with
  | (s, .leaf t) =>
    let s := s.setCore core { s.core core with tlb := (t :: (s.core core).tlb).take 64 }
    (s.setDie (dieOf core) { s.die (dieOf core) with tlb := (t :: (s.die (dieOf core)).tlb).take 4096 }, .leaf t)
  | r => r

/-- Translates an address for a core: through its TLB, the die's TLB, or a walk, which fills both. Which entries are
still held is open (R225), so an entry that differs from the page tables counts only when the free value says so. -/
def State.translate (s : State) (core va : Nat) : State × Walked :=
  let c := s.core core
  let d := s.die (dieOf core)
  match c.tlb.find? fun t => t.covers va with
  | some t =>
    if s.walk va = .leaf (t.moveTo va) then (s, .leaf (t.moveTo va))
    else if Config.keep s.fresh then (s.bump, .leaf (t.moveTo va))
    else
      ((s.setCore core { c with tlb := c.tlb.filter fun t => !t.covers va }).bump).walkFill core va
  | none =>
    match d.tlb.find? fun t => t.covers va with
    | some t =>
      if s.walk va = .leaf (t.moveTo va) then (s, .leaf (t.moveTo va))
      else if Config.keep s.fresh then (s.bump, .leaf (t.moveTo va))
      else
        ((s.setDie (dieOf core) { d with tlb := d.tlb.filter fun t => !t.covers va }).bump).walkFill core va
    | none => s.walkFill core va

/-- Removes from a core's TLB and its die's TLB the entries that hold an address (R227). -/
def State.dropTlb (s : State) (core va : Nat) : State :=
  let s := s.setCore core { s.core core with tlb := (s.core core).tlb.filter fun t => !t.covers va }
  s.setDie (dieOf core) { s.die (dieOf core) with tlb := (s.die (dieOf core)).tlb.filter fun t => !t.covers va }

/-! ### Kinds, permissions and geometry (R214, R215, R218) -/

/-- Accesses that R214 tells apart. -/
inductive Access where
  /-- A load. -/
  | load
  /-- A store or an update that returns nothing. -/
  | store
  /-- A returning atomic or CAS. -/
  | atomic
  /-- An instruction fetch. -/
  | fetch
  deriving DecidableEq, Repr

/-- PROTECTION detail of an access to a page with these permissions and kind, if R214 refuses it. -/
def permFail (t : TransReg) (a : Access) : Option Nat :=
  let r := t.perm.getLsbD 0
  let w := t.perm.getLsbD 1
  let x := t.perm.getLsbD 2
  match a with
  | .load => if r || t.kind == 3 then none else some 1
  | .store => if w || t.kind == 3 then none else some 2
  | .atomic => if (r && w) || t.kind == 3 then none else some 2
  | .fetch => if x && (t.kind == 0 || t.kind == 1) then none else some 3

/-- GEOMETRY detail 1 or 3 of a leaf, if R218 refuses it. -/
def geomFail (t : TransReg) : Option Nat :=
  let pw := t.pw
  let p := t.ppage
  let sz := t.bytes
  let n := (pwDies pw).length
  let m := (pwSites pw).length
  if t.kind == 3 then none
  else if t.kind != 2 && inChip p then (if t.kind == 0 && pw == 0 then none else some 3)
  else if pw.getLsbD 31 || pwChsel pw == 3 || 5 ≤ pwBkhash pw || (pwChn pw != 0 && pwChsel pw != 2) then some 1
  else if t.kind == 2 then (if inHost p && pw == BitVec.ofNat 32 (3 * 2 ^ 27) then none else some 3)
  else if !inFrame p then some 3
  else
    let nn := if pwHome pw = 2 then 1 else n
    let share := sz / (nn * m)
    let top := if pwChsel pw = 2 then 1024 * ((share - 1) / 256) + 256 * pwChn pw + 255 else share - 1
    let grain := max (max 4096 (8 * sz / (n * m))) (if pwChsel pw = 2 then 8192 else 0)
    if (n == 1 || n == 2 || n == 4) && (m == 1 || m == 2 || m == 4 || m == 8) &&
        (pwDies pw).contains (p / 2 ^ 36) && pwUd pw * n ≤ sz && pwUs pw * m ≤ sz / n &&
        p % 2 ^ 36 % grain == 0 && p % 2 ^ 36 < Config.frameLimit && p % 2 ^ 36 / 8 + top < Config.siteLimit &&
        (pwHome pw == 0 || ((pwHome pw == 1 || pwHome pw == 2) && (pwDies pw).contains (pwHd pw))) &&
        (pwHome pw != 2 || bits pw 7 4 == 0)
    then none else some 3

/-- The slice of a physical address on its home die (R219). -/
def sliceOf (pa : Nat) : Nat :=
  let x := pa / 128
  let f (i : Nat) : Nat := x / 2 ^ (5 * i) % 32
  f 0 ^^^ f 1 ^^^ f 2 ^^^ f 3 ^^^ f 4 ^^^ f 5

end Sys2Proof.Machine
end

