-- ==== Sys2Proof/Machine/Access.lean ====
section
/-! DEFINITION. Storage as the accesses of waves and engines meet it: the scratchpad and its live objects, the
on-chip map, and one access at its home, with generations, frame records, moves, seals, leases, bindings, replicas
and the host bridge (R220, R222, R227, R237, R241 to R253, R376 to R378). -/

namespace Sys2Proof.Machine

/-! ### Scratchpad, live objects, bindings (R244 to R247, R274) -/

/-- Does `[a, a+n)` meet `[b, b+m)`? -/
def meets (a n b m : Nat) : Bool := a < b + m && b < a + n

/-- The 16 bytes of a live object (R274). -/
def BarrierObj.content (o : BarrierObj) : List Byte :=
  toBytes o.expcnt.toNat 2 ++ [0, 0] ++ toBytes o.arrcnt.toNat 2 ++ toBytes o.phase.toNat 2 ++
    toBytes o.expbytes.toNat 4 ++ toBytes o.arrbytes.toNat 4

/-- The live object at an offset of a group, if there is one. -/
def State.findObj (s : State) (c g off : Nat) : Option BarrierObj :=
  (s.core c).objs.find? fun o => o.gslot == g && o.off == off

/-- Does a range of a group's scratchpad hold a byte of a live object? -/
def State.hitsObj (s : State) (c g off n : Nat) : Bool :=
  (s.core c).objs.any fun o => o.gslot == g && meets off n o.off 16

/-- Reads bytes at a physical scratchpad offset. -/
def State.spadRead (s : State) (c at_ n : Nat) : List Byte := cgetList (s.core c).spad at_ n

/-- Marks the lines of a binding that a write at a physical scratchpad offset touches (R247). -/
def Binding.touch (b : Binding) (base at_ n : Nat) : Binding :=
  let p0 := base + 1024 * b.spoff
  if meets at_ n p0 (256 * b.len) then
    let lines := (List.range n).map fun i => (at_ + i - p0) / 128
    { b with dirty := lines.foldl sput b.dirty }
  else b

/-- Writes bytes at a physical scratchpad offset, by the device itself. -/
def State.spadPut (s : State) (c at_ : Nat) (bs : List Byte) : State :=
  let x := s.core c
  s.setCore c { x with
    spad := csetList x.spad at_ bs,
    smap := x.smap.map fun b => b.touch (s.group c b.grp).spadBase at_ bs.length }

/-- Writes bytes of a group's scratchpad, by any means other than the instructions and completions of barrier objects:
bytes of a live object keep their value (R274). -/
def State.spadWrite (s : State) (c g off : Nat) (bs : List Byte) : State :=
  let base := (s.group c g).spadBase
  if s.hitsObj c g off bs.length then
    (List.range bs.length).foldl
      (fun s i => if s.hitsObj c g (off + i) 1 then s else s.spadPut c (base + off + i) [bs.getD i 0]) s
  else s.spadPut c (base + off) bs

/-- Replaces a live object and the bytes that show it. -/
def State.putObj (s : State) (c : Nat) (o : BarrierObj) : State :=
  let x := s.core c
  (s.setCore c { x with objs := x.objs.map fun p => if p.gslot == o.gslot && p.off == o.off then o else p }).spadPut c
    ((s.group c o.gslot).spadBase + o.off) o.content

/-! ### The on-chip map (R241, R243) -/

/-- What an on-chip address names. -/
inductive ChipPlace where
  /-- Byte `f` of a wave's register window. -/
  | window (core slot f : Nat)
  /-- Scratchpad. -/
  | spad (core off : Nat)
  /-- Tile registers. -/
  | tile (core off : Nat)
  /-- Accumulator memory. -/
  | acc (core off : Nat)
  /-- Sparsity side memory. -/
  | side (core off : Nat)
  /-- A Geode. -/
  | geode (die g off : Nat)
  /-- A reserved offset. -/
  | reserved
  deriving DecidableEq, Repr

/-- The layout of R241: four dies of 1 GiB from 2^38 on. -/
def chipPlace (pa : Nat) : ChipPlace :=
  let d := pa / 2 ^ 30 % 4
  let o := pa % 2 ^ 30
  if o < 0x30000000 then .window (96 * d + o / 0x800000) (o % 0x800000 / 0x20000) (o % 0x20000)
  else if o < 0x36000000 then
    let c := 96 * d + (o / 0x100000 - 768)
    let r := o % 0x100000
    if r < 0x80000 then .spad c r
    else if r < 0xC0000 then .tile c (r % 0x40000)
    else if r < 0xE0000 then .acc c (r % 0x20000)
    else if r < 0xE4000 then .side c (r % 0x4000)
    else .reserved
  else if 0x38000000 ≤ o && o < 0x3A000000 then .geode d (o / 0x200000 - 448) (o % 0x200000)
  else .reserved

/-- The word of a wave's rounded footprint at word index `i` (R241). -/
def Wave.footWord (w : Wave) (i : Nat) : Word :=
  let r := i / w.width
  let L := i % w.width
  if r < w.vregs then cget w.v (64 * r + L)
  else if r < w.vregs + w.pwords then cget w.pool (64 * (r - w.vregs) + L)
  else cget w.slack i

/-- Writes the word of a wave's rounded footprint at word index `i`. -/
def Wave.setFootWord (w : Wave) (i : Nat) (x : Word) : Wave :=
  let w := { w with vbad := sdel w.vbad i }
  let r := i / w.width
  let L := i % w.width
  if r < w.vregs then { w with v := cset w.v (64 * r + L) x }
  else if r < w.vregs + w.pwords then { w with pool := cset w.pool (64 * (r - w.vregs) + L) x }
  else { w with slack := cset w.slack i x }

/-- Bytes of a slot under a value of GCFG (R317). -/
def slotBytes (gcfg : Word) : Nat := 16384 * (bits gcfg 3 0 + 1)

/-- Does a store at byte `o` of a Geode draw PROTECTION 14: in bytes 0 to 127 of a header, or in a slot that is not SHADING
(R320)? -/
def State.geodeShut (s : State) (d g o : Nat) : Bool :=
  let x := s.die d
  let sz := slotBytes x.gcfg
  let slot := tget { serial := 0, grid := none, vc := [] } (tget Geode.reset x.geodes g).slots (o / sz)
  let shading : Bool := match slot.grid.bind fun h => tfind x.grids h with
    | some gr => gr.state == 2
    | none => false
  o % sz < 128 || decide (bits x.gcfg 16 10 ≤ o / sz) || !shading

/-- Does an on-chip access of `n` bytes draw the error response of R243? -/
def State.chipBad (s : State) (pa n : Nat) : Bool :=
  match chipPlace pa with
  | .window c sl f =>
    sl == 15 || n % 4 != 0 || f % 4 != 0 ||
      match s.findWave c sl with
      | none => true
      | some w => w.idle || w.priv || 2048 * w.granules < f + n
  | .tile _ o => n % 4 != 0 || o % 4 != 0
  | .geode _ _ o => decide (2 ^ 21 - 2 ^ 14 < o + n)
  | .reserved => true
  | _ => false

/-- Bytes of an on-chip access that draws no error response. -/
def State.chipRead (s : State) (pa n : Nat) : List Byte :=
  match chipPlace pa with
  | .window c sl f =>
    match s.findWave c sl with
    | none => List.replicate n 0
    | some w => (List.range n).map fun i => (toBytes (w.footWord ((f + i) / 4)).toNat 4).getD ((f + i) % 4) 0
  | .spad c o => cgetList (s.core c).spad o n
  | .tile c o => cgetList (s.core c).tile o n
  | .acc c o => cgetList (s.core c).acc o n
  | .side c o => cgetList (s.core c).side o n
  | .geode d g o => cgetList (tget Geode.reset (s.die d).geodes g).bytes o n
  | .reserved => List.replicate n 0

/-- The live object that a write at a physical scratchpad offset would touch. -/
def State.objAtPhys (s : State) (c at_ n : Nat) : Option BarrierObj :=
  (s.core c).objs.find? fun o => meets at_ n ((s.group c o.gslot).spadBase + o.off) 16

/-- The four-byte words of a list of bytes. -/
def wordsOf : List Byte → List Word
  | a :: b :: c :: d :: bs => (d ++ c ++ b ++ a) :: wordsOf bs
  | _ => []

/-- Writes by an on-chip access that draws no error response. -/
def State.chipWrite (s : State) (pa : Nat) (bs : List Byte) : State :=
  match chipPlace pa with
  | .window c sl f =>
    s.mapWave c sl fun w => ((wordsOf bs).foldl (fun p x => (p.1.setFootWord p.2 x, p.2 + 1)) (w, f / 4)).1
  | .spad c o => s.spadPut c o bs
  | .tile c o => s.setCore c { s.core c with tile := csetList (s.core c).tile o bs }
  | .acc c o => s.setCore c { s.core c with acc := csetList (s.core c).acc o bs }
  | .side c o => s.setCore c { s.core c with side := csetList (s.core c).side o bs }
  | .geode d g o =>
    let x := s.die d
    let ge := tget Geode.reset x.geodes g
    s.setDie d { x with geodes := tset x.geodes g { ge with bytes := csetList ge.bytes o bs } }
  | .reserved => s

/-! ### One access at its home -/

/-- What an access meets at its home. -/
inductive Got where
  /-- Performed: the state after it, the bytes as they stood before it, whether a unit it read is poisoned. -/
  | ok (s : State) (bs : List Byte) (poison : Bool)
  /-- Not performed yet: held by a generation, a moving line, a lease, replicas, the host. The state may record what
  the home has asked for meanwhile. -/
  | wait (s : State)
  /-- Refused by a newer generation (R227). -/
  | refused
  /-- An error response: trap code, detail, and the address where it is not the access's own (R234, R275). -/
  | err (code detail : Nat) (addr : Option Nat := none)

/-- Bytes of the unit of error correction that holds a key (R252): a word of a register file, else 16 bytes. -/
def unitLen (key : Nat) : Nat := if inChip key && key % 2 ^ 30 < 0x30000000 then 4 else 16

/-- The first key of the unit that holds a key. -/
def unitAt (key : Nat) : Nat := key / unitLen key * unitLen key

/-- The units that a range of keys touches. -/
def unitsOf (key n : Nat) : List Nat := (List.range n).foldl (fun l i => sput l (unitAt (key + i))) []

/-- The word of a register file that a unit is: core, slot, word index (R241). -/
def regUnit (u : Nat) : Option (Nat × Nat × Nat) :=
  if inChip u then
    match chipPlace u with
    | .window c sl f => some (c, sl, f / 4)
    | _ => none
  else none

/-- The on-chip address of a word of a wave's register file (R241). -/
def regPa (core slot i : Nat) : Nat :=
  2 ^ 38 + dieOf core * 2 ^ 30 + core % 96 * 0x800000 + slot * 0x20000 + 4 * i

/-- Is a unit poisoned (R253)? -/
def State.isBad (s : State) (u : Nat) : Bool :=
  match regUnit u with
  | some (c, sl, i) => (s.findWave c sl).any fun w => w.vbad.contains i
  | none => s.poison.contains u

/-- A unit is marked poisoned. -/
def State.setBad (s : State) (u : Nat) : State :=
  match regUnit u with
  | some (c, sl, i) => s.mapWave c sl fun w => { w with vbad := sput w.vbad i }
  | none => { s with poison := sput s.poison u }

/-- The first poisoned unit in a range. -/
def State.badIn (s : State) (pa n : Nat) : Option Nat := if s.poison.isEmpty then none else (unitsOf pa n).find? s.isBad

/-- Is a unit in the range poisoned? -/
def State.poisoned (s : State) (key n : Nat) : Bool := (unitsOf key n).any s.isBad

/-- Writing a whole unit clears its poison (R253); a word of a register file does so itself. -/
def State.clean (s : State) (key n : Nat) : State :=
  { s with poison := s.poison.filter fun u => !(key ≤ u && u + unitLen u ≤ key + n) }

/-- Writes bytes to storage from a key on. -/
def State.putMem (s : State) (key : Nat) (bs : List Byte) : State :=
  let s := s.clean key bs.length
  { s with mem := csetList s.mem key bs }

/-! ### The directory and the copies on other dies (R370 to R375) -/

/-- The default entry of a line in the directory. -/
def dirReset : DirEntry :=
  { pa := 0, home := 0, state := .u, host := false, busy := none, acks := 0, queue := [], used := 0 }

/-- The directory entry of a storage line. -/
def State.dirAt (s : State) (line : Nat) : DirEntry := tget dirReset s.dir line

/-- Replaces a line's entry at its home; one in U that records nothing is no entry. -/
def State.setDir (s : State) (line : Nat) (d : DirEntry) : State :=
  let none_ := d.state == .u && !d.host && d.busy.isNone && d.queue.isEmpty
  { s with dir := if none_ then tdel s.dir line else tset s.dir line { d with used := s.clock } }

/-- The state of a die's copy of a line (R372). -/
def State.copyAt (s : State) (die line : Nat) : LineState := (tget { state := .i, data := [] } s.copies (2 ^ 40 * die + line)).state

/-- Sets a die's copy of a line. -/
def State.setCopy (s : State) (die line : Nat) (x : LineState) (bs : List Byte) : State :=
  let k := 2 ^ 40 * die + line
  { s with copies := if x == .i then tdel s.copies k else tset s.copies k { state := x, data := bs } }

/-- Changes the state of a die's copy, which keeps its bytes. -/
def State.turnCopy (s : State) (die line : Nat) (x : LineState) : State :=
  s.setCopy die line x (tget { state := .i, data := [] } s.copies (2 ^ 40 * die + line)).data

/-- Dies of a mask, ascending, without `r`. -/
def maskDies (m : BitVec 4) (r : Nat) : List Nat := (List.range 4).filter fun d => m.getLsbD d && d != r

/-- A mask with a die more, or less. -/
def maskAdd (m : BitVec 4) (d : Nat) : BitVec 4 := m ||| BitVec.ofNat 4 (2 ^ (d % 4))
def maskDel (m : BitVec 4) (d : Nat) : BitVec 4 := m &&& ~~~BitVec.ofNat 4 (2 ^ (d % 4))

/-- Is a transaction of the line open, or a message about it on its way (R375)? -/
def State.lineBusy (s : State) (line : Nat) : Bool := (s.dirAt line).busy.isSome || s.msgs.any fun m => m.line == line

/-- Does a host copy stand in the way of a write (R378)? The home then asks for both halves back. -/
def State.hostHolds (s : State) (line : Nat) : Bool := (s.dirAt line).host

/-- The home asks the host for both halves of a line (R378). -/
def State.askHost (s : State) (line : Nat) : State :=
  if (tget [] s.bisnp line).isEmpty then { s with bisnp := tset s.bisnp line [0, 1] } else s

/-- Has a die's slice recorded a lease of the line that has not expired (R249, R374)? -/
def State.leasedAt (s : State) (die line : Nat) : Bool := decide (s.clock < tget 0 s.leases (2 ^ 40 * die + line))

/-- Does a recorded lease hold a write of the line back (R250, R374)? -/
def State.leased (s : State) (line : Nat) : Bool := (List.range 4).any fun d => s.leasedAt d line

/-- Every copy on another die is invalidated or recalled: storage has the line's value, and its state is U (R373). -/
def State.callBack (s : State) (line : Nat) : State :=
  match tfind s.dir line with
  | none => s
  | some d =>
    let s := match s.newest line with
      | some bs => { s with mem := csetList s.mem (128 * line) bs }
      | none => s
    State.setDir { s with copies := s.copies.filter fun p => p.1 % 2 ^ 40 != line } line { d with state := .u }

/-- The entries of the set of a line in the snoop filter of its slice: 16 ways of 1,024 sets (R375). -/
def State.filterSet (s : State) (pa home : Nat) : List (Nat × DirEntry) :=
  s.dir.filter fun e => e.2.home == home && sliceOf e.2.pa == sliceOf pa &&
    Config.filterSet (e.2.pa / 128) % 1024 == Config.filterSet (pa / 128) % 1024

/-- A line's entry at its home, the least recently used of a full set evicted first (R375); the records of a race-checked line
go with its entry (R366). It waits where the evicted line's transaction, leases or host copy make it wait. -/
def State.makeRoom (s : State) (line pa home : Nat) : Except State State :=
  if (tfind s.dir line).isSome || s.dir.length < 16 then .ok s
  else
    let set := s.filterSet pa home
    if set.length < 16 then .ok s
    else
      let lru := set.foldl (fun b e => match b with
        | none => some e
        | some x => if e.2.used < x.2.used then some e else some x) (none : Option (Nat × DirEntry))
      match lru with
      | none => .ok s
      | some (v, d) =>
        if d.host then .error (s.askHost v)
        else if s.lineBusy v || s.leased v then .error s
        else
          let s := s.callBack v
          .ok { s with races := tdel s.races v }

/-- The leases that a line's home has recorded hold back the writes at the slice that becomes its performing point too (R370,
R374). -/
def State.carryLease (s : State) (home die line : Nat) : State :=
  let e := tget 0 s.leases (2 ^ 40 * home + line)
  if e ≤ s.clock then s
  else { s with leases := tset s.leases (2 ^ 40 * die + line) (max e (tget 0 s.leases (2 ^ 40 * die + line))) }

/-- A line is made ready for a load by die `r` (R373, R374): a die that holds no copy gets one from the home or the owner, in the
state that its row gives. `only` says that R371 allows S alone. -/
def State.readLine (s : State) (r line pa home : Nat) (only : Bool) : Except State State :=
  if s.lineBusy line then .error s
  else if r == home || s.copyAt r line != .i then .ok s
  else
    match s.makeRoom line pa home with
    | .error t => .error t
    | .ok s =>
      let owned : Bool := match (s.dirAt line).state with
        | .em _ => true
        | .o _ _ => true
        | _ => false
      if only && owned && s.leased line then .error s
      else
        let s := if only && owned then s.callBack line else s
        let d := { s.dirAt line with pa := pa, home := home }
        let bs := s.valueAt (128 * line) 128
        let share (s : State) (st : DirState) : State := (s.setCopy r line .s bs).setDir line { d with state := st }
        .ok (match d.state with
          | .u =>
            if only then share s (.s (maskAdd 0 r))
            else (((s.setCopy r line .e bs).setDir line { d with state := .em r }).carryLease home r line).markRec pa true
          | .s m => share s (.s (maskAdd m r))
          | .em o =>
            if s.copyAt o line == .m then share (s.turnCopy o line .o) (.o o (maskAdd 0 r))
            else share (s.turnCopy o line .s) (.s (maskAdd (maskAdd 0 o) r))
          | .o o m => share s (.o o (maskAdd m r)))

/-- A line is made ready for a write by die `r` (R373, R374), which no recorded lease holds back: it is performed in the copy of
the die that is answered, or, with none, at the home once no copy is left on another die. -/
def State.ownLine (s : State) (r line pa home : Nat) (only : Bool) : Except State (State × Option Nat) :=
  if s.lineBusy line then .error s
  else if s.leased line then .error { s with waitWrites := sput s.waitWrites line }
  else if r == home || only then .ok (s.callBack line, none)
  else if s.copyAt r line == .m || s.copyAt r line == .e then .ok (s, some r)
  else
    match s.makeRoom line pa home with
    | .error t => .error t
    | .ok s =>
      let bs := s.valueAt (128 * line) 128
      let s := { s with copies := s.copies.filter fun p => p.1 % 2 ^ 40 != line }
      .ok ((s.setCopy r line .m bs).setDir line { s.dirAt line with pa := pa, home := home, state := .em r }, some r)

/-- Writes bytes of a line: in the copy of a die, which becomes M, or in storage. -/
def State.putLine (s : State) (who : Option Nat) (key : Nat) (bs : List Byte) : State :=
  match who with
  | none => s.putMem key bs
  | some d =>
    let s := s.clean key bs.length
    let c := tget { state := .i, data := [] } s.copies (2 ^ 40 * d + key / 128)
    s.setCopy d (key / 128) .m (c.data.take (key % 128) ++ bs ++ c.data.drop (key % 128 + bs.length))

/-- The bytes that a load by die `r` finds: those of the die's copy, else those of the performing point. -/
def State.lineBytes (s : State) (r key n : Nat) : List Byte :=
  match tfind s.copies (2 ^ 40 * r + key / 128) with
  | some c => (c.data.drop (key % 128)).take n
  | none => s.valueAt key n

/-- The frame was last used under a translation whose lines other dies may hold in S only, or not (R371). [DEDUCED, log 147] -/
def State.noteShare (s : State) (pa : Nat) (only : Bool) : State :=
  let f := pa / 4096
  if only == s.shareOnly.contains f then s
  else { s with shareOnly := if only then sput s.shareOnly f else sdel s.shareOnly f }

/-- An update of a line of a replicated page has not reached every die (R220). -/
def State.replicating (s : State) (line : Nat) : Bool := s.replicas.any fun r => r.line == line % 2 ^ 29

/-- Has a write of this agent to a replicated page not reached every die (R362)? -/
def State.spreading (s : State) (uid : Nat) : Bool := s.replicas.any fun r => r.owner == some uid

/-- A physical address, by its place in the source where an active move holds it. -/
def State.srcSide (s : State) (pa : Nat) : Nat :=
  match s.moveAt pa with
  | some (_, m, _, false) => m.src + (pa - m.dst)
  | _ => pa

/-- The frame by which the state of the 4 KiB unit at a physical address is kept: inside an active move that of the source. -/
def State.sealFrame (s : State) (pa : Nat) : Nat := s.srcSide pa / 4096

/-- Is the 4 KiB unit at a physical address sealed (R251)? -/
def State.sealed (s : State) (pa : Nat) : Bool := cget s.seals (s.sealFrame pa) == 1

/-- A write to a replicated page is ordered by HD and goes to every die of DMASK; HD's own copy, by which reads that do not wait
find the old value, takes it once every die has acknowledged (R220, R362). -/
def State.replicate (s : State) (owner : Option Nat) (t : TransReg) (key : Nat) (bs : List Byte) : State :=
  let others := (pwDies t.pw).filter (· != pwHd t.pw)
  if others.isEmpty then s.putMem key bs
  else
    { s with replicas := s.replicas ++
        [{ hd := pwHd t.pw, owner := owner, line := key / 128 % 2 ^ 29,
           bytes := bs.zipIdx.map fun (b, i) => (key % 2 ^ 36 + i, b), toSend := others, acks := others }] }

/-- What the state `t`, which waits, has asked for, on top of `s`: writes that wait keep leases away, the host is asked for its
copies and the halves of its memory. -/
def State.asks (s t : State) : State :=
  { s with
    waitWrites := t.waitWrites.foldl sput s.waitWrites, bisnp := t.bisnp,
    bridge := (t.bridge.filter fun x => x.2.req.isSome).foldl (fun b x =>
      tset b x.1 { tget { state := .i, req := none } b x.1 with req := x.2.req }) s.bridge }

/-- An access to a line whose home does not hold it back: its bytes as they stood, and its write where it is one. [DESIGN CHOICE, log 62] -/
def State.lineAccess (s : State) (core : Nat) (t : TransReg) (o n : Nat) (wr : Bool) (f : List Byte → List Byte) (key : Nat) : Got :=
  let pa := t.ppage + o
  let r := dieOf core
  let home := homeOf (s.performPw t o) key
  let only := t.kind == 1 || t.rc || (s.moveAt pa).isSome
  let s := s.noteShare pa only
  let pb := ((s.perform t o).map fun p => p.1).getD pa / 128 * 128
  if wr then
    match s.ownLine r (key / 128) pb home only with
    | .error t => .wait t
    | .ok (s, who) =>
      let old := s.valueAt key n
      let bad := s.poisoned key n
      let s := { s with waitWrites := sdel s.waitWrites (key / 128) }
      .ok (s.putLine who key (f old)) old bad
  else
    match s.readLine r (key / 128) pb home only with
    | .error t => .wait t
    | .ok s => .ok s (s.lineBytes r key n) (s.poisoned key n)

/-- One access of `n` bytes at page offset `o` of a translation into frame space: `f` gives the bytes to write, from
those that stand there, or none for a load (R222, R227, R237, R246, R250, R251, R220, R370 to R378). [DEDUCED, log 45] -/
def State.frameAccess (s : State) (core : Nat) (t : TransReg) (o n : Nat) (wr : Bool)
    (f : List Byte → List Byte) : Got :=
  let pa := t.ppage + o
  let r := s.frameRec pa
  let d := (recHgen r + 2 ^ 16 - t.gen.toNat) % 2 ^ 16
  if d != 0 then (if d < 2 ^ 15 then .refused else .wait s)
  else if recSet r && (recPw r != t.pw || recPsize r != t.psize.toNat) then .err 9 2
  else if wr && t.kind == 1 && s.sealed pa then .err 8 10
  else
    match s.perform t o with
    | none => .wait s
    | some (pb, key0) =>
      let rep := pwHome t.pw == 2
      let myDie := dieOf core
      let key := if rep && !wr && (pwDies t.pw).contains myDie then key0 % 2 ^ 36 + myDie * 2 ^ 36 else key0
      let line := key / 128
      if rep && s.replicating line then .wait s
      else if wr && s.hostHolds line then .wait { s.askHost line with waitWrites := sput s.waitWrites line }
      else if wr && s.leased line then .wait { s with waitWrites := sput s.waitWrites line }
      else
        let s0 := s
        let s := (s.claimRec pa t).markRec pb wr
        match s.boundFor pa with
        | some (c, at_) =>
          let old := s.spadRead c at_ n
          let bad := s.poisoned (spadPa c at_) n
          if wr then
            match s.objAtPhys c at_ n with
            | some ob => .err 11 1 (some ob.off)
            | none => .ok ((s.spadPut c at_ (f old)).clean (spadPa c at_) n) old bad
          else .ok s old bad
        | none =>
          if rep then
            let old := cgetList s.mem key n
            let bad := s.poisoned key n
            if wr then .ok (State.replicate { s with waitWrites := sdel s.waitWrites line } (some s.wave.uid) t key (f old)) old bad
            else .ok s old bad
          else
            match s.lineAccess core t o n wr f key with
            | .wait u => .wait (s0.asks u)
            | g => g

/-- The record of a half-line of host memory in the bridge (R376). -/
def State.halfAt (s : State) (h : Nat) : Half := tget { state := .i, req := none } s.bridge h

/-- The 64-byte halves that a range of host memory touches. -/
def halvesOf (pa n : Nat) : List Nat := (List.range ((pa + n - 1) / 64 + 1 - pa / 64)).map fun i => pa / 64 + i

/-- The halves of a range that cannot serve an access: invalid ones, and shared ones for a write (R376). -/
def State.lacking (s : State) (pa n : Nat) (wr : Bool) : List Nat :=
  (halvesOf pa n).filter fun h => match (s.halfAt h).state with
    | .i => true
    | .s => wr
    | _ => false

/-- The bridge asks the host for halves: RdShared, or RdOwn for a write (R376). -/
def State.askHalves (s : State) (hs : List Nat) (wr : Bool) : State :=
  hs.foldl (fun s h =>
    let x := s.halfAt h
    { s with bridge := tset s.bridge h { x with req := some (wr || x.req == some true) } }) s

/-- Writes bytes of host memory; the halves that the bridge owns become M. -/
def State.hostPut (s : State) (pa : Nat) (bs : List Byte) : State :=
  (halvesOf pa bs.length).foldl (fun s h =>
    let x := s.halfAt h
    if x.state == .e then { s with bridge := tset s.bridge h { x with state := .m } } else s) (s.putMem pa bs)

/-- An access to host memory (R376): through the bridge under CXL.cache, each half for itself, at once otherwise. `atomic` never
asks for the half (R377). -/
def State.hostPerform (s : State) (pa n : Nat) (wr atomic : Bool) (f : List Byte → List Byte) : Got :=
  let old := cgetList s.mem pa n
  let done := Got.ok (if wr then s.hostPut pa (f old) else s) old (s.poisoned pa n)
  if atomic then done
  else if Config.cxlCache then
    let l := s.lacking pa n wr
    if l.isEmpty then done else .wait (s.askHalves l wr)
  else done

/-- The storage line that is bound at a physical scratchpad offset (R246). -/
def State.spadLine (s : State) (c at_ : Nat) : Option Nat :=
  (s.core c).smap.findSome? fun b =>
    let p0 := (s.group c b.grp).spadBase + 1024 * b.spoff
    if p0 ≤ at_ && at_ < p0 + 256 * b.len then
      (s.perform b.tr (b.tr.pbase.toNat - b.tr.ppage + (at_ - p0))).map fun p => p.2 / 128
    else none

/-- The bound line at a physical scratchpad offset of which the host has a copy (R378). -/
def State.spadHeld (s : State) (c at_ : Nat) : Option Nat := (s.spadLine c at_).filter fun l => s.hostHolds l

/-- The first such line among `n` bytes. -/
def State.spadHeldIn (s : State) (c at_ n : Nat) : Option Nat :=
  (List.range ((at_ + n - 1) / 128 + 1 - at_ / 128)).findSome? fun i => s.spadHeld c (max at_ (at_ / 128 * 128 + 128 * i))

/-- One access through a translation: `n` bytes at page offset `o` (R214, R233, R243). A page of kind discarded reads
as zero; a write to one never comes here. -/
def State.access (s : State) (core : Nat) (t : TransReg) (o n : Nat) (wr atomic : Bool)
    (f : List Byte → List Byte) : Got :=
  let pa := t.ppage + o
  if t.kind == 3 then .ok s (List.replicate n 0) false
  else if t.kind == 2 then s.hostPerform pa n wr atomic f
  else if inChip pa then
    if s.chipBad pa n then .err 8 8
    else
      let old := s.chipRead pa n
      let bad := s.poisoned pa n
      if wr then
        match chipPlace pa with
        | .spad c at_ =>
          match s.objAtPhys c at_ n, s.spadHeld c at_ with
          | some ob, _ => .err 11 1 (some ob.off)
          | none, some l => .wait { s.askHost l with waitWrites := sput s.waitWrites l }
          | none, none => .ok ((s.chipWrite pa (f old)).clean pa n) old bad
        | .geode d g o => if s.geodeShut d g o then .err 8 14 else .ok ((s.chipWrite pa (f old)).clean pa n) old bad
        | _ => .ok ((s.chipWrite pa (f old)).clean pa n) old bad
      else .ok s old bad
  else s.frameAccess core t o n wr f

/-- A load that finds these bytes and changes nothing: a cache that has filled itself with them makes no difference. -/
def Got.plain (g : Got) (s : State) (bs : List Byte) : Bool :=
  match g with
  | .ok t cs bad => !bad && cs == bs && t.frames == s.frames
  | _ => false

/-- The 128-byte line of an access, by physical address; host lines by theirs. -/
def accLine (t : TransReg) (o : Nat) : Nat := (t.ppage + o) / 128

/-- The slice at which a load by die `r` of a line was performed, which records its lease: that of the die's own copy, of the
owner in E or M, or of the home (R249, R370). -/
def State.slicePoint (s : State) (r line home : Nat) : Nat :=
  if s.copyAt r line != .i then r
  else match (s.dirAt line).state with
    | .em o => o
    | _ => home

/-- A load that fills L1 under a lease records its expiry (R249); on a sealed line the core takes a counted copy instead
(R251). No lease is granted while a write waits (R250). [DEDUCED, log 46] -/
def State.grantLease (s : State) (core : Nat) (t : TransReg) (o : Nat) : State :=
  if t.kind == 2 || t.kind == 3 || inChip (t.ppage + o) || (s.boundFor (t.ppage + o)).isSome || pwHome t.pw == 2 then s
  else
    match s.perform t o with
    | none => s
    | some (pb, key) =>
      let line := key / 128
      let home := homeOf (s.performPw t o) key
      let c := s.core core
      if t.kind == 1 && s.sealed pb then s.setCore core { c with counted := sput c.counted line }
      else if s.waitWrites.contains line then s
      else
        let clocks := bits (if home == dieOf core then c.lease1 else c.lease2) 15 0
        let k := 2 ^ 40 * s.slicePoint (dieOf core) line home + line
        if clocks = 0 then s
        else { s with leases := tset s.leases k (max (tget 0 s.leases k) (s.clock + clocks + 16)) }

/-- Does the L1 of a core that loads a line perhaps hold it: a lease of it stands, or the core counts a copy? -/
def State.inL1 (s : State) (core : Nat) (t : TransReg) (o : Nat) : Bool :=
  match s.perform t o with
  | none => false
  | some (_, key) => t.kind.toNat ≤ 1 && !inChip (t.ppage + o) && (s.leased (key / 128) || (s.core core).counted.contains (key / 128))

/-! ### Accesses of the device and the host by physical address (R426, R436) -/

/-- The page as which a physical address of frame space is placed: that of its frame record, or 4 KiB under TPW. -/
def State.devPage (s : State) (pa : Nat) : TransReg :=
  let r := s.frameRec pa
  { TransReg.reset with
    pw := if recSet r then recPw r else tpw (pa / 2 ^ 36), psize := if recSet r then BitVec.ofNat 4 (recPsize r) else 0,
    pbase := BitVec.ofNat 52 pa, gen := BitVec.ofNat 16 (recHgen r), valid := true }

/-- Where an access by physical address is performed, moves included; the address itself for host memory. [DESIGN CHOICE, log 17] -/
def State.devAt (s : State) (pa : Nat) : Nat × Nat :=
  if inHost pa then (pa, pa)
  else
    let t := s.devPage pa
    (s.perform t (pa - t.ppage)).getD (pa, s.physKey pa)

/-- Beyond the frames of a die nothing is stored (R426). -/
def pastFrames (pa : Nat) : Bool := inFrame pa && decide (Config.frameLimit ≤ pa % 2 ^ 36)

/-- The byte at a physical address. [DEDUCED, log 148] -/
def State.devByte (s : State) (pa : Nat) : Byte :=
  if pastFrames pa then 0
  else
    match (if inHost pa then none else s.boundFor pa) with
    | some (c, at_) => cget (s.core c).spad at_
    | none => if inHost pa then cget s.mem pa else (s.valueAt (s.devAt pa).2 1).headD 0

/-- `n` bytes at a physical address. -/
def State.devRead (s : State) (pa n : Nat) : List Byte := (List.range n).map fun i => s.devByte (pa + i)

/-- A unit of the device reads `n` bytes at a physical address: every frame record that they lie in takes ACC (R222). -/
def State.touch (s : State) (pa n : Nat) : State :=
  if inHost pa || pastFrames pa then s
  else (List.range ((pa + n - 1) / 4096 + 1 - pa / 4096)).foldl (fun s i => s.markRec (s.devAt (max pa (pa / 4096 * 4096 + 4096 * i))).1 false) s

/-- The number in `n` bytes at a physical address. -/
def State.devNat (s : State) (pa n : Nat) : Nat := ofBytes (s.devRead pa n)

/-- The die in whose copy a write by physical address is performed, in E or M; none: at the home (R370, R378). [DEDUCED, log 149] -/
def State.pointOf (s : State) (line : Nat) : Option Nat := match (s.dirAt line).state with
  | .em o => some o
  | _ => none

/-- Performs a write of bytes that lie in one 16-byte unit. -/
def State.devPut (s : State) (pa : Nat) (bs : List Byte) : State :=
  if pastFrames pa then s
  else if inHost pa then s.hostPut pa bs
  else
    let t := s.devPage pa
    let (pb, key) := s.devAt pa
    let s := s.markRec pb true
    match s.boundFor pa with
    | some (c, at_) => s.spadPut c at_ bs
    | none =>
      if pwHome t.pw == 2 then s.replicate none t key bs
      else
        match s.pointOf (key / 128) with
        | some d => s.putLine (some d) key bs
        | none => (s.callBack (key / 128)).putMem key bs

/-- Is the line of a physical address of frame space being copied by a move (R237)? -/
def State.devBusy (s : State) (pa : Nat) : Bool :=
  let t := s.devPage pa
  (s.perform t (pa - t.ppage)).isNone

/-- Must an access by physical address to frame space wait: for a line that is being copied or replicated, or whose transaction is
open (R220, R237, R375)? -/
def State.devStands (s : State) (pa : Nat) : Bool :=
  !inHost pa && !pastFrames pa &&
    (let line := (s.devAt pa).2 / 128
     s.devBusy pa || (pwHome (s.devPage pa).pw == 2 && s.replicating line) || s.lineBusy line)

/-- Must a write by physical address wait: for the above, for a recorded lease, for a host copy unless the host writes, for a half
of host memory, or behind a write that waits (R250, R376, R378)? [DEDUCED, log 61] -/
def State.heldFor (s : State) (host : Bool) (pa n : Nat) : Bool :=
  if inHost pa then Config.cxlCache && !(s.lacking pa n true).isEmpty
  else
    !pastFrames pa &&
      (let line := (s.devAt pa).2 / 128
       s.devStands pa || s.leased line || (!host && s.hostHolds line) ||
         s.devWrites.any fun w => (s.devAt w.pa).2 / 128 == line)

/-- Must a device write of a word at a physical address wait? -/
def State.devHeld (s : State) (pa : Nat) : Bool := s.heldFor false pa 1

/-- What a write by physical address waits for is asked to give way, and no lease of its line is granted (R250, R376, R378). -/
def State.wantFor (s : State) (host : Bool) (pa n : Nat) : State :=
  let line := (s.devAt pa).2 / 128
  let s := if inHost pa then s.askHalves (s.lacking pa n true) true
    else if !host && s.hostHolds line then s.askHost line else s
  { s with waitWrites := sput s.waitWrites line }

/-- Writes bytes that lie in one 16-byte unit, or records them as waiting. -/
def State.putOrWait (s : State) (host : Bool) (pa : Nat) (bs : List Byte) : State :=
  if s.heldFor host pa bs.length then
    let s := s.wantFor host pa bs.length
    { s with devWrites := s.devWrites ++ [{ pa := pa, bytes := bs, host := host }] }
  else s.devPut pa bs

/-- Writes bytes from a physical address on, unit by unit. -/
def State.physWriteGo (s : State) (host : Bool) (pa : Nat) (bs : List Byte) : Nat → State
  | 0 => s
  | fuel + 1 =>
    if bs.isEmpty then s
    else
      let k := 16 - pa % 16
      (s.putOrWait host pa (bs.take k)).physWriteGo host (pa + k) (bs.drop k) fuel

/-- Writes bytes by physical address, without translation (R436); beyond the frames they are dropped. -/
def State.physWrite (s : State) (pa : Nat) (bs : List Byte) : State := s.physWriteGo false pa bs (bs.length + 1)

/-- A write of the host to frame space (R378, R426). -/
def State.hostWrite (s : State) (pa : Nat) (bs : List Byte) : State := s.physWriteGo true pa bs (bs.length + 1)

/-- The writes that wait on a storage line are performed, oldest first, as far as they can be (R250). -/
def State.devRelease (s : State) (line : Nat) : State :=
  let mine := s.devWrites.filter fun w => (s.devAt w.pa).2 / 128 == line
  mine.foldl (fun s w => s.putOrWait w.host w.pa w.bytes)
    { s with devWrites := s.devWrites.filter fun w => (s.devAt w.pa).2 / 128 != line }

end Sys2Proof.Machine
end

