-- ==== Sys2Proof/Machine/Order.lean ====
section
/-! DEFINITION. Happens-before as the race-checked pages need it: what each wave has before it, what a write releases
and a read acquires (R348, R352, R353), and the checks and records of R365 to R367. -/

namespace Sys2Proof.Machine

/-- The join of two positions. -/
def vecJoin (a b : Vec) : Vec := b.foldl (fun a p => tset a p.1 (max (tget 0 a p.1) p.2)) a

/-- The wave's own position: an event of it at this position lies before what has at least this of the wave before it. -/
def Wave.pos (w : Wave) : Nat := tget 0 w.hb w.uid

/-- What lies before the wave, joined with `v`. -/
def Wave.joinHb (w : Wave) (v : Vec) : Wave := { w with hb := vecJoin w.hb v }

/-- After a release the wave's own position moves on. -/
def Wave.tick (w : Wave) : Wave := { w with hb := tset w.hb w.uid (w.pos + 1) }

/-- Is the wave in the `scope` of an agent at this core and slot, of this launch and number (R348)? A core has one group of a
launch. -/
def inScope (scope : Nat) (w : Wave) (core slot launch uid : Nat) : Bool :=
  match scope with
  | 0 => w.uid == uid
  | 1 => w.core == core && w.launch == launch && (slot == 15) == (w.slot == 15)
  | 2 => w.core / 4 == core / 4
  | 3 => dieOf w.core == dieOf core
  | _ => true

/-- Orders: 1 acquire, 2 release, 3 acq_rel, 4 sc (R77). -/
def acquires (order : Nat) : Bool := order == 1 || order == 3 || order == 4
/-- Has the order a release part? -/
def releases (order : Nat) : Bool := order == 2 || order == 3 || order == 4

/-- The bytes that an access touches. -/
def relUnits (key n : Nat) : List Nat := (List.range n).map fun i => key + i

/-- Are two messages of one agent at one scope? -/
def RelMsg.sameAs (a b : RelMsg) : Bool :=
  a.uid == b.uid && a.scope == b.scope && a.core == b.core && a.slot == b.slot && a.every == b.every

/-- Adds a message to a list, to that of the same agent and scope where there is one. -/
def addMsg (l : List RelMsg) (m : RelMsg) : List RelMsg :=
  if l.any fun x => x.sameAs m then l.map fun x => if x.sameAs m then { x with vc := vecJoin x.vc m.vc } else x
  else l ++ [m]

/-- What a message gives the wave through an acquire or fence at a scope: the narrower scope applies (R348, R352). -/
def Wave.takeMsg (w : Wave) (scope : Nat) (m : RelMsg) : Wave :=
  if inScope (min scope m.scope) w m.core m.slot m.launch m.uid then w.joinHb m.vc else w

/-- What has been released at the bytes of an access. -/
def State.msgsAt (s : State) (key n : Nat) : List RelMsg :=
  (relUnits key n).foldl (fun l u => (tget [] s.rel u).foldl addMsg l) []

/-- A read by the wave in focus meets what the writes it reads from have released: an acquire joins it, a relaxed read
keeps it for an acquire fence; a message that counts for every read is joined in either case (R352). -/
def State.readRel (s : State) (key n order scope : Nat) : State :=
  let ms := s.msgsAt key n
  let w := s.wave
  { s with wave :=
      if acquires order then ms.foldl (fun w m => w.takeMsg scope m) w
      else
        let w := (ms.filter RelMsg.every).foldl (fun w m => w.takeMsg m.scope m) w
        { w with hbAcq := (ms.filter fun m => !m.every).foldl addMsg w.hbAcq } }

/-- A write by the wave in focus: what it releases, at each scope, stands at its bytes; an update keeps the chain it continues, a
plain write ends it (R352). -/
def State.writeRel (s : State) (key n : Nat) (update : Bool) (rels : Rels) : State :=
  let w := s.wave
  let mine : List RelMsg := rels.map fun r =>
    { core := w.core, slot := w.slot, launch := w.launch, uid := w.uid, scope := r.1, vc := r.2, every := false }
  (relUnits key n).foldl (fun s u =>
    let l := mine.foldl addMsg (if update then tget [] s.rel u else [])
    { s with rel := if l.isEmpty then tdel s.rel u else tset s.rel u l }) s

/-- What a write of this order by the wave releases, by scope: its own position under a release order, and those of its release
fences. -/
def Wave.releaseOf (w : Wave) (order scope : Nat) : Rels := (if releases order then [(scope, w.hb)] else []) ++ w.hbRel

/-! ### Engines (R351) -/

/-- The number by which happens-before knows an engine's accesses for an instruction. -/
def engUid (id : Nat) : Nat := 2 ^ 40 + id

/-- An engine makes accesses for an instruction of the wave in focus, before whose issue `vc` lay (R365). -/
def State.engineOn (s : State) (id : Nat) (vc : Vec) : State :=
  { s with wave := { s.wave with eng := some id, hb := vc } }

/-- What stands for Garnet, whose reads are not checked and whose writes are the wave's own (R365). -/
def garnetEng : Nat := 2 ^ 80

/-- Garnet makes accesses for the DICE of the wave in focus. -/
def State.asGarnet (s : State) : State := { s with wave := { s.wave with eng := some garnetEng } }

/-- Garnet's accesses are over. -/
def State.notGarnet (s : State) : State := { s with wave := { s.wave with eng := none } }

/-- The engine's step `t` is over; `s` is the state before it. -/
def State.engineOff (t s : State) : State := { t with wave := { t.wave with eng := none, hb := s.wave.hb } }

/-- What the completion of an engine's work gives a WAIT: all its accesses; and a byte addition: its writes (R351). -/
def engAll (id : Nat) : Vec := [(engUid id, 2)]
def engWrites (id : Nat) : Vec := [(engUid id, 1)]

/-! ### Race-checked lines (R365 to R367) -/

/-- The bytes of a line that an access touches. -/
def byteMask (key n : Nat) : BitVec 128 := BitVec.ofNat 128 ((2 ^ n - 1) * 2 ^ (key % 128))

/-- Does a record race with an event of the wave in focus on these bytes? -/
def Wave.racesWith (w : Wave) (r : RaceRec) (mask : BitVec 128) (atomic : Bool) : Bool :=
  r.owner != w.uid && r.mask &&& mask != 0 && !(r.atomic && atomic) && decide (tget 0 w.hb r.uid < r.pos)

/-- The records of a line. -/
def State.raceLine (s : State) (line : Nat) : RaceLine := tget { write := none, reads := [] } s.races line

/-- DETAIL of RACE (R367). -/
def raceDetail (wr : Bool) (r : RaceRec) : Nat := (if wr then 2 ^ 15 else 0) + r.core * 64 + r.slot % 64

/-- The check of one access (R366): the racing byte's place in the line and the detail, for the record of the lowest byte,
a write record before a read record. -/
def State.raceCheck (s : State) (key n : Nat) (wr atomic : Bool) : Option (Nat × Nat) :=
  let l := s.raceLine (key / 128)
  let m := byteMask key n
  let low (r : RaceRec) : Nat := (lowBit (r.mask &&& m)).getD 0
  let ws := (l.write.toList.filter fun r => s.wave.racesWith r m atomic).map fun r => (low r, raceDetail true r)
  let rs := (l.reads.filter fun r => wr && s.wave.racesWith r m atomic).map fun r => (low r, raceDetail false r)
  (ws ++ rs).foldl (fun b x => match b with
    | none => some x
    | some y => if x.1 < y.1 then some x else some y) none

/-- Records a checked access, of the wave in focus or of an engine for it. -/
def State.raceRecord (s : State) (key n : Nat) (wr atomic : Bool) : State :=
  let w := s.wave
  let (uid, pos) := match w.eng with
    | some id => if id = garnetEng then (w.uid, w.pos) else (engUid id, if wr then 1 else 2)
    | none => (w.uid, w.pos)
  let r : RaceRec :=
    { uid := uid, owner := w.uid, core := w.core, slot := w.slot, mask := byteMask key n, atomic := atomic, pos := pos }
  let l := s.raceLine (key / 128)
  let l' : RaceLine := if wr then { write := some r, reads := [] } else { l with reads := (r :: l.reads).take 4 }
  { s with races := tset s.races (key / 128) l' }

end Sys2Proof.Machine
end

