-- ==== Sys2Proof/Machine/Issue.lean ====
section
/-! DEFINITION. What every instruction shares: outstanding work and its counters (R92, R93), barrier route tags
(R123), the end of a wave (R127), deciding and delivering a trap (R382 to R390), retiring an instruction with its
place in a prefix (R63, R87, R129, R130), and the checks of R83. -/

namespace Sys2Proof.Machine

/-! ### Outstanding instructions -/

/-- Do engines make accesses for what an instruction still has to do (R351)? -/
def Effect.byEngine : Effect → Bool
  | .batch _ _ _ _ => true
  | .cpsm _ _ => true
  | .tld _ _ _ => true
  | .ttrl _ _ => true
  | .stores _ _ => true
  | .accld _ _ _ _ _ _ _ => true
  | .accst _ _ _ _ _ _ _ _ => true
  | .accq _ _ _ _ _ _ => true
  | .rast _ _ _ _ _ => true
  | .rayq _ _ _ _ => true
  | _ => false

/-- The wave in focus has an instruction outstanding: its counters rise (R92). -/
def State.startOutst (s : State) (cls cf : Option Nat) (pc : DWord) (holds : Bool) (e : Effect) : State :=
  let w := s.wave
  let w := match cls with
    | some k => w.incK k
    | none => w
  let w := match cf with
    | some k => w.incK k
    | none => w
  let o : Outst := { id := s.fresh, cls := cls, cf := cf, pc := pc, issued := s.clock, holds := holds, token := false, eff := e, wait := .ready, vc := w.hb }
  let note := [cls, cf].filterMap fun k => k.map fun k => (k, s.fresh)
  { s with wave := { w with outst := w.outst ++ [o], unwaited := w.unwaited ++ (if e.byEngine then note else []) }, fresh := s.fresh + 1 }

/-- Hands the open batch to the copy channel (R271); `obj` is the object it reports to, `bytes` what it declares. -/
def State.commitBatch (s : State) (pc : DWord) (obj : Option Nat) (bytes : Nat) : State :=
  let b := s.wave.batch
  State.startOutst { s with wave := { s.wave with batch := [] } } (some 2) none pc false (.batch b obj bytes [])

/-- The open batch is committed, once k2 has room for it (R92, R271, R384). -/
def State.commitOpen (s : State) : State :=
  if s.wave.batch.isEmpty || s.wave.cnt 2 == 63 then s else s.commitBatch s.wave.pc none 0

/-- An instruction of the wave stands at a translation fault that holds the wave (R229, R255). -/
def Wave.faulting (w : Wave) : Bool :=
  w.outst.any fun o => o.holds && match o.wait with
    | .fault _ _ => true
    | _ => false

/-- Would the wave's next instruction raise a counter above 63 (R92)? -/
def Wave.countersFull (w : Wave) (cls cf : Option Nat) : Bool :=
  (match cls with
    | some k => w.cnt k == 63
    | none => false) ||
  (match cf with
    | some k => w.cnt k == 63
    | none => false)

/-- Would the wave's next instruction commit an open batch while k2 stands at 63: a CPA that finds the batch full, an EXIT that
ends the wave (R92, R126, R270)? -/
def Wave.commitFull (w : Wave) (i : Instr) : Bool :=
  w.cnt 2 == 63 &&
    match i with
    | .cpa _ => decide (16 ≤ w.batch.length)
    | .exit f => !w.priv && !w.batch.isEmpty && (!f.imm.getLsbD 0 || w.live &&& ~~~w.em == 0)
    | _ => false

/-! ### Barrier route tags (R123) -/

/-- Does this wave belong to a launch and still run? -/
def Wave.alive (w : Wave) (l : Nat) : Bool := !w.priv && !w.idle && w.launch == l && !w.ended

/-- Has a phase of a tag become complete? -/
def State.phaseFull (s : State) (l tag : Nat) : Bool :=
  let ws := s.allWaves.filter fun w => w.alive l
  ws.any (fun w => w.arrived == some tag) && ws.all (fun w => w.arrived == some tag) &&
    !s.suspended.any fun g => g.group.launch == l

/-- Clocks from the last arrival to the release (R123). -/
def Launch.bartDelay (l : Launch) : Nat :=
  match l.cmask with
  | [] => 40
  | c :: cs => if cs.all fun d => dieOf d == dieOf c then 40 else 180

/-- Completes the phase of a tag if it is full: arrivals are cleared, each BART has retired, and the release stands
40 or 180 clocks ahead. -/
def State.phaseCheck (s : State) (l tag : Nat) : State :=
  if s.phaseFull l tag then
    let la := s.launch l
    let s := s.setLaunch l { la with phase := la.phase ++ [(tag, s.clock + la.bartDelay)] }
    let ord := (s.allWaves.filter fun w => w.alive l && w.arrived == some tag && w.arrOrd).foldl (fun v w => vecJoin v w.hb) []
    s.mapWaves fun w =>
      if w.alive l && w.arrived == some tag then
        { (if w.arrOrd then w.tick else w).joinHb ord with arrived := none, arrOrd := false, pc := w.pc + 4 }
      else w
  else s

/-- The same for every tag of a launch: after a wave has ended, which counts as arrived. -/
def State.phaseChecks (s : State) (l : Nat) : State := (List.range 8).foldl (fun s t => s.phaseCheck l t) s

/-! ### The end of a wave (R126, R127) -/

/-- The wave in focus ends: it issues nothing more, its open batch is committed, results bound for its registers are
discarded and those bound for the group's land (R293), and it counts as arrived at every tag. -/
def State.endWave (s : State) : State :=
  let s := if s.wave.batch.isEmpty then s else s.commitBatch s.wave.pc none 0
  let w := s.wave
  let s := { s with wave := { s.wave with
      ended := true, hold := .none, held := none, dropped := [], trap := none, reports := [], pend := w.pend.filter fun p => p.2.toGroup, rep := none,
      pblk := none, resume := .none, arrived := none, requested := false, granted := false, promoted := false, waited := 0 } }
  let s :=
    if w.priv then s
    else
      let la := s.launch w.launch
      s.setLaunch w.launch { la with hbEnd := vecJoin la.hbEnd w.hb }
  s.phaseChecks w.launch

/-! ### Traps (R382 to R390) -/

/-- Withdraws the token request and gives back an unused grant (R101). -/
def State.withdrawToken (s : State) : State :=
  let w := s.wave
  let d := s.die (dieOf w.core)
  let s := s.setDie (dieOf w.core) { d with tokens := d.tokens.filter fun r => !(r.core == w.core && r.slot == w.slot) }
  { s with
    inuse := if w.granted then s.inuse - 1 else s.inuse,
    wave := { s.wave with requested := false, granted := false, waited := 0, promoted := false } }

/-- A trap is decided for the wave in focus (R384 steps 1 and 2): it issues nothing more, so it keeps no token request (R96),
and its open batch is committed. -/
def State.decideTrap (s : State) (t : TrapReq) : State :=
  let s := s.commitOpen.withdrawToken
  { s with wave := { s.wave with trap := some t } }

/-- The waits of the wave in focus are withdrawn (R384 step 3): in BART, BWAIT, ENQ, DEQ or a held pipeline instruction. -/
def State.withdrawWaits (s : State) : State :=
  let s := s.withdrawToken
  { s with wave := { s.wave with hold := .none, held := none, dropped := [], arrived := none, arrOrd := false } }

/-- Has everything landed that R384 step 2 waits for: only stores and no-return updates may be outstanding. -/
def Wave.drained (w : Wave) : Bool :=
  w.batch.isEmpty && (w.k.all fun p => p.1 == 1) && w.outst.all fun o => o.cls == some 1

/-- The repeat at which a REP is interrupted: in progress, or resumed and not yet issued again (R129, R387). -/
def Wave.repAt (w : Wave) : Option Nat :=
  match w.rep, w.resume with
  | some r, _ => some r.j
  | none, .rep j => some j
  | none, _ => none

/-- The covered instruction at which a PBLK is interrupted, with its condition, in the same way (R130, R387). -/
def Wave.pblkAt (w : Wave) : Option (Nat × Lanes) :=
  match w.pblk, w.resume with
  | some p, _ => some (p.j, p.cond)
  | none, .pblk j c => some (j, c)
  | none, _ => none

/-- FLAGS of a frame (R387). -/
def Wave.flags (w : Wave) (retired : Bool) : Nat :=
  (if w.scc then 1 else 0) +
    (match w.repAt with
      | some j => 2 + 4 * j
      | none => 0) +
    (match w.pblkAt with
      | some p => 256 + 512 * p.1
      | none => 0) +
    (if retired then 4096 else 0)

/-- The 64 bytes of a frame (R387). -/
def Wave.frame (w : Wave) (t : TrapReq) (clock : Nat) : List Byte :=
  toBytes t.pc.toNat 8 ++ toBytes w.em.toNat 8 ++ toBytes (w.spair 62).toNat 8 ++
    toBytes (t.code + 256 * t.detail) 4 ++ toBytes (w.flags t.retired) 4 ++ toBytes t.addr.toNat 8 ++
    toBytes (match w.pblkAt with
      | some p => p.2.toNat
      | none => 0) 8 ++
    toBytes w.fpctl.toNat 4 ++ toBytes w.lost 4 ++ toBytes clock 8

/-- The address of a wave's frame (R386). -/
def State.frameAddr (s : State) : DWord :=
  BitVec.ofNat 64 (bits s.myCore.trapfrm 51 21 * 2 ^ 21 + 64 * (64 * s.wave.core + s.wave.slot))

/-- What an access to the 64 bytes of a frame meets: performed, not yet, or impossible. -/
inductive FrameAcc where
  /-- Performed. -/
  | ok (s : State) (bs : List Byte)
  /-- Held at the home for now; the state records what the home asks for. -/
  | wait (s : State)
  /-- Cannot be made. -/
  | fail

/-- An access to the 64 bytes of a frame by virtual address (R387, R393). -/
def State.frameIo (s : State) (va : DWord) (acc : Access) (f : List Byte → List Byte) : FrameAcc :=
  if va.toNat / 2 ^ 52 != 0 || va.toNat % 64 != 0 then .fail
  else
    match s.translate s.wave.core va.toNat with
    | (s1, .leaf t) =>
      if (permFail t acc).isSome || (geomFail t).isSome || t.kind == 3 then .fail
      else
        match s1.access s.wave.core t (t.pbase.toNat - t.ppage) 64 (acc == .store) false f with
        | .ok s2 bs p => if p && acc == .load then .fail else .ok s2 bs
        | .wait s2 => .wait s2
        | .refused => .wait (s1.dropTlb s.wave.core va.toNat)
        | .err _ _ _ => .fail
    | (_, _) => .fail

/-- The move request outstanding at core 0's agent ends when the agent restarts (R432). -/
def State.dropMove (s : State) : State :=
  if s.wave.core == 0 && !s.mgmt.mvdone then
    { s with mgmt := { s.mgmt with mvdone := true, mvresp := [0xFFFFFFFF, 0, 0, 0] } }
  else s

/-- The agent of a core as it starts: idle in its privileged slot, at the values of wave start (R50, R105, R131). -/
def agentWave (core : Nat) : Wave := { Wave.reset with core := core, uid := core, hb := [(core, 1)] }

/-- Entry into the handler, once the frame is stored (R387). -/
def State.enterHandler (s : State) (t : TrapReq) (fa : DWord) : State :=
  let w := s.wave
  { s with wave := { (w.setSpair 62 fa) with
      trapcode := BitVec.ofNat 32 (t.code + 256 * t.detail), trapaddr := t.addr, em := w.live,
      fpctl := w.fpctl &&& 0xFFFFFEFF, rep := none, pblk := none, resume := .none, recovery := true,
      pc := BitVec.ofNat 64 (bits s.myCore.trapvec 51 8 * 256 + 16 * t.code), trap := none, lost := 0,
      notBefore := s.clock, lastIssue := 0 } }

/-- Delivery of the trap decided for the wave in focus, once its work has landed (R384 steps 2 to 4, R387, R388, R390). An agent
that restarts keeps its stores that are outstanding on k1. [DEDUCED, log 44] -/
def State.deliver (s : State) : State :=
  match s.wave.trap with
  | none => s
  | some t =>
    let s := s.commitOpen
    if !s.wave.drained then s
    else
      let s := (landEvery s).withdrawWaits
      let w := s.wave
      let t := if t.boundary then { t with pc := w.pc } else t
      let d := dieOf w.core
      if w.priv then
        let s := (s.boxRecord d (w.record 11 t.code t.detail s.clock t.addr t.pc)).dropMove
        { s with wave := { agentWave w.core with outst := w.outst, k := w.k, hb := w.hb } }
      else if w.recovery then (s.boxRecord d (w.record 2 t.code t.detail s.clock t.addr t.pc)).endWave
      else if !s.myCore.trapvec.getLsbD 0 then (s.boxRecord d (w.record 1 t.code t.detail s.clock t.addr t.pc)).endWave
      else
        let fa := s.frameAddr
        match s.frameIo fa .store (fun _ => w.frame t (s.dieClock d).toNat) with
        | .ok s _ => s.enterHandler t fa
        | .wait s => s
        | .fail => (s.boxRecord d (w.record 2 t.code t.detail s.clock t.addr t.pc)).endWave

/-- TAKING A TRAP: the wave in focus takes it at once when nothing it waits for is outstanding, and otherwise holds it
until it can be delivered (R384). -/
def State.raise (s : State) (t : TrapReq) : State := (s.decideTrap t).deliver

/-! ### Where an instruction stands, and retiring it -/

/-- The address of the instruction the wave is executing: inside a prefix that of the covered instruction. -/
def Wave.insAddr (w : Wave) : DWord :=
  match w.rep with
  | some r => r.insAt
  | none =>
    match w.pblk with
    | some p => (p.body.headD (w.pc, .nopK32 { imm := 0, d := 0, dist := 0 })).1
    | none => w.pc

/-- A fault at the instruction the wave is executing: it does not retire, and the frame records the PC, which inside a
prefix is the prefix's (R129, R130, R382). -/
def State.faultAt (s : State) (code detail : Nat) (addr : DWord) : State :=
  State.raise { s with wave := { s.wave with hold := .none, held := none } } { code := code, detail := detail, addr := addr, pc := s.wave.pc, retired := false }

/-- The wave moves past the instruction it has executed: to the next repeat, the next covered instruction, or the next
instruction (R63, R129, R130); the clock of its issue is noted (R87). -/
def Wave.advance (w : Wave) (len clock : Nat) : Wave :=
  let w := { w with lastIssue := clock + 1, resume := .none, held := none, dropped := [] }
  match w.rep with
  | some r => if r.j + 1 < r.n then { w with rep := some { r with j := r.j + 1 } } else { w with rep := none, pc := r.after }
  | none =>
    match w.pblk with
    | some p =>
      match p.body with
      | _ :: b :: bs => { w with pblk := some { p with j := p.j + 1, body := b :: bs } }
      | _ => { w with pblk := none, pc := p.after }
    | none => { w with pc := w.pc + BitVec.ofNat 64 len }

/-- What the effect of an instruction comes to. -/
inductive Act where
  /-- It retires, with this wave. -/
  | wave (w : Wave)
  /-- It retires, with this state. -/
  | state (s : State)
  /-- It retires and control goes to this address (R63, R111). -/
  | jump (w : Wave) (target : DWord)
  /-- It has not retired; this is the state. -/
  | stay (s : State)
  /-- It raises this trap: code, detail, address (R383). -/
  | trap (code detail : Nat) (addr : DWord)
  /-- It raises this trap, and this is the state in which it does. -/
  | trapIn (s : State) (code detail : Nat) (addr : DWord)

/-- The trap whose logged address is the instruction's own. -/
def Wave.trapHere (w : Wave) (code detail : Nat) : Act := .trap code detail w.insAddr

/-- ILLEGAL_OPERAND at the instruction. -/
def Wave.illegal (w : Wave) : Act := w.trapHere 2 0

/-- The outcome of an instruction of `len` bytes whose effect on `s` is `a`. -/
def settle (s : State) (len : Nat) (a : Act) : State :=
  match a with
  | .wave w => { s with wave := w.advance len s.clock }
  | .state t => { t with wave := t.wave.advance len s.clock }
  | .jump w target =>
    { s with wave := { w with pc := target, lastIssue := s.clock + 1, notBefore := s.clock + 3, resume := .none, dropped := [] } }
  | .stay t => t
  | .trap code detail addr => s.faultAt code detail addr
  | .trapIn t code detail addr => t.faultAt code detail addr

/-- A control transfer to `target` checks it before the PC changes (R111). -/
def Wave.transfer (_w : Wave) (target : DWord) (then_ : Wave) : Act :=
  if target.getLsbD 0 then .trap 5 0 target
  else if target.toNat / 2 ^ 52 != 0 then .trap 8 4 target
  else .jump then_ target

/-! ### The checks of R83 -/

/-- Ranges for the wave in focus. -/
def State.limits (s : State) : Limits :=
  { vregs := s.wave.vregs, tiles := s.myGroup.tiles.length, tds := s.myLaunch.tdcount }

/-- Checks 2 to 6 of R83 in order: trap code and detail of the first that fails. -/
def State.check (s : State) (i : Instr) : Option (Nat × Nat) :=
  let op := insOp i
  let absent : Option Nat := (featureOf op).filter fun b => !s.mgmt.featacc.getLsbD b
  match absent with
  | some b => some (0x13, b)
  | none =>
    if (privOp op && !s.wave.priv) || (op == 0xB9 && !(s.wave.priv || s.wave.recovery)) ||
        (op == 0xBB && !s.wave.recovery) then some (3, 0)
    else if !fieldsOk s.limits i then some (2, 0)
    else none

/-- The counter that CF names, if any (R81). -/
def cfCounter (cf : BitVec 4) : Option Nat := if cf.toNat < 8 then some (4 + cf.toNat) else none

/-- CF of an instruction. -/
def insCf (i : Instr) : Option Nat := cfCounter (insCfField i)

/-- Does this hold keep a held instruction that goes on by itself? -/
def Hold.goesOn : Hold → Bool
  | .pipeline => true
  | .issued => true
  | .dice _ _ _ => true
  | _ => false

/-- Is a wave that has this hold kept inside a held instruction: one that goes on, or waits for the driver? -/
def Hold.inside : Hold → Bool
  | .fault _ _ _ => true
  | h => h.goesOn

/-- Instructions that a translation fault leaves to be issued again (R66, R393): the prefixes and RTE. -/
def reissues (i : Instr) : Bool :=
  match i with
  | .rep _ => true
  | .pblk _ => true
  | .rte _ => true
  | _ => false

/-- The wave with the registers that a held instruction read at its issue (R89). -/
def Wave.asHeld (w : Wave) (h : Held) : Wave := { w with em := h.em, scc := h.scc, m := h.m, s := h.s, v := h.v, tr := h.tr }

/-- The wave `u`, which a held instruction leaves, with the registers of the wave `w`; a translation register that the
instruction has rewritten (R224) is kept where nothing else has written it. -/
def Wave.backTo (u w : Wave) (h : Held) : Wave :=
  let tr := (List.range 8).foldl (fun l n =>
    if u.treg n != tget TransReg.reset h.tr n && w.treg n == tget TransReg.reset h.tr n then tset l n (u.treg n) else l) w.tr
  { u with
    em := w.em, scc := w.scc, m := w.m, s := w.s, v := w.v, tr := tr, lastIssue := w.lastIssue,
    held := if u.hold.inside then some { h with tr := u.tr } else none }

/-- A held instruction that has issued and not completed keeps what it read (R88, R89): `t` is the state it leaves. -/
def State.holdOn (s : State) (i : Instr) (t : State) : State :=
  let w := s.wave
  if t.wave.hold.goesOn || (t.wave.hold.inside && !reissues i) then
    let h : Held := { ins := i, since := s.fresh, em := w.em, scc := w.scc, m := w.m, s := w.s, v := w.v, tr := t.wave.tr }
    { t with fresh := t.fresh + 1, wave := { t.wave with held := some h, lastIssue := s.clock + 1 } }
  else t

/-- The outcome of an instruction that issues. -/
def settleNew (s : State) (i : Instr) (a : Act) : State :=
  match a with
  | .stay t => s.holdOn i t
  | a => settle s (insLen i) a

/-- The outcome of a held instruction that goes on: the wave is past it, or stays inside it, with its registers as they
stand; the distance to the next instruction counts from its issue (R87). -/
def settleHeld (s : State) (h : Held) (i : Instr) (a : Act) : State :=
  let w := s.wave
  let past (u : Wave) : Wave := { (Wave.advance { (u.backTo w h) with hold := .none } (insLen i) s.clock) with lastIssue := w.lastIssue }
  match a with
  | .wave u => { s with wave := past u }
  | .state t => { t with wave := past t.wave }
  | .stay t => { t with wave := t.wave.backTo w h }
  | .trapIn t code detail addr => State.faultAt { t with wave := t.wave.backTo w h } code detail addr
  | a => settle s (insLen i) a

/-! ### Poisoned registers (R253) -/

/-- The register that index register `k` gives lane `L` (R132). -/
def Wave.xreg (w : Wave) (k L : Nat) : Nat := (w.bnd k).xb + w.xlane k L

/-- Word indexes of the register file that a field of a role is read from for lane `L`: vector registers, or the coefficients of
a function register (R181, R241). -/
def Wave.roleReads (w : Wave) (sc : Bool) (x L : Nat) : Role → List Nat
  | .vec n _ => (List.range n).map fun i => (x + i) * w.width + L
  | .vsc n _ _ => if sc then [] else (List.range n).map fun i => (x + i) * w.width + L
  | .fn =>
    let h := cget w.fn (3 * x + 2)
    if h.getLsbD 22 then (List.range (bits h 13 8)).map fun k => (w.vregs + bits h 21 14 + k) * w.width + L else []
  | _ => []

/-- Memory instructions that read their D registers. -/
def readsData : Instr → Bool
  | .st _ => true
  | .sts _ => true
  | .atom _ => true
  | .atomn _ => true
  | .atoms _ => true
  | .cas _ => true
  | .cpa _ => true
  | _ => false

/-- Instructions whose registers are found by their own meaning: they read other lanes, or more registers than one field
names. -/
def readsOwn : Instr → Bool
  | .vext _ => true
  | .shfl _ => true
  | .bcast _ => true
  | .qswz _ => true
  | .fnfit _ => true
  | .fnld _ => true
  | .tmovv _ => true
  | _ => false

/-- Word indexes of the register file that an instruction reads for lane `L`. -/
def Wave.readsAt (w : Wave) (i : Instr) (L : Nat) : List Nat :=
  match shapeOf i with
  | .plain _ => []
  | .gWord f _ _ _ _ a b c =>
    (if f.xe then [w.xreg f.xi.toNat L * w.width + L] else w.roleReads f.sa f.a.toNat L a) ++
      w.roleReads f.sb f.b.toNat L b ++ w.roleReads f.sc f.c.toNat L c
  | .mWord f _ _ _ d a => w.roleReads f.asc f.a.toNat L a ++ (if readsData i then w.roleReads false f.d.toNat L d else [])
  | .cWord f both => (if both then [f.vd.toNat * w.width + L] else []) ++ [f.vb.toNat * w.width + L]
  | .field _ reads d role => if reads then w.roleReads false d L role else []

/-- The first poisoned word among these. -/
def Wave.badAmong (w : Wave) (l : List Nat) : Option Nat := if w.vbad.isEmpty then none else l.find? fun i => w.vbad.contains i

/-- The first poisoned word that an instruction reads, in lane order. -/
def Wave.badRead (w : Wave) (i : Instr) : Option Nat :=
  if w.vbad.isEmpty || readsOwn i then none else w.badAmong ((laneList w.act).flatMap (w.readsAt i))

/-- An instruction that reads these words of the register file: ECC_UNCORRECTABLE where one is poisoned. -/
def Wave.reading (w : Wave) (l : List Nat) (a : Act) : Act :=
  match w.badAmong l with
  | some i => .trap 0x11 0 (BitVec.ofNat 64 (regPa w.core w.slot i))
  | none => a

/-- The outcome of an instruction of the wave in focus. A held one that has issued goes on with what it read (R89). Otherwise:
the checks of R83, whose failure in a covered instruction carries the offset from its REP or PBLK in bits 15:8 of the detail; a
counter that is full leaves the wave where it is (R92); under PBLK with no active lane there is no effect (R80); a poisoned
register that it reads is ECC_UNCORRECTABLE (R253); otherwise the effect. The own fields of a REP or PBLK are checked before anything it covers. [DEDUCED, log 22; DEDUCED, log 59] -/
def run (i : Instr) (s : State) (eff : State → Act) : State :=
  match s.wave.held with
  | some h => settleHeld s h i (eff { s with wave := s.wave.asHeld h })
  | none =>
    match s.check i with
    | some (code, detail) =>
      s.faultAt code (detail + 256 * (s.wave.insAddr - s.wave.pc).toNat) s.wave.insAddr
    | none =>
      if s.wave.pblk.isSome && s.wave.act == 0 then settle s (insLen i) (.wave s.wave)
      else if s.wave.countersFull (classOf (insOp i)) (insCf i) || s.wave.commitFull i then s
      else
        match s.wave.badRead i with
        | some j => s.faultAt 0x11 0 (BitVec.ofNat 64 (regPa s.wave.core s.wave.slot j))
        | none => settleNew s i (eff s)

/-- The same for an instruction that changes its wave alone. -/
def runWave (i : Instr) (s : State) (eff : Wave → Act) : State := run i s fun s => eff s.wave

/-- A result of the scalar path lands after 2 clocks, one of the vector class after 4 or 5 (R88). -/
def Wave.postIn (w : Wave) (clock n : Nat) (xs : List WaveWrite) : Wave :=
  { w with pend := xs.foldl (fun l x => postAt l (clock + n) x) w.pend }

/-- An instruction of the scalar path with these results. -/
def runScalar (i : Instr) (s : State) (f : Wave → List WaveWrite) : State :=
  run i s fun s => .wave (s.wave.postIn s.clock 2 (f s.wave))

/-- An instruction of the vector-fixed class with these results. -/
def runVector (i : Instr) (s : State) (f : Wave → List WaveWrite) : State :=
  run i s fun s => .wave (s.wave.postIn s.clock s.wave.vlat (f s.wave))

/-- A state as the outcome of a step. -/
def ok (s : State) : Host.Outcome State Fault Refusal := .next s

end Sys2Proof.Machine
end

