-- ==== Sys2Proof/Machine/Fetch.lean ====
section
/-! DEFINITION. Fault reports (R432), and the fetch of instruction bytes through
the instruction cache (R64 to R66). -/

namespace Sys2Proof.Machine

/-! ### Rings (R46, R427, R432) -/

/-- Has a ring of 2^size entries room? A size outside 6 to 16 has none (R427). -/
def ringRoom (size prod cons : Word) : Bool :=
  decide (6 ≤ size.toNat) && decide (size.toNat ≤ 16) && decide ((prod - cons).toNat < 2 ^ size.toNat)

/-- Address of the entry that the count `prod` names, of 32 bytes. -/
def ringSlot (base : DWord) (size prod : Word) : Nat := base.toNat + 32 * (prod.toNat % 2 ^ size.toNat)

/-- The 32 bytes of a fault report (R432). -/
def FaultReport.bytes (r : FaultReport) : List Byte :=
  toBytes r.page.toNat 8 ++ toBytes r.kind 1 ++ toBytes r.die 1 ++ toBytes r.core 2 ++ toBytes r.tag.toNat 4 ++
    List.replicate 16 0

/-- Writes one report that waits, if the ring has room (R432). -/
def State.writeReport (s : State) (r : FaultReport) : State :=
  if !r.written && ringRoom s.mgmt.fltsize s.mgmt.fltprod s.mgmt.fltcons then
    let s := s.physWrite (ringSlot s.mgmt.fltbase s.mgmt.fltsize s.mgmt.fltprod) r.bytes
    { s with
      mgmt := { s.mgmt with fltprod := s.mgmt.fltprod + 1 },
      faults := s.faults.map fun q => if q.tag == r.tag then { q with written := true } else q }
  else s

/-- Writes the reports that wait, oldest first, while the ring has room. -/
def State.writeReports (s : State) : State := s.faults.foldl (fun s r => s.writeReport r) s

/-- A translation fault of a core at an address is reported; only one report for each page and die is outstanding, and
a later fault on the page waits on it (R432). The tag that answers it. [DEDUCED, log 43] -/
def State.reportFault (s : State) (core va kind : Nat) : State × Word :=
  let page := BitVec.ofNat 64 (va / 4096 * 4096)
  match s.faults.find? fun r => r.page == page && r.die == dieOf core with
  | some r => (s, r.tag)
  | none =>
    let r : FaultReport := { page := page, kind := kind, die := dieOf core, core := core, tag := s.nextTag, written := false }
    (State.writeReports { s with faults := s.faults ++ [r], nextTag := s.nextTag + 1 }, s.nextTag)

/-- The wave in focus is held at an address that does not translate, until the driver answers (R66, R229). -/
def State.holdFault (s : State) (va detail : Nat) : State :=
  let (s, tag) := s.reportFault s.wave.core va 1
  { s with wave := { s.wave with hold := .fault (BitVec.ofNat 64 va) tag detail } }

/-! ### Fetch -/

/-- What a fetch meets. -/
inductive Fetched where
  /-- Bytes, and the state with the unit in the instruction cache. -/
  | ok (s : State) (bs : List Byte)
  /-- The fill waits at its home, or its translation was refused and will be walked again. -/
  | wait (s : State)
  /-- No translation at this address (R66). -/
  | absent (va : Nat)
  /-- A trap: code, detail, address. -/
  | trap (code detail : Nat) (addr : DWord)

/-- A parity error found in a code cache: the line is invalidated, to be refilled, and the error is recorded as corrected in the
die's black box; no trap is raised (R64, R252, R400). -/
def State.parityRecord (s : State) (core addr : Nat) : State :=
  let r : BoxRecord :=
    { kind := 10, code := 3, detail := 0, core := core, wave := 0xFF, clock := s.clock, addr := BitVec.ofNat 64 addr, pc := 0 }
  s.bump.boxRecord (dieOf core) r

/-- The instruction cache's line that holds a 16-byte unit, when a parity error is found in the unit (R64). -/
def State.iparity (s : State) (core u : Nat) : State :=
  let c := s.core core
  if c.icacheUnits.contains u && Config.parityError s.fresh then
    (s.setCore core { c with icacheUnits := c.icacheUnits.filter fun x => x / 8 != u / 8 }).parityRecord core (16 * u)
  else s

/-- The bytes from `va` to the end of its 16-byte unit, through the instruction cache of a core (R65). Which units the
cache still holds is open, and matters where a unit differs from what memory holds. -/
def State.fetchUnit (s : State) (core va : Nat) : Fetched :=
  if va / 2 ^ 52 != 0 then .trap 8 4 (BitVec.ofNat 64 va)
  else
    match s.translate core va with
    | (_, .absent) => .absent va
    | (_, .malformed) => .trap 8 5 (BitVec.ofNat 64 va)
    | (_, .geometry d) => .trap 9 d (BitVec.ofNat 64 va)
    | (s, .leaf t) =>
      match permFail t .fetch, geomFail t with
      | some d, _ => .trap 8 d (BitVec.ofNat 64 va)
      | none, some d => .trap 9 d (BitVec.ofNat 64 va)
      | none, none =>
        let u := t.pbase.toNat / 16
        let skip := va % 16
        let s := s.iparity core u
        let c := s.core core
        let held := cgetList c.icache (16 * u) 16
        let load := s.access core t (16 * u - t.ppage) 16 false false id
        if c.icacheUnits.contains u && load.plain s held then .ok s (held.drop skip)
        else if c.icacheUnits.contains u && Config.keep s.fresh then .ok s.bump (held.drop skip)
        else
          match load with
          | .ok s bs bad =>
            if bad then .trap 17 0 (BitVec.ofNat 64 (16 * u))
            else
              let c := s.core core
              .ok (s.setCore core { c with
                icacheUnits := sput c.icacheUnits u, icache := csetList c.icache (16 * u) bs }) (bs.drop skip)
          | .wait s => .wait s
          | .refused => .wait (s.dropTlb core va)
          | .err code d _ => .trap code d (BitVec.ofNat 64 va)

/-- The bytes of the instruction at `va`, and as many more as its unit holds: two units where it spans them (R65). -/
def State.fetch (s : State) (core va : Nat) : Fetched :=
  match s.fetchUnit core va with
  | .ok s bs =>
    if lengthOf (bs.headD 0) ≤ bs.length then .ok s bs
    else
      match s.fetchUnit core (va + bs.length) with
      | .ok s cs => .ok s (bs ++ cs)
      | r => r
  | r => r

/-! ### The checks that decoding makes (R83) -/

/-- The trap of bytes that are not an instruction, or of an instruction that fails checks 2 to 6: code and detail. -/
def State.refusal (s : State) (d : Except DecodeError (Instr × List Byte)) : Option (Nat × Nat) :=
  match d with
  | .error .tooShort => some (1, 0)
  | .error .illegalOpcode => some (1, 0)
  | .error (.illegalOperand i) => some ((s.check i).getD (2, 0))
  | .ok (i, _) => s.check i

end Sys2Proof.Machine
end

