-- ==== Sys2Proof/Machine/Flags.lean ====
section
/-! DEFINITION. Predicates and the carries and borrows that become scc or a mask (R73, R106, R107, R147). -/

namespace Sys2Proof.Machine

/-- Pred(p, a, b) on `w`-bit values (R73, R107): 0 eq, 1 ne, 2 lt, 3 le, 4 ltu, 5 leu, 6 gt, 7 ge; lt, le, gt and ge
compare signed values. -/
def pred (p w a b : Nat) : Bool :=
  match p with
  | 0 => a == b
  | 1 => a != b
  | 2 => decide (sgn w a < sgn w b)
  | 3 => decide (sgn w a ≤ sgn w b)
  | 4 => decide (a < b)
  | 5 => decide (a ≤ b)
  | 6 => decide (sgn w b < sgn w a)
  | _ => decide (sgn w b ≤ sgn w a)

/-- Sum of `w`-bit values with a carry in: the result and the carry out (R107, R147). -/
def addC (w a b : Nat) (c : Bool) : Nat × Bool :=
  let t := a + b + (if c then 1 else 0)
  (t % 2 ^ w, nbit t w)

/-- Difference of `w`-bit values with a borrow in: the result and the borrow out (R107, R147). -/
def subB (w a b : Nat) (c : Bool) : Nat × Bool :=
  let t : Int := (a : Int) - b - (if c then 1 else 0)
  (wrap w t, decide (t < 0))

/-- The condition of BRM over a lane set `lanes`, testing the mask `m` (R110): 0 none, 1 any, 2 all, 3 notall. -/
def brmCond (cond : Nat) (lanes m : Lanes) : Bool :=
  match cond with
  | 0 => lanes &&& m == 0
  | 1 => lanes &&& m != 0
  | 2 => lanes &&& ~~~m == 0
  | _ => lanes &&& ~~~m != 0

end Sys2Proof.Machine
end

