-- ==== Sys2Proof/Machine/Float.lean ====
section
/-! DEFINITION. Floating-point values computed exactly and rounded once: the formats of R167, decoding, the rounding
modes of R135, IEEE arithmetic, conversions and stochastic rounding (R139), comparison and classification (R137). -/

namespace Sys2Proof.Machine

/-- A floating-point format (R167): exponent bits, fraction bits, and its special encodings: 0 as IEEE, 1 NaN only
(FP8E4), 2 none. -/
structure Fmt where
  e : Nat
  m : Nat
  special : Nat
  deriving DecidableEq, Repr

/-- The formats of R167. -/
def fp64 : Fmt := { e := 11, m := 52, special := 0 }
def fp32 : Fmt := { e := 8, m := 23, special := 0 }
def fp19 : Fmt := { e := 8, m := 10, special := 0 }
def bf16 : Fmt := { e := 8, m := 7, special := 0 }
def fp16 : Fmt := { e := 5, m := 10, special := 0 }
def fp8e4 : Fmt := { e := 4, m := 3, special := 1 }
def fp8e5 : Fmt := { e := 5, m := 2, special := 0 }
def fp6e3 : Fmt := { e := 3, m := 2, special := 2 }
def fp6e2 : Fmt := { e := 2, m := 3, special := 2 }
def fp4 : Fmt := { e := 2, m := 1, special := 2 }

/-- An exact value: NaN, an infinity, or ± n × 2^k; a zero keeps its sign. -/
inductive FV where
  /-- Not a number. -/
  | nan
  /-- An infinity, negative or not. -/
  | inf (neg : Bool)
  /-- ± n × 2^k. -/
  | num (neg : Bool) (n : Nat) (k : Int)
  deriving DecidableEq, Repr

/-- Bits of the format. -/
def Fmt.width (f : Fmt) : Nat := 1 + f.e + f.m
/-- Exponent bias (R167). -/
def Fmt.bias (f : Fmt) : Nat := 2 ^ (f.e - 1) - 1
/-- Exponent of the last place of a subnormal. -/
def Fmt.qmin (f : Fmt) : Int := 1 - (f.bias : Int) - f.m
/-- Magnitude bits of the largest finite value. -/
def Fmt.top (f : Fmt) : Nat :=
  match f.special with
  | 0 => (2 ^ f.e - 1) * 2 ^ f.m - 1
  | 1 => 2 ^ (f.e + f.m) - 2
  | _ => 2 ^ (f.e + f.m) - 1
/-- The canonical NaN (R139, R167); a format without one gives 0. -/
def Fmt.nanBits (f : Fmt) : Nat :=
  match f.special with
  | 0 => (2 ^ f.e - 1) * 2 ^ f.m + 2 ^ (f.m - 1)
  | 1 => 2 ^ (f.e + f.m) - 1
  | _ => 0
/-- The sign bit's weight. -/
def Fmt.signBit (f : Fmt) : Nat := 2 ^ (f.e + f.m)
/-- Bits with a sign. -/
def Fmt.signed (f : Fmt) (neg : Bool) (mag : Nat) : Nat := mag + if neg then f.signBit else 0
/-- Bits of an infinity; the largest finite value where the format has none. -/
def Fmt.infBits (f : Fmt) (neg : Bool) : Nat :=
  f.signed neg (if f.special = 0 then (2 ^ f.e - 1) * 2 ^ f.m else f.top)

/-- The value of an encoding (R167). -/
def Fmt.val (f : Fmt) (x : Nat) : FV :=
  let neg := nbit x (f.e + f.m)
  let ex := x / 2 ^ f.m % 2 ^ f.e
  let fr := x % 2 ^ f.m
  if f.special = 0 && ex == 2 ^ f.e - 1 then (if fr = 0 then .inf neg else .nan)
  else if f.special = 1 && x % 2 ^ (f.e + f.m) == 2 ^ (f.e + f.m) - 1 then .nan
  else if ex = 0 then .num neg fr f.qmin
  else .num neg (fr + 2 ^ f.m) (f.qmin + (ex - 1 : Nat))

/-! ### Rounding -/

/-- Rounds n × 2^k to a multiple of 2^q, as the number of them: 0 nearest-even, 1 toward zero, 2 down, 3 up,
4 nearest-away (R119, R135); 6 stochastic with the bits `r` (R139). -/
def roundTo (mode : Nat) (r : Nat) (neg : Bool) (n : Nat) (k q : Int) : Nat :=
  if q ≤ k then n * 2 ^ (k - q).toNat
  else
    let sh := (q - k).toNat
    let hi := n / 2 ^ sh
    let rem := n % 2 ^ sh
    let half := 2 ^ (sh - 1)
    let up : Bool := match mode with
      | 0 => decide (half < rem) || (rem == half && hi % 2 == 1)
      | 1 => false
      | 2 => neg && rem != 0
      | 3 => !neg && rem != 0
      | 6 => rem != 0 && decide (r / 256 % 2 ^ 24 < rem * 2 ^ 24 / 2 ^ sh)
      | _ => decide (half ≤ rem)
    if up then hi + 1 else hi

/-- The exponent of the last place to which a format rounds n × 2^k, its exponent unbounded above. -/
def Fmt.quantum (f : Fmt) (n : Nat) (k : Int) : Int := max f.qmin ((bitLen n : Int) - 1 + k - f.m)

/-- Magnitude bits of n × 2^k rounded, beyond `top` when it overflows. -/
def Fmt.roundMag (f : Fmt) (mode r : Nat) (neg : Bool) (n : Nat) (k : Int) : Nat :=
  if n = 0 then 0
  else
    let q := f.quantum n k
    (q - f.qmin).toNat * 2 ^ f.m + roundTo mode r neg n k q

/-- What overflow gives in IEEE arithmetic by the mode (R135). -/
def Fmt.overflow (f : Fmt) (mode : Nat) (neg : Bool) : Nat :=
  match mode with
  | 1 => f.signed neg f.top
  | 2 => if neg then f.infBits true else f.top
  | 3 => if neg then f.signed true f.top else f.infBits false
  | _ => f.infBits neg

/-- An exact value rounded once as IEEE arithmetic does (R135). -/
def Fmt.round (f : Fmt) (mode : Nat) (v : FV) : Nat :=
  match v with
  | .nan => f.nanBits
  | .inf neg => f.infBits neg
  | .num neg n k =>
    let mag := f.roundMag mode 0 neg n k
    if f.top < mag then f.overflow mode neg else f.signed neg mag

/-- Convert to a floating-point format (R139); a format without infinity and NaN always saturates (R167). -/
def Fmt.convert (f : Fmt) (mode r : Nat) (sat : Bool) (v : FV) : Nat :=
  match v with
  | .nan => f.nanBits
  | .inf neg => f.infBits neg
  | .num neg n k =>
    let mag := f.roundMag mode r neg n k
    if f.top < mag then
      (if sat || f.special == 2 then f.signed neg f.top else if f.special == 1 then f.nanBits else f.infBits neg)
    else f.signed neg mag

/-- Did Convert saturate an element (R139 steps 2 and 4, R176)? -/
def Fmt.saturates (f : Fmt) (mode r : Nat) (v : FV) : Bool :=
  match v with
  | .nan => false
  | .inf _ => f.special != 0
  | .num neg n k => decide (f.top < f.roundMag mode r neg n k)

/-- An exact value rounded to an integer, before any bound (R139 step 3). -/
def roundInt (mode r : Nat) (neg : Bool) (n : Nat) (k : Int) : Int :=
  let x : Int := (roundTo mode r neg n k 0 : Nat)
  if neg then -x else x

/-- Convert to an integer of `w` bits (R139). -/
def convertInt (w : Nat) (signed : Bool) (mode r : Nat) (v : FV) : Int :=
  let lo : Int := if signed then -((2 ^ (w - 1) : Nat) : Int) else 0
  let hi : Int := ((if signed then 2 ^ (w - 1) else 2 ^ w : Nat) : Int) - 1
  match v with
  | .nan => 0
  | .inf neg => if neg then lo else hi
  | .num neg n k => max lo (min hi (roundInt mode r neg n k))

/-- Did the conversion to an integer saturate? -/
def saturatesInt (w : Nat) (signed : Bool) (mode r : Nat) (v : FV) : Bool :=
  match v with
  | .nan => false
  | .inf _ => true
  | .num neg n k =>
    let x := roundInt mode r neg n k
    decide (x < (if signed then -((2 ^ (w - 1) : Nat) : Int) else 0)) ||
      decide (((if signed then 2 ^ (w - 1) else 2 ^ w : Nat) : Int) ≤ x)

/-! ### Exact arithmetic on values -/

/-- Sign. -/
def FV.neg : FV → Bool
  | .nan => false
  | .inf b => b
  | .num b _ _ => b

/-- Is it NaN? -/
def FV.isNan : FV → Bool
  | .nan => true
  | _ => false

/-- Is it a finite number? -/
def FV.finite : FV → Bool
  | .num _ _ _ => true
  | _ => false

/-- Is it a zero? -/
def FV.isZero : FV → Bool
  | .num _ n _ => n == 0
  | _ => false

/-- The value with its sign turned. -/
def FV.negate : FV → FV
  | .nan => .nan
  | .inf b => .inf (!b)
  | .num b n k => .num (!b) n k

/-- Magnitude. -/
def FV.abs : FV → FV
  | .nan => .nan
  | .inf _ => .inf false
  | .num _ n k => .num false n k

/-- The value of an integer. -/
def FV.ofInt (x : Int) : FV := .num (decide (x < 0)) x.natAbs 0

/-- The exact product. -/
def FV.mul : FV → FV → FV
  | .nan, _ => .nan
  | _, .nan => .nan
  | .inf a, .inf b => .inf (a != b)
  | .inf a, .num b n _ => if n = 0 then .nan else .inf (a != b)
  | .num a n _, .inf b => if n = 0 then .nan else .inf (a != b)
  | .num a n k, .num b m l => .num (a != b) (n * m) (k + l)

/-- Signed multiple of 2^k that a finite value is, for a `k` not above its own. -/
def FV.scaled (v : FV) (k : Int) : Int :=
  match v with
  | .num neg n l => (if neg then -1 else 1) * ((n * 2 ^ (l - k).toNat : Nat) : Int)
  | _ => 0

/-- The exact sum of a list; an exact zero is −0 only when every term is a negative zero, or under rounding down when
terms cancel (IEEE). -/
def FV.sum (down : Bool) (l : List FV) : FV :=
  if l.any FV.isNan then .nan
  else
    let pos := l.any fun v => v == .inf false
    let neg := l.any fun v => v == .inf true
    if pos && neg then .nan
    else if pos then .inf false
    else if neg then .inf true
    else
      let k := l.foldl (fun a v => match v with
        | .num _ n e => if n = 0 then a else min a e
        | _ => a) (2000 : Int)
      let t : Int := l.foldl (fun a v => if v.isZero then a else a + v.scaled k) 0
      if t = 0 then
        let allZero := l.all FV.isZero
        let sg := if allZero && l.all FV.neg then true
          else if allZero && l.all (fun v => !v.neg) then false else down
        .num sg 0 0
      else .num (decide (t < 0)) t.natAbs k

/-- Orders two values that are not NaN: −1, 0 or 1; −0 and +0 are equal. -/
def FV.cmp (a b : FV) : Int :=
  match a, b with
  | .inf x, .inf y => if x == y then 0 else if x then -1 else 1
  | .inf x, _ => if x then -1 else 1
  | _, .inf y => if y then 1 else -1
  | .num _ _ k, .num _ _ l =>
    let q := min k l
    let d := a.scaled q - b.scaled q
    if d < 0 then -1 else if d = 0 then 0 else 1
  | _, _ => 0

/-- A quotient n/d × 2^k with its remainder folded below the last place of a quotient of at least `p` bits. -/
def divSticky (p n d : Nat) (k : Int) : Nat × Int :=
  let sh := p + bitLen d - bitLen n + 1
  let q := n * 2 ^ sh / d
  let s := if n * 2 ^ sh % d = 0 then 0 else 1
  (4 * q + s, k - sh - 2)

/-- The exact quotient with a sticky bit, enough for any format narrower than `p` bits. -/
def FV.div (p : Nat) : FV → FV → FV
  | .nan, _ => .nan
  | _, .nan => .nan
  | .inf _, .inf _ => .nan
  | .inf a, .num b _ _ => .inf (a != b)
  | .num a _ _, .inf b => .num (a != b) 0 0
  | .num a n k, .num b m l =>
    if m = 0 then (if n = 0 then .nan else .inf (a != b))
    else if n = 0 then .num (a != b) 0 0
    else
      let r := divSticky p n m (k - l)
      .num (a != b) r.1 r.2

/-- Integer square root by digits: the greatest r with r² ≤ n, for n below 4^fuel. -/
def isqrtGo (n : Nat) : Nat → Nat → Nat
  | 0, r => r
  | i + 1, r =>
    let t := r + 2 ^ i
    if t * t ≤ n then isqrtGo n i t else isqrtGo n i r

/-- Integer square root. -/
def isqrt (n : Nat) : Nat := isqrtGo n (bitLen n / 2 + 1) 0

/-- The square root with a sticky bit (R142 for what is not a positive number). -/
def FV.sqrt : FV → FV
  | .nan => .nan
  | .inf neg => if neg then .nan else .inf false
  | .num neg n k =>
    if n = 0 then .num neg 0 0
    else if neg then .nan
    else
      -- n × 2^k with an even exponent and at least 128 bits
      let odd : Nat := if k % 2 = 0 then 0 else 1
      let sh : Nat := 130 + odd
      let x := n * 2 ^ sh
      let r := isqrt x
      .num false (4 * r + if r * r = x then 0 else 1) ((k - sh) / 2 - 2)

/-- Minimum or maximum of R137 on values of the format: −0 below +0, a single NaN yields the other. -/
def Fmt.minmax (f : Fmt) (mx : Bool) (x y : Nat) : Nat :=
  let a := f.val x
  let b := f.val y
  if a.isNan && b.isNan then f.nanBits
  else if a.isNan then y
  else if b.isNan then x
  else
    let c := a.cmp b
    let less := if c = 0 then a.neg && !b.neg else decide (c < 0)
    if less != mx then x else y

/-- Predicates of FCMP (R137). -/
def fpred (p : Nat) (a b : FV) : Bool :=
  let un := a.isNan || b.isNan
  let c := a.cmp b
  match p with
  | 0 => !un && c == 0
  | 1 => un || c != 0
  | 2 => !un && decide (c < 0)
  | 3 => !un && decide (c ≤ 0)
  | 4 => !un && decide (0 < c)
  | 5 => !un && decide (0 ≤ c)
  | 6 => !un
  | _ => un

/-- FCLASS of an FP32 value (R137). -/
def fclassOf (x : Nat) : Nat :=
  let neg := nbit x 31
  let ex := x / 2 ^ 23 % 256
  let fr := x % 2 ^ 23
  if ex = 255 then
    (if fr = 0 then (if neg then 1 else 128) else if nbit x 22 then 512 else 256)
  else if ex = 0 then
    (if fr = 0 then (if neg then 8 else 16) else if neg then 4 else 32)
  else if neg then 2 else 64

/-- Rounded to an integral value in FP32 (R136): infinities and zeros unchanged, the sign kept. -/
def frndOf (mode x : Nat) : Nat :=
  match fp32.val x with
  | .nan => fp32.nanBits
  | .inf neg => fp32.infBits neg
  | .num neg n k => fp32.round 0 (.num neg (roundTo mode 0 neg n k 0) 0)

/-- The FP32 value of a word. -/
def fval (x : Word) : FV := fp32.val x.toNat

/-- The FP32 word of an exact value rounded by `mode`. -/
def fround (mode : Nat) (v : FV) : Word := BitVec.ofNat 32 (fp32.round mode v)

end Sys2Proof.Machine
end

