-- ==== Sys2Proof/Machine/Operands.lean ====
section
/-! DEFINITION. Every operand form: scalar operands and inline constants, pairs (R69, R104), the offset of a lane's
memory access (R255), immediates. The operands of the vector class stand here too (R70, R131, R132). -/

namespace Sys2Proof.Machine

/-- SOperand(f, 32): an inline constant or s[f] (R104). -/
def Wave.sop (w : Wave) (f : BitVec 8) : Word :=
  if 128 ≤ f.toNat then BitVec.ofNat 32 (f.toNat - 128) else w.sreg f.toNat

/-- SOperand(f, 64): an inline constant zero-extended, or the pair (R69, R104). -/
def Wave.sop64 (w : Wave) (f : BitVec 8) : DWord :=
  if 128 ≤ f.toNat then BitVec.ofNat 64 (f.toNat - 128) else w.spair f.toNat

/-- SOperand(f, w) as a number. -/
def Wave.sopN (w : Wave) (wide : Bool) (f : BitVec 8) : Nat := if wide then (w.sop64 f).toNat else (w.sop f).toNat

/-- SWrite(D, x, w) (R104). -/
def swrite (d : Nat) (wide : Bool) (x : Nat) : List WaveWrite :=
  .sreg d (BitVec.ofNat 32 x) :: if wide then [.sreg (d + 1) (BitVec.ofNat 32 (x / 2 ^ 32))] else []

/-- IMM11, sign-extended to a word (R73). -/
def simmK (f : K32) : Word := f.imm.signExtend 32

/-- IMM14, signed (R77). -/
def simmM (f : M64) : Int := f.imm.toInt

/-- Base and offset of a lane's access (R255): zext of A plus the signed immediate. -/
def Wave.memOff (w : Wave) (f : M64) (L : Nat) : Int :=
  (if f.asc then (w.sop f.a).toNat else (w.vlane f.a.toNat L).toNat : Nat) + simmM f

/-- The offset of a wave-uniform access with a scalar A (R257). -/
def Wave.uniOff (w : Wave) (f : M64) : Int := ((w.sop f.a).toNat : Int) + simmM f

/-! ### The vector class (R69, R70, R131, R132) -/

/-- VOperand of a field that is not indirect (R131). -/
def Wave.vop (w : Wave) (sc : Bool) (f : BitVec 8) (L : Nat) : Word := if sc then w.sop f else w.vlane f.toNat L

/-- VOperand(A, L), through x[XI] when XE = 1 (R70, R131). -/
def Wave.opA (w : Wave) (f : G64) (L : Nat) : Word :=
  if f.xe then w.vlane (w.xreg f.xi.toNat L) L else w.vop f.sa f.a L

/-- VOperand(B, L). -/
def Wave.opB (w : Wave) (f : G64) (L : Nat) : Word := w.vop f.sb f.b L

/-- VOperand(C, L). -/
def Wave.opC (w : Wave) (f : G64) (L : Nat) : Word := w.vop f.sc f.c L

/-- VOperand64 (R131). -/
def Wave.vop64 (w : Wave) (sc : Bool) (f : BitVec 8) (L : Nat) : DWord :=
  if sc then w.sop64 f else pair (w.vlane f.toNat L) (w.vlane (f.toNat + 1) L)

/-- Is a field an inline constant? -/
def isConst (sc : Bool) (f : BitVec 8) : Bool := sc && decide (128 ≤ f.toNat)

/-- An operand read as a floating-point type: an inline constant n is the value n (R69). -/
def fpOf (sc : Bool) (f : BitVec 8) (fmt : Fmt) (x : Nat) : FV :=
  if isConst sc f then FV.ofInt (f.toNat - 128 : Nat) else fmt.val x

/-- The bits of an operand read as FP32: an inline constant n is the FP32 number n (R69). -/
def fpBits (sc : Bool) (f : BitVec 8) (x : Word) : Word :=
  if isConst sc f then fround 0 (FV.ofInt (f.toNat - 128 : Nat)) else x

/-- The lowest active lane whose index reaches the bound of x[k] (R132). -/
def Wave.xFail (w : Wave) (k : Nat) : Option Nat := w.actList.find? fun L => (w.bnd k).xl ≤ w.xlane k L

/-- REG_INDEX for lane `L` of x[k] (R132). -/
def Wave.regIndex (w : Wave) (k L : Nat) : Act := w.trapHere 4 (L + 256 * k)

/-- The check of an indirect A before anything is written (R132). -/
def Wave.withIndex (w : Wave) (f : G64) (a : Act) : Act :=
  if f.xe then
    match w.xFail f.xi.toNat with
    | some L => w.regIndex f.xi.toNat L
    | none => a
  else a

/-- An instruction that writes v[D] in each active lane from its operands in that lane. -/
def lanewise (i : Instr) (f : G64) (s : State) (g : Wave → Nat → Word) : State :=
  run i s fun s =>
    let w := s.wave
    w.withIndex f (.wave (w.postIn s.clock w.vlat [.vreg f.d.toNat w.act (w.perLane (g w))]))

/-- An instruction that writes a pair of vector registers in each active lane. -/
def lanewise64 (i : Instr) (f : G64) (s : State) (g : Wave → Nat → DWord) : State :=
  run i s fun s =>
    let w := s.wave
    w.withIndex f (.wave (w.postIn s.clock w.vlat
      [.vreg f.d.toNat w.act (w.perLane fun L => lo32 (g w L)),
       .vreg (f.d.toNat + 1) w.act (w.perLane fun L => hi32 (g w L))]))

/-- An instruction that writes mask D in each active lane. -/
def lanePred (i : Instr) (f : G64) (s : State) (g : Wave → Nat → Bool) : State :=
  run i s fun s =>
    let w := s.wave
    w.withIndex f (.wave (w.postIn s.clock w.vlat [.mask f.d.toNat w.act (lanesOf (g w))]))

/-- An integer operation on the operands a and b of each active lane. -/
def intBin (i : Instr) (f : G64) (s : State) (g : Nat → Nat → Nat) : State :=
  lanewise i f s fun w L => BitVec.ofNat 32 (g (w.opA f L).toNat (w.opB f L).toNat)

end Sys2Proof.Machine
end

