-- ==== Sys2Proof/Machine/Control.lean ====
section
/-! DEFINITION. Branches, calls and loops, mask instructions, special registers, WAIT, BART, EXIT, YIELD, and the
prefixes REP and PBLK (R79, R80, R83, R84, R94, R110 to R130). -/

namespace Sys2Proof.Machine

/-! ### Branches, calls and loops (R110 to R113) -/

/-- PC + 2 × offset, the offset in halfwords from the address of the branch (R110). -/
def Wave.target (w : Wave) {n : Nat} (off : BitVec n) : DWord := w.pc + 2 * off.signExtend 64

/-- A branch taken when `c` holds; one that is not taken checks nothing (R111). -/
def branch (i : Instr) (s : State) (c : Wave → Bool) (target : Wave → DWord) : State :=
  runWave i s fun w => if c w then w.transfer (target w) w else .wave w

/-- The condition of BRM: over LIVE for em, over the lanes of em for m0 to m7 (R110). -/
def Wave.brm (w : Wave) (mask cond : Nat) : Bool :=
  if mask = 0 then brmCond cond w.live w.em else brmCond cond w.em (w.mask mask)

/-- A call: the link goes to s62:s63 and control to the target (R110, R112). -/
def callTo (i : Instr) (s : State) (target : Wave → DWord) : State :=
  runWave i s fun w => w.transfer (target w) (w.setSpair 62 (w.pc + BitVec.ofNat 64 (insLen i)))

/-- BRA, short (R110). -/
def execBraB32 (f : B32) (s : State) : Host.Outcome State Fault Refusal :=
  ok (branch (.braB32 f) s (fun _ => true) fun w => w.target f.off)

/-- BRA, long (R110). -/
def execBraL64 (f : L64) (s : State) : Host.Outcome State Fault Refusal :=
  ok (branch (.braL64 f) s (fun _ => true) fun w => w.target f.imm)

/-- BRC, short: OFF18 in bits 31:14, S in bit 13 (R74). -/
def execBrcB32 (f : B32) (s : State) : Host.Outcome State Fault Refusal :=
  ok (branch (.brcB32 f) s (fun w => w.scc == f.off.getLsbD 0) fun w => w.target (f.off.extractLsb' 1 18))

/-- BRC, long: S in SUB7 bit 0 (R75). -/
def execBrcL64 (f : L64) (s : State) : Host.Outcome State Fault Refusal :=
  ok (branch (.brcL64 f) s (fun w => w.scc == f.sub7.getLsbD 0) fun w => w.target f.imm)

/-- BRM, short: OFF13 in bits 31:19, the mask in bits 18:15, the condition in bits 14:13 (R74). -/
def execBrmB32 (f : B32) (s : State) : Host.Outcome State Fault Refusal :=
  ok (branch (.brmB32 f) s (fun w => w.brm (bits f.off 5 2) (bits f.off 1 0)) fun w =>
    w.target (f.off.extractLsb' 6 13))

/-- BRM, long: the mask in D, the condition in SUB7 bits 1:0 (R75). -/
def execBrmL64 (f : L64) (s : State) : Host.Outcome State Fault Refusal :=
  ok (branch (.brmL64 f) s (fun w => w.brm f.d.toNat (bits f.sub7 1 0)) fun w => w.target f.imm)

/-- CALL, short (R110). -/
def execCallB32 (f : B32) (s : State) : Host.Outcome State Fault Refusal :=
  ok (callTo (.callB32 f) s fun w => w.target f.off)

/-- CALL, long (R110). -/
def execCallL64 (f : L64) (s : State) : Host.Outcome State Fault Refusal :=
  ok (callTo (.callL64 f) s fun w => w.target f.imm)

/-- RET: PC := the pair D (R112). -/
def execRet (f : K32) (s : State) : Host.Outcome State Fault Refusal :=
  ok (branch (.ret f) s (fun _ => true) fun w => w.spair f.d.toNat)

/-- JMPI: PC := the pair D plus 2 × sext(IMM11) (R112). -/
def execJmpi (f : K32) (s : State) : Host.Outcome State Fault Refusal :=
  ok (branch (.jmpi f) s (fun _ => true) fun w => w.spair f.d.toNat + 2 * f.imm.signExtend 64)

/-- LOOP: the counter falls by one, and the branch is taken while it is not zero; the new counter is visible after 2
clocks (R113). -/
def execLoop (f : L64) (s : State) : Host.Outcome State Fault Refusal :=
  ok (run (.loop f) s fun s =>
    let w := s.wave
    let x := w.sreg f.d.toNat - 1
    let w' := w.postIn s.clock 2 [.sreg f.d.toNat x]
    if x != 0 then w.transfer (w.target f.imm) w' else .wave w')

/-! ### Masks (R114 to R116) -/

/-- MLOG: combines whole masks (R114). -/
def execMlog (f : G64) (s : State) : Host.Outcome State Fault Refusal :=
  ok (runScalar (.mlog f) s fun w =>
    let a := w.mask f.a.toNat
    let b := w.mask f.b.toNat
    let r : Lanes := match f.sub.toNat with
      | 0 => a &&& b
      | 1 => a ||| b
      | 2 => a ^^^ b
      | 3 => a &&& ~~~b
      | 4 => a ||| ~~~b
      | 5 => ~~~a
      | 6 => w.live
      | _ => 0
    [.mask f.d.toNat (BitVec.allOnes 64) r])

/-- Latency of MMOV: that of the scalar path for SUB 0 to 2, of the vector class for 3 and 4 (R115). -/
def mmovLat (w : Wave) (sub : BitVec 4) : Nat := if sub.toNat ≤ 2 then 2 else w.vlat

/-- MCNT (R116). -/
def execMcnt (f : G64) (s : State) : Host.Outcome State Fault Refusal :=
  ok (runScalar (.mcnt f) s fun w =>
    let a := w.mask f.a.toNat
    let r : Nat := match f.sub.toNat with
      | 0 => popcount a
      | 1 => (lowBit a).getD 0xFFFFFFFF
      | _ => (highBit a).getD 0xFFFFFFFF
    [.sreg f.d.toNat (BitVec.ofNat 32 r), .scc (a != 0)])

/-! ### Special registers (R117 to R122) -/

/-- The special register N of the wave in focus, for SRD (R118); LANEID is not one value. -/
def State.special (s : State) (n : Nat) : DWord :=
  let w := s.wave
  match n with
  | 0 => w.wid
  | 2 => BitVec.ofNat 64 w.slot
  | 3 => BitVec.ofNat 64 (if w.priv then Config.agentGroup % 8 else w.gslot)
  | 4 => BitVec.ofNat 64 w.core
  | 5 => BitVec.ofNat 64 (dieOf w.core)
  | 6 => BitVec.ofNat 64 w.width
  | 7 => s.dieClock (dieOf w.core)
  | 8 => w.fpctl.setWidth 64
  | 9 => w.fnctl.setWidth 64
  | 10 => w.qdepth.setWidth 64
  | 11 => w.trapcode.setWidth 64
  | _ => w.trapaddr

/-- SRD (R117). -/
def execSrd (f : K32) (s : State) : Host.Outcome State Fault Refusal :=
  ok (run (.srd f) s fun s =>
    let w := s.wave
    let n := bits f.imm 7 0
    let x := s.special n
    let d := f.d.toNat
    if f.imm.getLsbD 8 then
      let lane (v : Word) : List Word := w.perLane fun L => if n = 1 then BitVec.ofNat 32 L else v
      .wave (w.postIn s.clock w.vlat
        (.vreg d w.act (lane (lo32 x)) :: if specialPair n then [.vreg (d + 1) w.act (lane (hi32 x))] else []))
    else .wave (w.postIn s.clock 2 (swrite d (specialPair n) x.toNat)))

/-- A value that a writable special register cannot hold: a reserved bit set, or a reserved RM (R117, R119 to R121). [DEDUCED, log 21] -/
def specialBad (n : Nat) (x : DWord) : Bool :=
  match n with
  | 8 => x.toNat % 8 > 4 || bits x 7 3 != 0 || bits x 31 9 != 0
  | 9 => bits x 31 2 != 0
  | 11 => bits x 31 24 != 0
  | _ => false

/-- SWR (R117): from a scalar, or from the lowest active lane. -/
def execSwr (f : K32) (s : State) : Host.Outcome State Fault Refusal :=
  ok (run (.swr f) s fun s =>
    let w := s.wave
    let n := bits f.imm 7 0
    let write (x : DWord) : Act :=
      if specialBad n x then w.illegal else .wave (w.postIn s.clock 2 [.special n x])
    if f.imm.getLsbD 8 then
      match lowBit w.act with
      | none => .wave w
      | some L =>
        write (pair (w.vlane f.d.toNat L) (if specialPair n then w.vlane (f.d.toNat + 1) L else 0))
    else write (if specialPair n then w.sop64 f.d else (w.sop f.d).setWidth 64))

/-! ### Waiting (R94, R123) -/

/-- WaitHolds (R94). -/
def Wave.waitHolds (w : Wave) (imm : Word) : Bool :=
  ((List.range 4).all fun j => bits imm (4 * j + 3) (4 * j) == 15 || w.cnt j ≤ bits imm (4 * j + 3) (4 * j)) &&
    ((List.range 8).all fun j => !imm.getLsbD (16 + j) || w.cnt (4 + j) == 0)

/-- The engine instructions whose completion a WAIT makes certain: on k0 to k3 all but as many of the youngest as the condition
lets be outstanding, on k4 to k11 all (R93, R351). -/
def Wave.covered (w : Wave) (imm : Word) : List Nat :=
  let on (k : Nat) : List Nat := (w.unwaited.filter fun p => p.1 == k).map (·.2)
  let ids (k : Nat) : List Nat :=
    if k < 4 then
      let n := bits imm (4 * k + 3) (4 * k)
      if n = 15 then [] else (on k).take ((on k).length - n)
    else if imm.getLsbD (16 + (k - 4)) then on k else []
  (List.range 12).flatMap ids

/-- A WAIT orders the accesses of those instructions before what follows it (R351). -/
def Wave.waited_ (w : Wave) (imm : Word) : Wave :=
  let ids := w.covered imm
  { (ids.foldl (fun w i => w.joinHb (engAll i)) w) with unwaited := w.unwaited.filter fun p => !ids.contains p.2 }

/-- WAIT: retires once its conditions hold, and until then has not issued (R94). -/
def execWait (f : L64) (s : State) : Host.Outcome State Fault Refusal :=
  ok (run (.wait f) s fun s => if s.wave.waitHolds f.imm then .wave (s.wave.waited_ f.imm) else .stay s)

/-- An outstanding access to memory that has not been performed (R265). -/
def Effect.isAccess : Effect → Bool
  | .load _ _ _ _ => true
  | .store _ => true
  | .atomic _ _ _ => true
  | .cas _ _ => true
  | .ldk _ _ => true
  | .tld _ _ _ => true
  | .ttrl _ _ => true
  | .stores _ _ => true
  | .accld _ _ _ _ _ _ _ => true
  | .accst _ _ _ _ _ _ _ _ => true
  | .accq _ _ _ _ _ _ => true
  | .barr _ _ _ => true
  | _ => false

/-- A TCFG of the wave that has not taken effect (R293, R294). -/
def Wave.tcfgDue (w : Wave) : Bool := w.pend.any fun p => match p.2 with
  | .tcfg _ _ => true
  | _ => false

/-- Every access of the wave in focus before identifier `id` has been performed, every tile or matrix instruction has
completed (R294), and its core's side log holds none of its writes (R231, R256, R265). -/
def State.accessesDone (s : State) (id : Nat) : Bool :=
  !(s.wave.outst.any fun o => o.id < id && (o.eff.isAccess || o.cls == some 3)) && !s.wave.tcfgDue &&
    !(s.myCore.log.any fun e => e.slot == s.wave.slot && e.launch == s.wave.launch)

/-- BART: arrives at a tag of the launch and is held until the phase has been released (R123). With ORD the arrival is
sent only once the wave's earlier accesses are performed (R124). -/
def execBart (f : K32) (s : State) : Host.Outcome State Fault Refusal :=
  ok (run (.bart f) s fun s =>
    let w := s.wave
    let t := bits f.imm 2 0
    if w.priv || !s.myLaunch.btags.getLsbD t then w.illegal
    else if f.imm.getLsbD 3 && !s.accessesDone s.fresh then .stay { s with wave := { w with hold := .pipeline } }
    else
      .stay (State.phaseCheck
        { s with wave := { w with arrived := some t, arrOrd := f.imm.getLsbD 3, hold := .bart t, lastIssue := s.clock + 1, resume := .none } }
        w.launch t))

/-! ### Ending and yielding (R126, R128) -/

/-- EXIT (R126); in the privileged slot it retires with no effect. -/
def execExit (f : K32) (s : State) : Host.Outcome State Fault Refusal :=
  ok (run (.exit f) s fun s =>
    let w := s.wave
    if w.priv then .wave w
    else if f.imm.getLsbD 0 then
      let live := w.live &&& ~~~w.em
      if live == 0 then .stay (State.endWave { s with wave := { w with live := 0, em := 0 } })
      else .wave { w with live := live, em := 0 }
    else .stay s.endWave)

/-- YIELD: takes a new Age and is not Ready for Y clocks (R128). -/
def execYield (f : K32) (s : State) : Host.Outcome State Fault Refusal :=
  ok (run (.yield f) s fun s =>
    let w := s.wave
    let c := s.myCore
    .state { s.setCore w.core { c with nextAge := c.nextAge + 1 } with
      wave := { w with age := c.nextAge, waited := 0, promoted := false,
                       notBefore := s.clock + bits f.imm 9 0 + 1 } })

/-! ### The prefixes (R79, R80, R83, R84, R129, R130) -/

/-- The G64 equivalent of a C16 word (R72). -/
def c16Equiv (f : C16) : G64 :=
  { xe := false, xi := 0, sub := 0, mod := 0, sc := false, sb := false, sa := false, c := 0,
    b := f.vb.setWidth 8, a := f.vd.setWidth 8, d := f.vd.setWidth 8, cf := 15,
    dist := if f.d4 then 4 else 0 }

/-- The instruction whose fields a REP steps: a C16 word as its equivalent (R72, R79). -/
def expand (i : Instr) : Instr :=
  match i with
  | .vmovC16 f => .vmov { c16Equiv f with a := 0 }
  | .vaddC16 f => .vaddG64 (c16Equiv f)
  | .vsubC16 f => .vsubG64 (c16Equiv f)
  | .vmulC16 f => .vmul (c16Equiv f)
  | .vandC16 f => .vandG64 (c16Equiv f)
  | .vorC16 f => .vorG64 (c16Equiv f)
  | .vxorC16 f => .vxorG64 (c16Equiv f)
  | .vshlC16 f => .vshl (c16Equiv f)
  | .vshrC16 f => .vshr (c16Equiv f)
  | .vminC16 f => .vmin (c16Equiv f)
  | .vmaxC16 f => .vmax (c16Equiv f)
  | .faddC16 f => .fadd (c16Equiv f)
  | .fsubC16 f => .fsub (c16Equiv f)
  | .fmulC16 f => .fmul (c16Equiv f)
  | .fminC16 f => .fmin (c16Equiv f)
  | .fmaxC16 f => .fmax (c16Equiv f)
  | i => i

/-- The register fields D, A, B and C of a word by its bits (R73 to R78): those that its form has. -/
def fieldAt (form : Form) (x : Fin 4) : Option Nat :=
  match form, x.val with
  | .k32, 0 => some 13
  | .l64, 0 => some 17
  | .m64, 0 => some 17
  | .m64, 1 => some 25
  | .g64, 0 => some 17
  | .g64, 1 => some 25
  | .g64, 2 => some 33
  | .g64, 3 => some 41
  | _, _ => none

/-- The word of an instruction as a number. -/
def wordNat (i : Instr) : Nat := ofBytes (encode i)

/-- The instruction that a word of the same form and length holds. -/
def fromWord (i : Instr) (n : Nat) : Instr :=
  match opForm i with
  | (op, .k32) => (byOp32 op (BitVec.ofNat 32 n)).getD i
  | (op, .l64) => (byOp64 op (BitVec.ofNat 64 n)).getD i
  | (op, .g64) => (byOp64 op (BitVec.ofNat 64 n)).getD i
  | (op, .m64) => (byOp64 op (BitVec.ofNat 64 n)).getD i
  | _ => i

/-- The value of a register field. -/
def fieldVal (i : Instr) (x : Fin 4) : Nat :=
  match fieldAt (opForm i).2 x with
  | none => 0
  | some p => wordNat i / 2 ^ p % 256

/-- An instruction with a register field replaced. [DEDUCED, log 27] -/
def setField (i : Instr) (x : Fin 4) (v : Nat) : Instr :=
  match fieldAt (opForm i).2 x with
  | none => i
  | some p =>
    let n := wordNat i
    fromWord i (n - n / 2 ^ p % 256 * 2 ^ p + v % 256 * 2 ^ p)

/-- May a field be stepped: the instruction has it, and it holds no inline constant (R79)? A field that must be 0
passes the checks with no other value, and a vector field passes them with 64, which no scalar field does. [DEDUCED, log 26] -/
def stepOk (i : Instr) (x : Fin 4) : Bool :=
  (fieldAt (opForm i).2 x).isSome && if !fieldsOk Limits.most i then true else
    ([2, 4, 8].any fun v => fieldsOk Limits.most (setField i x v)) &&
    (fieldVal i x < 128 || fieldsOk Limits.most (setField i x 64))

/-- Step codes 0 to 3 add 0, 1, 2 or 4 (R79). -/
def stepSize (c : BitVec 2) : Nat := if c = 3 then 4 else c.toNat

/-- Repeat `j` of the covered instruction: each field by its step; none: a field steps out of its 8 bits. In the K32
form of VCMPI the register is the low five bits of D (R73). -/
def stepped (i : Instr) (std sta stb stc j : Nat) : Option Instr :=
  let one (i : Option Instr) (x : Fin 4) (st : Nat) : Option Instr :=
    match i with
    | none => none
    | some i =>
      if st = 0 || j = 0 then some i
      else
        let v := fieldVal i x
        match i with
        | .vcmpiK32 _ => if v % 32 + j * st < 32 then some (setField i x (v + j * st)) else none
        | _ => if v + j * st < 256 then some (setField i x (v + j * st)) else none
  one (one (one (one (some i) 0 std) 1 sta) 2 stb) 3 stc

/-- An instruction with the register fields A, B, C and D and the class bits `cls` in the places of its form (R73 to R78). -/
def withRegs (i : Instr) (regs cls : Nat) : Instr :=
  let put (n p w v : Nat) : Nat := n - n / 2 ^ p % 2 ^ w * 2 ^ p + v % 2 ^ w * 2 ^ p
  let n := wordNat i
  match (opForm i).2 with
  | .k32 => fromWord i (put n 13 8 regs)
  | .l64 => fromWord i (put n 17 8 regs)
  | .m64 => fromWord i (put (put (put n 17 8 regs) 25 8 regs) 36 1 cls)
  | .g64 => fromWord i (put (put (put (put (put n 17 8 regs) 25 8 regs) 33 8 (2 * regs)) 41 8 (4 * regs)) 49 15 (n / 2 ^ 52 % 256 * 8 + cls))
  | _ => i

/-- Does no reserved value stand in a field (check 4 of R83): do the same fields pass the checks with some registers and class
bits? -/
def reservedFree (i : Instr) : Bool :=
  fieldsOk Limits.most i ||
    [0, 8].any fun r => (List.range 8).any fun c => fieldsOk Limits.most (withRegs i r c)

/-- How a covered instruction fails: the check's order (1 to 6), the trap and its detail. -/
def State.coverFail (s : State) (covers : Nat → Bool) (d : Except DecodeError (Instr × List Byte)) :
    Option (Nat × Nat × Nat) :=
  let checks (i : Instr) : Option (Nat × Nat × Nat) :=
    match s.check i with
    | some (0x13, b) => some (2, 0x13, b)
    | some (3, b) => some (3, 3, b)
    | _ =>
      if !reservedFree i then some (4, 2, 0)
      else if !covers (insOp i) || !fieldsOk Limits.most i then some (5, 2, 0)
      else if !fieldsOk s.limits i then some (6, 2, 0) else none
  match d with
  | .ok (i, _) => checks i
  | .error (.illegalOperand i) =>
    match checks i with
    | some (5, c, n) => if fieldsOk Limits.most i then some (4, c, n) else some (5, c, n)
    | some x => some x
    | none => some (4, 2, 0)
  | .error _ => some (1, 1, 0)

/-- What reading the covered instructions gives. -/
inductive Covered where
  /-- The instructions with their addresses, and the address after them. -/
  | ok (s : State) (body : List (DWord × Instr)) (after : DWord)
  /-- The first failure by order of check, then by place: order, trap, detail, offset. -/
  | bad (ord code detail off : Nat)
  /-- The fetch ends otherwise. -/
  | fetch (f : Fetched)

/-- Reads `n` covered instructions from `at_` on (R83, R84). A failure of an earlier instruction stands before a fetch fault of
a later one. -/
def State.readCovered (s : State) (covers : Nat → Bool) (start at_ : DWord) : Nat → Covered
  | 0 => .ok s [] at_
  | n + 1 =>
    match s.fetch s.wave.core at_.toNat with
    | .ok s1 bs =>
      let len := lengthOf (bs.headD 0)
      let d := decode bs
      let rest := s1.readCovered covers start (at_ + BitVec.ofNat 64 len) n
      match s.coverFail covers d, rest with
      | some (o, c, dt), .bad o2 c2 dt2 off2 =>
        if o ≤ o2 then .bad o c dt (at_ - start).toNat else .bad o2 c2 dt2 off2
      | some (o, c, dt), _ => .bad o c dt (at_ - start).toNat
      | none, .ok s2 body after =>
        match d with
        | .ok (i, _) => .ok s2 ((at_, i) :: body) after
        | .error _ => .bad 1 1 0 (at_ - start).toNat
      | none, r => r
    | r => .fetch r

/-- The outcome of a prefix whose covered instructions cannot be read or decoded: a failure is reported at the prefix,
with the offset of the failing instruction in bits 15:8 of the detail (R83); a fetch fault is taken there (R66). -/
def State.prefixFails (s : State) (c : Covered) : Act :=
  match c with
  | .bad _ code detail off => .trap code (256 * off + detail) s.wave.pc
  | .fetch (.absent va) => .stay (s.holdFault va 1)
  | .fetch (.trap code d addr) => .trap code d addr
  | .fetch (.wait t) => .stay { t with wave := { t.wave with hold := .unissued } }
  | _ => .stay s

/-- Does a REP step a field that the instruction at an address lacks, or one that holds an inline constant (R79)? -/
def State.stepsBad (s : State) (f : Rep) (at_ : DWord) : Bool :=
  let bad (i : Instr) : Bool :=
    let e := expand i
    let sz (x : Fin 4) (c : BitVec 2) : Bool := c == 0 || stepOk e x
    !(sz 0 f.std && sz 1 f.sta && sz 2 f.stb && sz 3 f.stc) || ((opForm i).2 == .c16 && (f.sta != 0 || f.stc != 0))
  match s.fetch s.wave.core at_.toNat with
  | .ok _ bs =>
    match decode bs with
    | .ok (i, _) => bad i
    | .error (.illegalOperand i) => bad i
    | .error _ => false
  | _ => false

/-- REP: the covered instruction is decoded with it, and its repeats issue from here on (R79, R129). Its own steps are a field
of check 5, and stand before the covered instruction's failure of checks 5 and 6 (R83). -/
def execRep (f : Rep) (s : State) : Host.Outcome State Fault Refusal :=
  ok (run (.rep f) s fun s =>
    let w := s.wave
    let n := f.cnt.toNat + 1
    match s.readCovered repCovers w.pc (w.pc + 4) 1 with
    | .bad ord code detail off =>
      if 5 ≤ ord && s.stepsBad f (w.pc + 4) then w.illegal else s.prefixFails (.bad ord code detail off)
    | .ok t [(at_, i)] after =>
      let e := expand i
      let c16 := (opForm i).2 == .c16
      if s.stepsBad f (w.pc + 4) then w.illegal
      else
        let j0 := match w.resume with
          | .rep j => j
          | _ => 0
        if n < j0 then w.illegal
        else if j0 = n then .stay { t with wave := { w with pc := after, lastIssue := s.clock + 1, resume := .none } }
        else
          .stay { t with wave := { w with
            lastIssue := s.clock + 1, resume := .none,
            rep := some { j := j0, n := n, std := stepSize f.std,
                          sta := if !c16 then stepSize f.sta else if insOp e == 0x4F then 0 else stepSize f.std,
                          stb := stepSize f.stb, stc := stepSize f.stc, ins := e, insAt := at_, after := after } } }
    | c => s.prefixFails c)

/-- PBLK: captures its condition, and the covered instructions issue from here on (R80, R130). -/
def execPblk (f : Pblk) (s : State) : Host.Outcome State Fault Refusal :=
  ok (run (.pblk f) s fun s =>
    let w := s.wave
    let n := f.cnt.toNat + 1
    match s.readCovered pblkCovers w.pc (w.pc + 4) n with
    | .ok t body after =>
      let m := w.mask (f.cm.toNat + 1)
      let (j0, c) := match w.resume with
        | .pblk j c => (j, c)
        | _ => (0, if f.sense then m else ~~~m)
      if n < j0 then w.illegal
      else if j0 = n then .stay { t with wave := { w with pc := after, lastIssue := s.clock + 1, resume := .none } }
      else
        .stay { t with wave := { w with
          lastIssue := s.clock + 1, resume := .none,
          pblk := some { j := j0, cond := c, pat := f.pat, body := body.drop j0, after := after } } }
    | c => s.prefixFails c)

end Sys2Proof.Machine
end

