-- ==== Sys2Proof/Machine/Scalar.lean ====
section
/-! DEFINITION. The scalar instructions 0x00 to 0x0F (R104 to R109). Results land after 2 clocks (R88). -/

namespace Sys2Proof.Machine

/-- Width of a G64 operation of the scalar path. -/
def spWidth (f : G64) : Nat := if wbit f then 64 else 32

/-- A two-operand operation of the scalar path on `w`-bit numbers. -/
def scalarBin (i : Instr) (f : G64) (s : State) (op : Nat → Nat → Nat → Nat) : State :=
  runScalar i s fun w =>
    swrite f.d.toNat (wbit f) (op (spWidth f) (w.sopN (wbit f) f.a) (w.sopN (wbit f) f.b) % 2 ^ spWidth f)

/-- A K32 operation in place: s[D] := s[D] op sext(IMM11) (R108). -/
def scalarImm (i : Instr) (f : K32) (s : State) (op : Nat → Nat → Nat) : State :=
  runScalar i s fun w =>
    [.sreg f.d.toNat (BitVec.ofNat 32 (op (w.sreg f.d.toNat).toNat (simmK f).toNat))]

/-- Left shift of a `w`-bit value (R107). -/
def shiftL (w a n : Nat) : Nat := if w ≤ n then 0 else a * 2 ^ n % 2 ^ w

/-- Right shift of a `w`-bit value, logical or arithmetic (R107). -/
def shiftR (w a n : Nat) (arith : Bool) : Nat :=
  if w ≤ n then (if arith && nbit a (w - 1) then 2 ^ w - 1 else 0)
  else if arith then wrap w (sgn w a / (2 ^ n : Nat)) else a / 2 ^ n

/-- Difference modulo 2^w. -/
def subMod (w a b : Nat) : Nat := (a + 2 ^ w - b) % 2 ^ w

/-- A bit field of a word from `pos`, `wid` bits, zero- or sign-extended to 32 bits (R107). -/
def bitField (a pos wid0 : Nat) (signed : Bool) : Nat :=
  let wid := min wid0 (32 - pos)
  if wid = 0 then 0
  else
    let x := a / 2 ^ pos % 2 ^ wid
    if signed then wrap 32 (sgn wid x) else x

/-- NOP K: none (R108). -/
def execNopK32 (f : K32) (s : State) : Host.Outcome State Fault Refusal := ok (runScalar (.nopK32 f) s fun _ => [])

/-- NOP L: none; IMM32 is a tag (R108). -/
def execNopL64 (f : L64) (s : State) : Host.Outcome State Fault Refusal := ok (runScalar (.nopL64 f) s fun _ => [])

/-- SMOV: r := a (R107). -/
def execSmov (f : G64) (s : State) : Host.Outcome State Fault Refusal :=
  ok (runScalar (.smov f) s fun w => swrite f.d.toNat (wbit f) (w.sopN (wbit f) f.a))

/-- SMOVI K: s[D] := sext(IMM11) (R108). -/
def execSmoviK32 (f : K32) (s : State) : Host.Outcome State Fault Refusal :=
  ok (runScalar (.smoviK32 f) s fun _ => [.sreg f.d.toNat (simmK f)])

/-- SMOVI L: s[D] := IMM32, or the pair D := sext64(IMM32) (R108). -/
def execSmoviL64 (f : L64) (s : State) : Host.Outcome State Fault Refusal :=
  ok (runScalar (.smoviL64 f) s fun _ =>
    if f.sub7.getLsbD 0 then swrite f.d.toNat true (f.imm.signExtend 64).toNat else [.sreg f.d.toNat f.imm])

/-- SADD K (R108). -/
def execSaddK32 (f : K32) (s : State) : Host.Outcome State Fault Refusal :=
  ok (scalarImm (.saddK32 f) f s fun a b => a + b)

/-- SADD, with a carry out under `.co` and `.ci`, and a carry in under `.ci` (R107). -/
def execSaddG64 (f : G64) (s : State) : Host.Outcome State Fault Refusal :=
  ok (runScalar (.saddG64 f) s fun w =>
    let r := addC (spWidth f) (w.sopN (wbit f) f.a) (w.sopN (wbit f) f.b) (f.sub == 2 && w.scc)
    swrite f.d.toNat (wbit f) r.1 ++ if f.sub == 0 then [] else [.scc r.2])

/-- SSUB K (R108). -/
def execSsubK32 (f : K32) (s : State) : Host.Outcome State Fault Refusal :=
  ok (scalarImm (.ssubK32 f) f s fun a b => subMod 32 a b)

/-- SSUB, with a borrow out under `.co` and `.ci`, and a borrow in under `.ci` (R107). -/
def execSsubG64 (f : G64) (s : State) : Host.Outcome State Fault Refusal :=
  ok (runScalar (.ssubG64 f) s fun w =>
    let r := subB (spWidth f) (w.sopN (wbit f) f.a) (w.sopN (wbit f) f.b) (f.sub == 2 && w.scc)
    swrite f.d.toNat (wbit f) r.1 ++ if f.sub == 0 then [] else [.scc r.2])

/-- SMUL K (R108). -/
def execSmulK32 (f : K32) (s : State) : Host.Outcome State Fault Refusal :=
  ok (scalarImm (.smulK32 f) f s fun a b => a * b)

/-- SMUL: the low 32 bits of the product (R107). -/
def execSmulG64 (f : G64) (s : State) : Host.Outcome State Fault Refusal :=
  ok (scalarBin (.smulG64 f) f s fun _ a b => a * b)

/-- The high 32 bits of a product of 32-bit values, signed or unsigned (R107). -/
def mulHigh (signed : Bool) (a b : Nat) : Nat :=
  if signed then wrap 32 (sgn 32 a * sgn 32 b / (2 ^ 32 : Nat)) else a * b / 2 ^ 32

/-- SMULH (R107). -/
def execSmulh (f : G64) (s : State) : Host.Outcome State Fault Refusal :=
  ok (scalarBin (.smulh f) f s fun _ a b => mulHigh (f.sub == 0) a b)

/-- SAND K (R108). -/
def execSandK32 (f : K32) (s : State) : Host.Outcome State Fault Refusal :=
  ok (scalarImm (.sandK32 f) f s fun a b => a &&& b)

/-- SAND (R107). -/
def execSandG64 (f : G64) (s : State) : Host.Outcome State Fault Refusal :=
  ok (scalarBin (.sandG64 f) f s fun _ a b => a &&& b)

/-- SOR K (R108). -/
def execSorK32 (f : K32) (s : State) : Host.Outcome State Fault Refusal :=
  ok (scalarImm (.sorK32 f) f s fun a b => a ||| b)

/-- SOR (R107). -/
def execSorG64 (f : G64) (s : State) : Host.Outcome State Fault Refusal :=
  ok (scalarBin (.sorG64 f) f s fun _ a b => a ||| b)

/-- SXOR K (R108). -/
def execSxorK32 (f : K32) (s : State) : Host.Outcome State Fault Refusal :=
  ok (scalarImm (.sxorK32 f) f s fun a b => a ^^^ b)

/-- SXOR (R107). -/
def execSxorG64 (f : G64) (s : State) : Host.Outcome State Fault Refusal :=
  ok (scalarBin (.sxorG64 f) f s fun _ a b => a ^^^ b)

/-- SSHL K: by IMM11[4:0] (R108). -/
def execSshlK32 (f : K32) (s : State) : Host.Outcome State Fault Refusal :=
  ok (scalarImm (.sshlK32 f) f s fun a _ => shiftL 32 a (bits f.imm 4 0))

/-- SSHL: the amount is the 32-bit operand B (R107). -/
def execSshlG64 (f : G64) (s : State) : Host.Outcome State Fault Refusal :=
  ok (runScalar (.sshlG64 f) s fun w =>
    swrite f.d.toNat (wbit f) (shiftL (spWidth f) (w.sopN (wbit f) f.a) (w.sop f.b).toNat))

/-- SSHR K: by IMM11[4:0], arithmetic when bit 5 is 1 (R108). -/
def execSshrK32 (f : K32) (s : State) : Host.Outcome State Fault Refusal :=
  ok (scalarImm (.sshrK32 f) f s fun a _ => shiftR 32 a (bits f.imm 4 0) (f.imm.getLsbD 5))

/-- SSHR: the amount is the 32-bit operand B; SUB 1 is arithmetic (R107). -/
def execSshrG64 (f : G64) (s : State) : Host.Outcome State Fault Refusal :=
  ok (runScalar (.sshrG64 f) s fun w =>
    swrite f.d.toNat (wbit f) (shiftR (spWidth f) (w.sopN (wbit f) f.a) (w.sop f.b).toNat (f.sub == 1)))

/-- SCMP K: scc := Pred(IMM11[9:7], SOperand(D, w), SOperand(IMM11[5:0], w)) (R108). -/
def execScmpK32 (f : K32) (s : State) : Host.Outcome State Fault Refusal :=
  ok (runScalar (.scmpK32 f) s fun w =>
    let wide := f.imm.getLsbD 6
    [.scc (pred (bits f.imm 9 7) (if wide then 64 else 32) (w.sopN wide f.d)
      (w.sopN wide (BitVec.ofNat 8 (bits f.imm 5 0))))])

/-- SCMP L: scc := Pred(SUB7[2:0], SOperand(D, w), sext(IMM32)) (R108). -/
def execScmpL64 (f : L64) (s : State) : Host.Outcome State Fault Refusal :=
  ok (runScalar (.scmpL64 f) s fun w =>
    let wide := f.sub7.getLsbD 3
    [.scc (pred (bits f.sub7 2 0) (if wide then 64 else 32) (w.sopN wide f.d)
      (if wide then (f.imm.signExtend 64).toNat else f.imm.toNat))])

/-- SSEL: r := a if scc = 1 else b (R107). -/
def execSsel (f : G64) (s : State) : Host.Outcome State Fault Refusal :=
  ok (runScalar (.ssel f) s fun w =>
    swrite f.d.toNat (wbit f) (if w.scc then w.sopN (wbit f) f.a else w.sopN (wbit f) f.b))

/-- Minimum or maximum by SUB: 0 min, 1 max, signed; 2 minu, 3 maxu, unsigned (R107). -/
def minmax (sub w a b : Nat) : Nat :=
  match sub with
  | 0 => if sgn w a ≤ sgn w b then a else b
  | 1 => if sgn w a ≤ sgn w b then b else a
  | 2 => min a b
  | _ => max a b

/-- SMINMAX (R107). -/
def execSminmax (f : G64) (s : State) : Host.Outcome State Fault Refusal :=
  ok (scalarBin (.sminmax f) f s fun w a b => minmax f.sub.toNat w a b)

/-- SBFX (R107). -/
def execSbfx (f : G64) (s : State) : Host.Outcome State Fault Refusal :=
  ok (runScalar (.sbfx f) s fun w =>
    [.sreg f.d.toNat (BitVec.ofNat 32
      (bitField (w.sop f.a).toNat ((w.sop f.b).toNat % 32) ((w.sop f.c).toNat % 64) (f.sub == 1)))])

end Sys2Proof.Machine
end

