-- ==== Sys2Proof/Machine/Vector.lean ====
section
/-! DEFINITION. Vector integer arithmetic, moves, index registers, packing, 64-bit lanes and the register-group
transpose (R115, R131 to R134, R143 to R151). Results land after 4 clocks, or 5 at width 64 (R88). -/

namespace Sys2Proof.Machine

/-! ### Integer arithmetic (R133, R134) -/

/-- Bits of an element by MOD: 32, 16 or 8 (R133). -/
def elemBits (mod : BitVec 4) : Nat := if mod == 1 then 16 else if mod == 2 then 8 else 32

/-- An operation on each element of two words, with no carry between them (R133). -/
def elementwise (e a b : Nat) (g : Nat → Nat → Nat) : Nat :=
  (List.range (32 / e)).foldl (fun r i => r + g (a / 2 ^ (e * i) % 2 ^ e) (b / 2 ^ (e * i) % 2 ^ e) * 2 ^ (e * i)) 0

/-- A sum or difference of elements: wrapped, or clamped signed or unsigned (R133). -/
def addSub (sub : Bool) (variant e a b : Nat) : Nat :=
  let t (x y : Int) : Int := if sub then x - y else x + y
  match variant with
  | 0 => wrap e (t a b)
  | 1 => wrap e (clampS e (t (sgn e a) (sgn e b)))
  | _ => wrap e (clampU e (t a b))

/-- Minimum or maximum of elements, signed or unsigned (R133). -/
def elemMinMax (mx unsigned : Bool) (e a b : Nat) : Nat :=
  minmax ((if mx then 1 else 0) + if unsigned then 2 else 0) e a b

/-- Reverses the 32 bits of a word (R133). -/
def bitRev (a : Nat) : Nat := (List.range 32).foldl (fun r j => r + if nbit a j then 2 ^ (31 - j) else 0) 0

/-- VPOPC by SUB (R133). -/
def popcOp (sub : Nat) (a : Word) : Nat :=
  match sub with
  | 0 => popcount a
  | 1 => 32 - bitLen a.toNat
  | 2 => (lowBit a).getD 32
  | _ => bitRev a.toNat

/-- A K32 operation of the vector class in place (R134). -/
def vecImm (i : Instr) (f : K32) (s : State) (g : Nat → Nat → Nat) : State :=
  runVector i s fun w =>
    [.vreg f.d.toNat w.act (w.perLane fun L =>
      BitVec.ofNat 32 (g (w.vlane f.d.toNat L).toNat (simmK f).toNat))]

/-- A C16 operation: its equivalent's, on v[VD] and v[VB] (R72). -/
def compact (i : Instr) (f : C16) (s : State) (g : Nat → Nat → Nat) : State :=
  runVector i s fun w =>
    [.vreg f.vd.toNat w.act (w.perLane fun L =>
      BitVec.ofNat 32 (g (w.vlane f.vd.toNat L).toNat (w.vlane f.vb.toNat L).toNat))]

/-- VADD K (R134). -/
def execVaddK32 (f : K32) (s : State) : Host.Outcome State Fault Refusal := ok (vecImm (.vaddK32 f) f s fun a b => a + b)
/-- VADD (R133). -/
def execVaddG64 (f : G64) (s : State) : Host.Outcome State Fault Refusal :=
  ok (intBin (.vaddG64 f) f s fun a b =>
    elementwise (elemBits f.mod) a b (addSub false f.sub.toNat (elemBits f.mod)))
/-- VADD C16 (R72). -/
def execVaddC16 (f : C16) (s : State) : Host.Outcome State Fault Refusal := ok (compact (.vaddC16 f) f s fun a b => a + b)
/-- VSUB K (R134). -/
def execVsubK32 (f : K32) (s : State) : Host.Outcome State Fault Refusal := ok (vecImm (.vsubK32 f) f s (subMod 32))
/-- VSUB (R133). -/
def execVsubG64 (f : G64) (s : State) : Host.Outcome State Fault Refusal :=
  ok (intBin (.vsubG64 f) f s fun a b =>
    elementwise (elemBits f.mod) a b (addSub true f.sub.toNat (elemBits f.mod)))
/-- VSUB C16 (R72). -/
def execVsubC16 (f : C16) (s : State) : Host.Outcome State Fault Refusal := ok (compact (.vsubC16 f) f s (subMod 32))
/-- VMUL (R133). -/
def execVmul (f : G64) (s : State) : Host.Outcome State Fault Refusal := ok (intBin (.vmul f) f s fun a b => a * b)
/-- VMUL C16 (R72). -/
def execVmulC16 (f : C16) (s : State) : Host.Outcome State Fault Refusal := ok (compact (.vmulC16 f) f s fun a b => a * b)
/-- VMULH (R133). -/
def execVmulh (f : G64) (s : State) : Host.Outcome State Fault Refusal := ok (intBin (.vmulh f) f s (mulHigh (f.sub == 0)))
/-- VMAD (R133). -/
def execVmad (f : G64) (s : State) : Host.Outcome State Fault Refusal :=
  ok (lanewise (.vmad f) f s fun w L => w.opA f L * w.opB f L + w.opC f L)
/-- VAND K (R134). -/
def execVandK32 (f : K32) (s : State) : Host.Outcome State Fault Refusal := ok (vecImm (.vandK32 f) f s fun a b => a &&& b)
/-- VAND (R133). -/
def execVandG64 (f : G64) (s : State) : Host.Outcome State Fault Refusal := ok (intBin (.vandG64 f) f s fun a b => a &&& b)
/-- VAND C16 (R72). -/
def execVandC16 (f : C16) (s : State) : Host.Outcome State Fault Refusal := ok (compact (.vandC16 f) f s fun a b => a &&& b)
/-- VOR K (R134). -/
def execVorK32 (f : K32) (s : State) : Host.Outcome State Fault Refusal := ok (vecImm (.vorK32 f) f s fun a b => a ||| b)
/-- VOR (R133). -/
def execVorG64 (f : G64) (s : State) : Host.Outcome State Fault Refusal := ok (intBin (.vorG64 f) f s fun a b => a ||| b)
/-- VOR C16 (R72). -/
def execVorC16 (f : C16) (s : State) : Host.Outcome State Fault Refusal := ok (compact (.vorC16 f) f s fun a b => a ||| b)
/-- VXOR K (R134). -/
def execVxorK32 (f : K32) (s : State) : Host.Outcome State Fault Refusal := ok (vecImm (.vxorK32 f) f s fun a b => a ^^^ b)
/-- VXOR (R133). -/
def execVxorG64 (f : G64) (s : State) : Host.Outcome State Fault Refusal := ok (intBin (.vxorG64 f) f s fun a b => a ^^^ b)
/-- VXOR C16 (R72). -/
def execVxorC16 (f : C16) (s : State) : Host.Outcome State Fault Refusal := ok (compact (.vxorC16 f) f s fun a b => a ^^^ b)
/-- VSHL (R133). -/
def execVshl (f : G64) (s : State) : Host.Outcome State Fault Refusal := ok (intBin (.vshl f) f s (shiftL 32))
/-- VSHL C16 (R72). -/
def execVshlC16 (f : C16) (s : State) : Host.Outcome State Fault Refusal := ok (compact (.vshlC16 f) f s (shiftL 32))
/-- VSHR (R133). -/
def execVshr (f : G64) (s : State) : Host.Outcome State Fault Refusal :=
  ok (intBin (.vshr f) f s fun a b => shiftR 32 a b (f.sub == 1))
/-- VSHR C16: logical (R72). -/
def execVshrC16 (f : C16) (s : State) : Host.Outcome State Fault Refusal :=
  ok (compact (.vshrC16 f) f s fun a b => shiftR 32 a b false)
/-- VMIN (R133). -/
def execVmin (f : G64) (s : State) : Host.Outcome State Fault Refusal :=
  ok (intBin (.vmin f) f s fun a b =>
    elementwise (elemBits f.mod) a b (elemMinMax false (f.sub == 1) (elemBits f.mod)))
/-- VMIN C16: signed (R72). -/
def execVminC16 (f : C16) (s : State) : Host.Outcome State Fault Refusal := ok (compact (.vminC16 f) f s (minmax 0 32))
/-- VMAX (R133). -/
def execVmax (f : G64) (s : State) : Host.Outcome State Fault Refusal :=
  ok (intBin (.vmax f) f s fun a b =>
    elementwise (elemBits f.mod) a b (elemMinMax true (f.sub == 1) (elemBits f.mod)))
/-- VMAX C16: signed (R72). -/
def execVmaxC16 (f : C16) (s : State) : Host.Outcome State Fault Refusal := ok (compact (.vmaxC16 f) f s (minmax 1 32))
/-- VBFX (R107, R133). -/
def execVbfx (f : G64) (s : State) : Host.Outcome State Fault Refusal :=
  ok (lanewise (.vbfx f) f s fun w L =>
    BitVec.ofNat 32 (bitField (w.opA f L).toNat ((w.opB f L).toNat % 32) ((w.opC f L).toNat % 64) (f.sub == 1)))
/-- VPOPC (R133). -/
def execVpopc (f : G64) (s : State) : Host.Outcome State Fault Refusal :=
  ok (lanewise (.vpopc f) f s fun w L => BitVec.ofNat 32 (popcOp f.sub.toNat (w.opA f L)))
/-- VSEL (R133). -/
def execVsel (f : G64) (s : State) : Host.Outcome State Fault Refusal :=
  ok (lanewise (.vsel f) f s fun w L => if (w.mask f.c.toNat).getLsbD L then w.opA f L else w.opB f L)
/-- VCMPI K: predicate in D bits 7:5, source in bits 4:0, into m0 (R73, R134). -/
def execVcmpiK32 (f : K32) (s : State) : Host.Outcome State Fault Refusal :=
  ok (runVector (.vcmpiK32 f) s fun w =>
    [.mask 1 w.act (lanesOf fun L =>
      pred (bits f.d 7 5) 32 (w.vlane (bits f.d 4 0) L).toNat (simmK f).toNat)])
/-- VCMPI (R133). -/
def execVcmpiG64 (f : G64) (s : State) : Host.Outcome State Fault Refusal :=
  ok (lanePred (.vcmpiG64 f) f s fun w L => pred f.sub.toNat 32 (w.opA f L).toNat (w.opB f L).toNat)
/-- VABSD: exact and unsigned (R133). -/
def execVabsd (f : G64) (s : State) : Host.Outcome State Fault Refusal :=
  let e := elemBits f.mod
  ok (intBin (.vabsd f) f s fun a b => elementwise e a b fun x y =>
    if f.sub == 0 then (sgn e x - sgn e y).natAbs else max x y - min x y)

/-! ### Masks through the vector class (R115) -/

/-- MMOV (R115). -/
def execMmov (f : G64) (s : State) : Host.Outcome State Fault Refusal :=
  ok (run (.mmov f) s fun s =>
    let w := s.wave
    let a := w.mask f.a.toNat
    let d := f.d.toNat
    let ws : List WaveWrite := match f.sub.toNat with
      | 0 => [.mask d (BitVec.allOnes 64) a]
      | 1 => [.sreg d (lo32 a), .sreg (d + 1) (hi32 a)]
      | 2 => [.mask d (BitVec.allOnes 64) (w.sop64 f.a)]
      | 3 => [.mask d w.act (lanesOf fun L => w.opA f L != 0)]
      | _ => [.vreg d w.act (w.perLane fun L => if a.getLsbD L then 1 else 0)]
    w.withIndex f (.wave (w.postIn s.clock (mmovLat w f.sub) ws)))

/-! ### Random and low-discrepancy sequences (R143, R144) -/

/-- Mix32 (R143). -/
def mix32 (k c : Word) : Word :=
  let x := (c ^^^ (k * 0x9E3779B9)) + 0x7F4A7C15
  let x := (x ^^^ (x >>> 16)) * 0x85EBCA6B
  let x := (x ^^^ (x >>> 13)) * 0xC2B2AE35
  x ^^^ (x >>> 16)

/-- (x >> 8) × 2^−24 as FP32, exact (R143). -/
def unitFloat (x : Word) : Word := fround 0 (.num false (x.toNat / 256) (-24))

/-- s(d), A(d) and the initial values of M(d, ·) (R144). -/
def sobolRow (d : Nat) : Nat × Nat × List Nat :=
  match d with
  | 1 => (1, 0, [1])
  | 2 => (2, 1, [1, 3])
  | 3 => (3, 1, [1, 3, 1])
  | _ => (3, 2, [1, 1, 1])

/-- M(d, k) for k from 1 on, newest first: each from the `s` before it (R144). -/
def sobolGrow (s a : Nat) : Nat → List Nat → List Nat
  | 0, ms => ms
  | n + 1, ms =>
    let back (p : Nat) : Nat := ms.getD (p - 1) 0
    let x := back s ^^^ back s * 2 ^ s
    let y := (List.range s).foldl (fun y p =>
      if 1 ≤ p && p ≤ s - 1 && nbit a (s - 1 - p) then y ^^^ back p * 2 ^ p else y) x
    sobolGrow s a n (y :: ms)

/-- M(d, 1) to M(d, 32) (R144). -/
def sobolM (d : Nat) : List Nat :=
  if d = 0 then List.replicate 32 1
  else
    let (s, a, init) := sobolRow d
    (sobolGrow s a (32 - s) init.reverse).reverse

/-- SobolRaw (R144). -/
def sobolRaw (i : Word) (d : Nat) : Word :=
  let m := sobolM d
  (List.range 32).foldl (fun r j =>
    if i.getLsbD j then r ^^^ BitVec.ofNat 32 (m.getD j 0 * 2 ^ (31 - j)) else r) 0

/-- VRAND (R143). -/
def execVrand (f : G64) (s : State) : Host.Outcome State Fault Refusal :=
  ok (lanewise (.vrand f) f s fun w L =>
    let x := mix32 (w.opA f L) (w.opB f L)
    if f.sub == 1 then unitFloat x else x)

/-- VSOBOL (R144). -/
def execVsobol (f : G64) (s : State) : Host.Outcome State Fault Refusal :=
  ok (lanewise (.vsobol f) f s fun w L =>
    let d := f.sub.toNat
    let x := sobolRaw (w.opA f L) d ^^^ (if f.mod.getLsbD 1 then 0 else mix32 (w.opB f L) (BitVec.ofNat 32 d))
    if f.mod.getLsbD 0 then unitFloat x else x)

/-! ### Immediates and moves (R145) -/

/-- VMOVI K (R145). -/
def execVmoviK32 (f : K32) (s : State) : Host.Outcome State Fault Refusal :=
  ok (runVector (.vmoviK32 f) s fun w => [.vreg f.d.toNat w.act (w.perLane fun _ => simmK f)])
/-- VMOVI L (R145). -/
def execVmoviL64 (f : L64) (s : State) : Host.Outcome State Fault Refusal :=
  ok (runVector (.vmoviL64 f) s fun w => [.vreg f.d.toNat w.act (w.perLane fun _ => f.imm)])
/-- VMOV: v[D] := B (R145). -/
def execVmov (f : G64) (s : State) : Host.Outcome State Fault Refusal := ok (lanewise (.vmov f) f s fun w L => w.opB f L)
/-- VMOV C16 (R72). -/
def execVmovC16 (f : C16) (s : State) : Host.Outcome State Fault Refusal := ok (compact (.vmovC16 f) f s fun _ b => b)

/-! ### Index registers (R146) -/

/-- VMOVX: `.ld` and `.st` through an index register (R146); the bound check of R132 applies. -/
def execVmovx (f : G64) (s : State) : Host.Outcome State Fault Refusal :=
  ok (run (.vmovx f) s fun s =>
    let w := s.wave
    let k := if f.sub == 0 then f.a.toNat else f.d.toNat
    match w.xFail k with
    | some L => w.regIndex k L
    | none =>
      let ws : List WaveWrite :=
        if f.sub == 0 then [.vreg f.d.toNat w.act (w.perLane fun L => w.vlane (w.xreg k L) L)]
        else w.actList.map fun L => .vreg (w.xreg k L) (lanesOf (· == L)) (w.perLane fun M => w.opB f M)
      .wave (w.postIn s.clock w.vlat ws))

/-- XSET: x[D] := min(a, 0xFFFF) (R146). -/
def execXset (f : G64) (s : State) : Host.Outcome State Fault Refusal :=
  ok (run (.xset f) s fun s =>
    let w := s.wave
    w.withIndex f (.wave (w.postIn s.clock w.vlat
      [.xreg f.d.toNat w.act ((List.range 64).map fun L => BitVec.ofNat 16 (min (w.opA f L).toNat 0xFFFF))])))

/-- XBND: wave-uniform; XB + XL must lie within the wave's registers (R146). -/
def execXbnd (f : L64) (s : State) : Host.Outcome State Fault Refusal :=
  ok (run (.xbnd f) s fun s =>
    let w := s.wave
    let xb := bits f.imm 7 0
    let xl := bits f.imm 16 8
    if w.vregs < xb + xl then w.illegal
    else .wave (w.postIn s.clock w.vlat [.bound f.d.toNat xb xl]))

/-! ### Packing (R149) -/

/-- VPACK (R149). -/
def execVpack (f : G64) (s : State) : Host.Outcome State Fault Refusal :=
  ok (intBin (.vpack f) f s fun a b =>
    let h (x : Nat) : Nat := match f.sub.toNat with
      | 0 => x % 65536
      | 1 => wrap 16 (clampS 16 (sgn 32 x))
      | _ => (clampU 16 (sgn 32 x)).toNat
    h a + 65536 * h b)

/-- A half or byte of a word, extended (R149). -/
def unpackOp (sub a : Nat) : Nat :=
  if sub < 4 then
    let h := a / 65536 ^ (sub / 2) % 65536
    if sub % 2 = 1 then wrap 32 (sgn 16 h) else h
  else
    let b := a / 256 ^ (sub % 4) % 256
    if 8 ≤ sub then wrap 32 (sgn 8 b) else b

/-- VUNPK (R149). -/
def execVunpk (f : G64) (s : State) : Host.Outcome State Fault Refusal :=
  ok (lanewise (.vunpk f) f s fun w L => BitVec.ofNat 32 (unpackOp f.sub.toNat (w.opA f L).toNat))

/-- VBYTE: nibble i of b chooses byte i from a, c or zero (R149). -/
def byteSelect (a b c : Nat) : Nat :=
  (List.range 4).foldl (fun r i =>
    let n := b / 16 ^ i % 16
    r + (if n < 4 then a / 256 ^ n % 256 else if n < 8 then c / 256 ^ (n - 4) % 256 else 0) * 256 ^ i) 0

/-- VBYTE (R149). -/
def execVbyte (f : G64) (s : State) : Host.Outcome State Fault Refusal :=
  ok (lanewise (.vbyte f) f s fun w L =>
    BitVec.ofNat 32 (byteSelect (w.opA f L).toNat (w.opB f L).toNat (w.opC f L).toNat))

/-! ### One lane (R150) -/

/-- VEXT: s[D] := v[A][n], wave-uniform; an indirect A uses lane n's own index, and checks it where lane n is active (R132, R150).
The spec states no value for an index that is not checked and names no register of the wave. -/
def execVext (f : G64) (s : State) : Host.Outcome State Fault Refusal :=
  ok (run (.vext f) s fun s =>
    let w := s.wave
    let n := (w.sop f.b).toNat % w.width
    let b := w.bnd f.xi.toNat
    let x := w.xlane f.xi.toNat n
    if f.xe && w.act.getLsbD n && b.xl ≤ x then w.regIndex f.xi.toNat n
    else if f.xe && w.vregs ≤ b.xb + x then
      .state { s with fresh := s.fresh + 1, wave := w.postIn s.clock w.vlat [.sreg f.d.toNat (Config.strayReg s.fresh)] }
    else
      let r := if f.xe then w.xreg f.xi.toNat n else f.a.toNat
      w.reading [r * w.width + n] (.wave (w.postIn s.clock w.vlat [.sreg f.d.toNat (w.opA f n)])))

/-- VINS: v[D][n] := SOperand(A), only when lane n is active (R150). -/
def execVins (f : G64) (s : State) : Host.Outcome State Fault Refusal :=
  ok (runVector (.vins f) s fun w =>
    let n := (w.sop f.b).toNat % w.width
    [.vreg f.d.toNat (w.act &&& lanesOf (· == n)) (w.perLane fun _ => w.sop f.a)])

/-! ### Carries and 64-bit lanes (R147, R148) -/

/-- An add or subtract chained through mask C (R147). -/
def chained (i : Instr) (f : G64) (s : State) (g : Nat → Nat → Bool → Nat × Bool) : State :=
  run i s fun s =>
    let w := s.wave
    let r (L : Nat) : Nat × Bool := g (w.opA f L).toNat (w.opB f L).toNat ((w.mask f.c.toNat).getLsbD L)
    w.withIndex f (.wave (w.postIn s.clock w.vlat
      [.vreg f.d.toNat w.act (w.perLane fun L => BitVec.ofNat 32 (r L).1),
       .mask f.c.toNat w.act (lanesOf fun L => (r L).2)]))

/-- VADDC (R147). -/
def execVaddc (f : G64) (s : State) : Host.Outcome State Fault Refusal := ok (chained (.vaddc f) f s (addC 32))
/-- VSUBB (R147). -/
def execVsubb (f : G64) (s : State) : Host.Outcome State Fault Refusal := ok (chained (.vsubb f) f s (subB 32))

/-- VMUL64 (R148). -/
def execVmul64 (f : G64) (s : State) : Host.Outcome State Fault Refusal :=
  ok (lanewise64 (.vmul64 f) f s fun w L =>
    match f.sub.toNat with
    | 0 => BitVec.ofNat 64 ((w.opA f L).toNat * (w.opB f L).toNat)
    | 1 => BitVec.ofInt 64 ((w.opA f L).toInt * (w.opB f L).toInt)
    | _ => w.vop64 f.sa f.a L * w.vop64 f.sb f.b L)

/-- VSHL64 (R148). -/
def execVshl64 (f : G64) (s : State) : Host.Outcome State Fault Refusal :=
  ok (lanewise64 (.vshl64 f) f s fun w L =>
    BitVec.ofNat 64 (shiftL 64 (w.vop64 f.sa f.a L).toNat (w.opB f L).toNat))

/-- VSHR64 (R148). -/
def execVshr64 (f : G64) (s : State) : Host.Outcome State Fault Refusal :=
  ok (lanewise64 (.vshr64 f) f s fun w L =>
    BitVec.ofNat 64 (shiftR 64 (w.vop64 f.sa f.a L).toNat (w.opB f L).toNat (f.sub == 1)))

/-- VCMP64 (R148). -/
def execVcmp64 (f : G64) (s : State) : Host.Outcome State Fault Refusal :=
  ok (lanePred (.vcmp64 f) f s fun w L => pred f.sub.toNat 64 (w.vop64 f.sa f.a L).toNat (w.vop64 f.sb f.b L).toNat)

/-! ### Transpose (R151) -/

/-- VTRN: v[D+i][cn+j] := v[A+j][cn+i] where lane cn+j is active; n above the wave width is refused (R151). -/
def execVtrn (f : G64) (s : State) : Host.Outcome State Fault Refusal :=
  ok (run (.vtrn f) s fun s =>
    let w := s.wave
    let n := 2 ^ (f.mod.toNat + 1)
    if w.width < n then w.illegal
    else
      .wave (w.postIn s.clock w.vlat ((List.range n).map fun i =>
        .vreg (f.d.toNat + i) w.act (w.perLane fun L => w.vlane (f.a.toNat + L % n) (L / n * n + i)))))

end Sys2Proof.Machine
end

