-- ==== Sys2Proof/Machine/VFloat.lean ====
section
/-! DEFINITION. Vector floating point: arithmetic, comparison, paired halves, and what the first-NaN trap reports
(R135 to R137, R178, R180). -/

namespace Sys2Proof.Machine

/-- The rounding mode that SUB selects: 0 takes FPCTL.RM, 1 to 5 name one; 6 is stochastic (R135, R138). -/
def Wave.roundMode (w : Wave) (sub : Nat) : Nat :=
  if sub = 0 then w.fpctl.toNat % 8 else if sub = 6 then 6 else sub - 1

/-- FPCTL.NANTRAP (R119). -/
def Wave.nanTrap (w : Wave) : Bool := w.fpctl.getLsbD 8

/-- The lowest active lane in which an instruction makes a NaN from operands that hold none, if NAN_FIRST traps it
(R135, R178). -/
def Wave.firstNan (w : Wave) (made : Nat → Bool) : Option Nat :=
  if w.nanTrap then w.actList.find? made else none

/-- NAN_FIRST at lane `L`, produced by this engine (R180). -/
def nanFirst (L engine : Nat) : Act := .trap 0x0E L (BitVec.ofNat 64 engine)

/-- An instruction that writes v[D] in each active lane, each result with whether it is a NaN made there. -/
def floatLanes (i : Instr) (f : G64) (s : State) (engine : Nat) (g : Wave → Nat → Word × Bool) : State :=
  run i s fun s =>
    let w := s.wave
    w.withIndex f
      (match w.firstNan fun L => (g w L).2 with
        | some L => nanFirst L engine
        | none => .wave (w.postIn s.clock w.vlat [.vreg f.d.toNat w.act (w.perLane fun L => (g w L).1)]))

/-- A result of FP32 arithmetic on these operands, rounded once. -/
def fresult (mode : Nat) (ops : List FV) (v : FV) : Word × Bool := (fround mode v, v.isNan && !ops.any FV.isNan)

/-- An absolute value and then a negation, on the sign bit (R135). -/
def modSign (abs neg : Bool) (x : Word) : Word :=
  let y := if abs then x &&& 0x7FFFFFFF else x
  if neg then y ^^^ 0x80000000 else y

/-- Operand a as FP32 bits, with the modifiers of MOD (R69, R135). -/
def Wave.fa (w : Wave) (f : G64) (L : Nat) : Word :=
  modSign (f.mod.getLsbD 2) (f.mod.getLsbD 0) (fpBits f.sa f.a (w.opA f L))
/-- Operand b as FP32 bits, with the modifiers of MOD. -/
def Wave.fb (w : Wave) (f : G64) (L : Nat) : Word :=
  modSign (f.mod.getLsbD 3) (f.mod.getLsbD 1) (fpBits f.sb f.b (w.opB f L))
/-- Operand c as FP32 bits. -/
def Wave.fc (w : Wave) (f : G64) (L : Nat) : Word := fpBits f.sc f.c (w.opC f L)
/-- Operand a as FP32 bits where MOD holds no modifiers. -/
def Wave.fa0 (w : Wave) (f : G64) (L : Nat) : Word := fpBits f.sa f.a (w.opA f L)
/-- Operand b as FP32 bits where MOD holds no modifiers. -/
def Wave.fb0 (w : Wave) (f : G64) (L : Nat) : Word := fpBits f.sb f.b (w.opB f L)

/-- a + b rounded by a mode. -/
def faddOp (mode : Nat) (a b : Word) : Word × Bool :=
  fresult mode [fval a, fval b] (FV.sum (mode == 2) [fval a, fval b])
/-- a − b. -/
def fsubOp (mode : Nat) (a b : Word) : Word × Bool :=
  fresult mode [fval a, fval b] (FV.sum (mode == 2) [fval a, (fval b).negate])
/-- a × b. -/
def fmulOp (mode : Nat) (a b : Word) : Word × Bool := fresult mode [fval a, fval b] ((fval a).mul (fval b))
/-- a × b + c, rounded once. -/
def ffmaOp (mode : Nat) (a b c : Word) : Word × Bool :=
  fresult mode [fval a, fval b, fval c] (FV.sum (mode == 2) [(fval a).mul (fval b), fval c])
/-- FMIN or FMAX (R137). -/
def fminmax (mx : Bool) (a b : Word) : Word := BitVec.ofNat 32 (fp32.minmax mx a.toNat b.toNat)
/-- a + c × (b − a), exactly, rounded once (R136). -/
def flerpOp (mode : Nat) (a b c : Word) : Word × Bool :=
  fresult mode [fval a, fval b, fval c]
    (FV.sum (mode == 2) [fval a, (fval c).mul (FV.sum (mode == 2) [fval b, (fval a).negate])])

/-- A C16 floating-point operation: MOD and SUB are 0 (R72, R136). -/
def compactFloat (i : Instr) (f : C16) (s : State) (g : Nat → Word → Word → Word × Bool) : State :=
  floatLanes i (c16Equiv f) s 0 fun w L => g (w.roundMode 0) (w.vlane f.vd.toNat L) (w.vlane f.vb.toNat L)

/-- FADD (R136). -/
def execFadd (f : G64) (s : State) : Host.Outcome State Fault Refusal :=
  ok (floatLanes (.fadd f) f s 0 fun w L => faddOp (w.roundMode f.sub.toNat) (w.fa f L) (w.fb f L))
/-- FADD C16 (R72). -/
def execFaddC16 (f : C16) (s : State) : Host.Outcome State Fault Refusal := ok (compactFloat (.faddC16 f) f s faddOp)
/-- FSUB (R136). -/
def execFsub (f : G64) (s : State) : Host.Outcome State Fault Refusal :=
  ok (floatLanes (.fsub f) f s 0 fun w L => fsubOp (w.roundMode f.sub.toNat) (w.fa f L) (w.fb f L))
/-- FSUB C16 (R72). -/
def execFsubC16 (f : C16) (s : State) : Host.Outcome State Fault Refusal := ok (compactFloat (.fsubC16 f) f s fsubOp)
/-- FMUL (R136). -/
def execFmul (f : G64) (s : State) : Host.Outcome State Fault Refusal :=
  ok (floatLanes (.fmul f) f s 0 fun w L => fmulOp (w.roundMode f.sub.toNat) (w.fa f L) (w.fb f L))
/-- FMUL C16 (R72). -/
def execFmulC16 (f : C16) (s : State) : Host.Outcome State Fault Refusal := ok (compactFloat (.fmulC16 f) f s fmulOp)
/-- FFMA (R136). -/
def execFfma (f : G64) (s : State) : Host.Outcome State Fault Refusal :=
  ok (floatLanes (.ffma f) f s 0 fun w L => ffmaOp (w.roundMode f.sub.toNat) (w.fa f L) (w.fb f L) (w.fc f L))
/-- FMIN (R137). -/
def execFmin (f : G64) (s : State) : Host.Outcome State Fault Refusal :=
  ok (lanewise (.fmin f) f s fun w L => fminmax false (w.fa f L) (w.fb f L))
/-- FMIN C16 (R72). -/
def execFminC16 (f : C16) (s : State) : Host.Outcome State Fault Refusal :=
  ok (compactFloat (.fminC16 f) f s fun _ a b => (fminmax false a b, false))
/-- FMAX (R137). -/
def execFmax (f : G64) (s : State) : Host.Outcome State Fault Refusal :=
  ok (lanewise (.fmax f) f s fun w L => fminmax true (w.fa f L) (w.fb f L))
/-- FMAX C16 (R72). -/
def execFmaxC16 (f : C16) (s : State) : Host.Outcome State Fault Refusal :=
  ok (compactFloat (.fmaxC16 f) f s fun _ a b => (fminmax true a b, false))
/-- FCMP (R137). -/
def execFcmp (f : G64) (s : State) : Host.Outcome State Fault Refusal :=
  ok (lanePred (.fcmp f) f s fun w L => fpred f.sub.toNat (fval (w.fa f L)) (fval (w.fb f L)))
/-- FCLASS (R137). -/
def execFclass (f : G64) (s : State) : Host.Outcome State Fault Refusal :=
  ok (lanewise (.fclass f) f s fun w L => BitVec.ofNat 32 (fclassOf (w.fa0 f L).toNat))
/-- FRND (R136). -/
def execFrnd (f : G64) (s : State) : Host.Outcome State Fault Refusal :=
  ok (lanewise (.frnd f) f s fun w L => BitVec.ofNat 32 (frndOf (w.roundMode f.sub.toNat) (w.fa0 f L).toNat))
/-- FMED3 (R136). -/
def execFmed3 (f : G64) (s : State) : Host.Outcome State Fault Refusal :=
  ok (lanewise (.fmed3 f) f s fun w L =>
    let a := w.fa0 f L
    let b := w.fb0 f L
    fminmax true (fminmax false a b) (fminmax false (fminmax true a b) (w.fc f L)))
/-- FLERP (R136). -/
def execFlerp (f : G64) (s : State) : Host.Outcome State Fault Refusal :=
  ok (floatLanes (.flerp f) f s 0 fun w L => flerpOp (w.roundMode f.sub.toNat) (w.fa0 f L) (w.fb0 f L) (w.fc f L))

/-! ### Halves (R136) -/

/-- The half format that MOD selects. -/
def halfFmt (mod : BitVec 4) : Fmt := if mod == 1 then bf16 else fp16

/-- Half `h` of an operand; an inline constant is its value in each half (R69). -/
def halfOf (sc : Bool) (f : BitVec 8) (fmt : Fmt) (x : Word) (h : Nat) : FV :=
  fpOf sc f fmt (x.toNat / 65536 ^ h % 65536)

/-- FDOT2: a.lo × b.lo + a.hi × b.hi + c, rounded once (R136). -/
def execFdot2 (f : G64) (s : State) : Host.Outcome State Fault Refusal :=
  ok (floatLanes (.fdot2 f) f s 0 fun w L =>
    let m := halfFmt f.mod
    let mode := w.roundMode f.sub.toNat
    let a := halfOf f.sa f.a m (w.opA f L)
    let b := halfOf f.sb f.b m (w.opB f L)
    let c := fval (w.fc f L)
    fresult mode [a 0, a 1, b 0, b 1, c] (FV.sum (mode == 2) [(a 0).mul (b 0), (a 1).mul (b 1), c]))

/-- FPK: converts a and b, saturating, into the halves of a word (R136, R139). -/
def execFpk (f : G64) (s : State) : Host.Outcome State Fault Refusal :=
  ok (lanewise (.fpk f) f s fun w L =>
    let m := halfFmt f.mod
    let mode := w.roundMode f.sub.toNat
    BitVec.ofNat 32 (m.convert mode 0 true (fval (w.fa0 f L)) + 65536 * m.convert mode 0 true (fval (w.fb0 f L))))

/-- A paired operation: each half an IEEE operation of the format (R136). [DEDUCED, log 25; DEDUCED, log 139] -/
def pairedHalves (i : Instr) (f : G64) (s : State) (third : Bool) (g : Bool → FV → FV → FV → FV) : State :=
  floatLanes i f s 0 fun w L =>
    let m := halfFmt f.mod
    let mode := w.roundMode f.sub.toNat
    let one (h : Nat) : Nat × Bool :=
      let a := halfOf f.sa f.a m (w.opA f L) h
      let b := halfOf f.sb f.b m (w.opB f L) h
      let c := if third then halfOf f.sc f.c m (w.opC f L) h else .num false 0 0
      let v := g (mode == 2) a b c
      (m.round mode v, v.isNan && !(a.isNan || b.isNan || c.isNan))
    (BitVec.ofNat 32 ((one 0).1 + 65536 * (one 1).1), (one 0).2 || (one 1).2)

/-- HADD2 (R136). -/
def execHadd2 (f : G64) (s : State) : Host.Outcome State Fault Refusal :=
  ok (pairedHalves (.hadd2 f) f s false fun down a b _ => FV.sum down [a, b])
/-- HMUL2 (R136). -/
def execHmul2 (f : G64) (s : State) : Host.Outcome State Fault Refusal :=
  ok (pairedHalves (.hmul2 f) f s false fun _ a b _ => a.mul b)
/-- HFMA2 (R136). -/
def execHfma2 (f : G64) (s : State) : Host.Outcome State Fault Refusal :=
  ok (pairedHalves (.hfma2 f) f s true fun down a b c => FV.sum down [a.mul b, c])

end Sys2Proof.Machine
end

