-- ==== Sys2Proof/Machine/CrossLane.lean ====
section
/-! DEFINITION. Cross-lane instructions and the long accumulator (R152 to R165). -/

namespace Sys2Proof.Machine

/-! ### Shuffle, broadcast, swizzle (R153 to R155) -/

/-- The lane that SHFL reads for lane `L` with index `b` in segments of `S` (R154). -/
def shflLane (kind S L b : Nat) : Nat :=
  let base := L - L % S
  let p := L % S
  match kind with
  | 0 => base + b % S
  | 1 => if b ≤ p then base + p - b else L
  | 2 => if p + b < S then base + p + b else L
  | _ => base + (p ^^^ b % S)

/-- SHFL: a segment above the wave width is refused (R154). -/
def execShfl (f : G64) (s : State) : Host.Outcome State Fault Refusal :=
  ok (run (.shfl f) s fun s =>
    let w := s.wave
    let S := if f.mod == 0 then w.width else 2 ^ f.mod.toNat
    if w.width < S then w.illegal
    else
      let from_ (L : Nat) : Nat := shflLane f.sub.toNat S L (w.opB f L).toNat
      w.reading (w.actList.flatMap fun L => w.roleReads f.sb f.b.toNat L V0 ++ [f.a.toNat * w.width + from_ L])
        (.wave (w.postIn s.clock w.vlat [.vreg f.d.toNat w.act (w.perLane fun L => w.vlane f.a.toNat (from_ L))])))

/-- BCAST (R155). -/
def execBcast (f : G64) (s : State) : Host.Outcome State Fault Refusal :=
  ok (run (.bcast f) s fun s =>
    let w := s.wave
    let n := (w.sop f.b).toNat % w.width
    w.reading [f.a.toNat * w.width + n]
      (.wave (w.postIn s.clock w.vlat [.vreg f.d.toNat w.act (w.perLane fun _ => w.vlane f.a.toNat n)])))

/-- QSWZ: pattern in C (R155). -/
def execQswz (f : G64) (s : State) : Host.Outcome State Fault Refusal :=
  ok (run (.qswz f) s fun s =>
    let w := s.wave
    let from_ (L : Nat) : Nat := L / 4 * 4 + f.c.toNat / 4 ^ (L % 4) % 4
    w.reading (w.actList.map fun L => f.a.toNat * w.width + from_ L)
      (.wave (w.postIn s.clock w.vlat [.vreg f.d.toNat w.act (w.perLane fun L => w.vlane f.a.toNat (from_ L))])))

/-! ### Votes, ballots, matches (R156, R157) -/

/-- The active lanes in which a vector register is not zero. -/
def Wave.nonzero (w : Wave) (r : Nat) : Lanes := w.act &&& lanesOf fun L => w.vlane r L != 0

/-- VOTE (R156). -/
def execVote (f : G64) (s : State) : Host.Outcome State Fault Refusal :=
  ok (runVector (.vote f) s fun w =>
    let t := brmCond f.sub.toNat w.act (w.nonzero f.a.toNat)
    [.scc t, .mask f.d.toNat w.act (if t then BitVec.allOnes 64 else 0)])

/-- BALLOT (R156). -/
def execBallot (f : G64) (s : State) : Host.Outcome State Fault Refusal :=
  ok (runVector (.ballot f) s fun w =>
    let x := w.nonzero f.a.toNat
    [.sreg f.d.toNat (lo32 x), .sreg (f.d.toNat + 1) (hi32 x), .scc (x != 0)])

/-- The active lanes that hold the value of lane `L` (R157). -/
def Wave.matchSet (w : Wave) (f : G64) (L : Nat) : Lanes :=
  let a (j : Nat) : DWord :=
    if f.mod == 1 then pair (w.vlane f.a.toNat j) (w.vlane (f.a.toNat + 1) j) else (w.vlane f.a.toNat j).setWidth 64
  w.act &&& lanesOf fun j => a j == a L

/-- MATCH (R157). -/
def execMatchLanes (f : G64) (s : State) : Host.Outcome State Fault Refusal :=
  ok (runVector (.matchLanes f) s fun w =>
    let d := f.d.toNat
    match f.sub.toNat with
    | 0 => [.vreg d w.act (w.perLane fun L => lo32 (w.matchSet f L)),
            .vreg (d + 1) w.act (w.perLane fun L => hi32 (w.matchSet f L))]
    | 1 => [.vreg d w.act (w.perLane fun L => BitVec.ofNat 32 (popcount (w.matchSet f L)))]
    | _ => [.vreg d w.act (w.perLane fun L => if lowBit (w.matchSet f L) == some L then 1 else 0)])

/-! ### Reductions, scans, compaction (R158 to R160) -/

/-- Operation and identity of RED and SCAN by SUB (R158). -/
def redOp (sub : Nat) (a b : Word) : Word :=
  match sub with
  | 0 => a + b
  | 1 => if a.toInt ≤ b.toInt then a else b
  | 2 => if a.toInt ≤ b.toInt then b else a
  | 3 => if a.toNat ≤ b.toNat then a else b
  | 4 => if a.toNat ≤ b.toNat then b else a
  | 5 => a &&& b
  | 6 => a ||| b
  | _ => a ^^^ b

/-- Identity of an operation of R158. -/
def redId (sub : Nat) : Word :=
  match sub with
  | 1 => 0x7FFFFFFF
  | 2 => 0x80000000
  | 3 => 0xFFFFFFFF
  | 5 => 0xFFFFFFFF
  | _ => 0

/-- The operation over the active lanes for which `f` holds. -/
def Wave.reduce (w : Wave) (sub r : Nat) (f : Nat → Bool) : Word :=
  (w.actList.filter f).foldl (fun x L => redOp sub x (w.vlane r L)) (redId sub)

/-- RED (R158). -/
def execRed (f : G64) (s : State) : Host.Outcome State Fault Refusal :=
  ok (runVector (.red f) s fun w =>
    let r := w.reduce f.sub.toNat f.a.toNat fun _ => true
    if f.mod == 1 then [.sreg f.d.toNat r] else [.vreg f.d.toNat w.act (w.perLane fun _ => r)])

/-- SCAN (R158). -/
def execScan (f : G64) (s : State) : Host.Outcome State Fault Refusal :=
  ok (runVector (.scan f) s fun w =>
    [.vreg f.d.toNat w.act (w.perLane fun L =>
      w.reduce f.sub.toNat f.a.toNat fun j => if f.mod == 1 then decide (j < L) else decide (j ≤ L))])

/-- FredTree over the 2^k lanes from `lo` on (R159): the result, if a lane is active, and the lowest lane of a span
whose operation made a NaN. -/
def Wave.fredTree (w : Wave) (sub mode r : Nat) : Nat → Nat → Option Word × Option Nat
  | 0, lo => (if w.act.getLsbD lo then some (w.vlane r lo) else none, none)
  | k + 1, lo =>
    let x := w.fredTree sub mode r k lo
    let y := w.fredTree sub mode r k (lo + 2 ^ k)
    let low : Option Nat := match x.2, y.2 with
      | some a, some b => some (min a b)
      | some a, none => some a
      | none, b => b
    match x.1, y.1 with
    | some a, some b =>
      let z : Word × Bool := match sub with
        | 0 => faddOp mode a b
        | 1 => (fminmax false a b, false)
        | _ => (fminmax true a b, false)
      (some z.1, if z.2 then some (match low with | some l => min l lo | none => lo) else low)
    | some a, none => (some a, low)
    | none, b => (b, low)

/-- FRED: an absent result is the operation's identity (R159). -/
def execFred (f : G64) (s : State) : Host.Outcome State Fault Refusal :=
  ok (run (.fred f) s fun s =>
    let w := s.wave
    let t := w.fredTree f.sub.toNat (w.roundMode 0) f.a.toNat (Nat.log2 w.width) 0
    let id : Word := match f.sub.toNat with
      | 0 => 0
      | 1 => 0x7F800000
      | _ => 0xFF800000
    let r := t.1.getD id
    match (if w.nanTrap then t.2 else none) with
    | some L => nanFirst L 0
    | none =>
      .wave (w.postIn s.clock w.vlat
        (if f.mod == 1 then [.sreg f.d.toNat r] else [.vreg f.d.toNat w.act (w.perLane fun _ => r)])))

/-- VCOMPACT: by rank, compacting or expanding (R160). -/
def execVcompact (f : G64) (s : State) : Host.Outcome State Fault Refusal :=
  ok (runVector (.vcompact f) s fun w =>
    let ls := w.actList
    if f.sub == 0 then
      [.vreg f.d.toNat (lanesBelow ls.length)
        ((List.range 64).map fun r => if r < ls.length then w.vlane f.a.toNat (ls.getD r 0) else 0)]
    else
      [.vreg f.d.toNat w.act (w.perLane fun L =>
        w.vlane f.a.toNat (ls.filter fun j => j < L).length)])

/-! ### The long accumulator (R161 to R165) -/

/-- Adds one exact term, or sets its flag (R163). -/
def Wave.laccAdd (w : Wave) (t : FV) : Wave :=
  match t with
  | .nan => { w with laccFlags := w.laccFlags ||| 1 }
  | .inf neg => { w with laccFlags := w.laccFlags ||| if neg then 4 else 2 }
  | .num _ _ _ => { w with lacc := w.lacc + BitVec.ofInt 640 (t.scaled (-320)) }

/-- Adds the terms of the active lanes. -/
def Wave.laccAll (w : Wave) (neg : Bool) (t : Nat → FV) : Wave :=
  w.actList.foldl (fun w L => w.laccAdd (if neg then (t L).negate else t L)) w

/-- LACLR (R163). -/
def execLaclr (f : K32) (s : State) : Host.Outcome State Fault Refusal :=
  ok (runWave (.laclr f) s fun w => .wave { w with lacc := 0, laccFlags := 0 })

/-- LAADD (R163). -/
def execLaadd (f : G64) (s : State) : Host.Outcome State Fault Refusal :=
  ok (runWave (.laadd f) s fun w =>
    w.withIndex f (.wave (w.laccAll (f.mod == 1) fun L =>
      match f.sub.toNat with
      | 0 => fval (w.fa0 f L)
      | 1 => FV.ofInt (w.opA f L).toInt
      | _ => FV.ofInt (w.opA f L).toNat)))

/-- LAFMA; a product 0 × ∞ of operands that are not NaN can trap (R163, R164). -/
def execLafma (f : G64) (s : State) : Host.Outcome State Fault Refusal :=
  ok (runWave (.lafma f) s fun w =>
    let a (L : Nat) : FV := fval (w.fa0 f L)
    let b (L : Nat) : FV := fval (w.fb0 f L)
    w.withIndex f
      (match w.firstNan fun L => ((a L).mul (b L)).isNan && !((a L).isNan || (b L).isNan) with
        | some L => nanFirst L 4
        | none => .wave (w.laccAll (f.mod == 1) fun L => (a L).mul (b L))))

/-- The value of lacc (R164). -/
def Wave.laccVal (w : Wave) : FV :=
  let fl (i : Nat) : Bool := w.laccFlags.getLsbD i
  if fl 0 || (fl 1 && fl 2) then .nan
  else if fl 1 then .inf false
  else if fl 2 then .inf true
  else
    let x := w.lacc.toInt
    .num (decide (x < 0)) x.natAbs (-320)

/-- LARD (R164). [DEDUCED, log 30] -/
def execLard (f : G64) (s : State) : Host.Outcome State Fault Refusal :=
  ok (run (.lard f) s fun s =>
    let w := s.wave
    let v := w.laccVal
    if w.nanTrap && v.isNan && !w.laccFlags.getLsbD 0 then nanFirst 0 4
    else
      let x := w.postIn s.clock w.vlat [.sreg f.d.toNat (fround (w.roundMode f.sub.toNat) v)]
      .wave (if f.mod == 1 then { x with lacc := 0, laccFlags := 0 } else x))

/-- Word `i` of lacc (R161). -/
def Wave.laccWord (w : Wave) (i : Nat) : Word := if i < 20 then w.lacc.extractLsb' (32 * i) 32 else w.laccFlags

/-- LASAVE (R165). -/
def execLasave (f : G64) (s : State) : Host.Outcome State Fault Refusal :=
  ok (runVector (.lasave f) s fun w =>
    [.vreg f.d.toNat (lanesBelow 16) ((List.range 16).map w.laccWord),
     .vreg (f.d.toNat + 1) (lanesBelow 16) ((List.range 16).map fun i => if i < 5 then w.laccWord (16 + i) else 0)])

/-- LARST: a reserved bit of word 20 is refused (R165). -/
def execLarst (f : G64) (s : State) : Host.Outcome State Fault Refusal :=
  ok (runWave (.larst f) s fun w =>
    let x (i : Nat) : Word := w.vlane (f.a.toNat + i / 16) (i % 16)
    if (x 20).toNat ≥ 8 then w.illegal
    else
      .wave { w with
        lacc := BitVec.ofNat 640 ((List.range 20).foldl (fun t i => t + (x i).toNat * 2 ^ (32 * i)) 0),
        laccFlags := x 20 })

end Sys2Proof.Machine
end

