-- ==== Sys2Proof/Machine/Convert.lean ====
section
/-! DEFINITION. Conversions between integer and floating-point types, plain and quantising (R138 to R140, R174). -/

namespace Sys2Proof.Machine

/-- A type of CVT (R138): a floating-point format, or an integer of some bits. -/
inductive NumType where
  /-- Floating point. -/
  | float (f : Fmt)
  /-- Integer. -/
  | int (bits : Nat) (signed : Bool)
  deriving DecidableEq, Repr

/-- The type of a code of R138. -/
def numType (code : Nat) : NumType :=
  match code with
  | 0 => .int 32 true
  | 1 => .int 32 false
  | 2 => .float fp32
  | 3 => .float fp16
  | 4 => .float bf16
  | 5 => .float fp8e4
  | 6 => .float fp8e5
  | 7 => .int 16 true
  | 8 => .int 16 false
  | 9 => .int 8 true
  | 10 => .int 8 false
  | 11 => .int 64 true
  | _ => .int 64 false

/-- Is the type a pair of registers? -/
def NumType.wide : NumType → Bool
  | .int 64 _ => true
  | _ => false

/-- The exact value of a source of the type; an inline constant of a floating-point type is its number (R69). -/
def NumType.val (t : NumType) (sc : Bool) (field : BitVec 8) (x : Nat) : FV :=
  match t with
  | .float f => fpOf sc field f x
  | .int n sg => FV.ofInt (if sg then sgn n x else ((x % 2 ^ n : Nat) : Int))

/-- Convert of R139, as the bits of the type. -/
def NumType.convert (t : NumType) (mode r : Nat) (sat : Bool) (v : FV) : Nat :=
  match t with
  | .float f => f.convert mode r sat v
  | .int n sg => wrap n (convertInt n sg mode r v)

/-- Does the type hold a NaN in these bits? -/
def NumType.isNan (t : NumType) (x : Nat) : Bool :=
  match t with
  | .float f => (f.val x).isNan
  | .int _ _ => false

/-- The result of CVT in a lane, with whether it is a NaN that the conversion made (R174). -/
def Wave.cvtLane (w : Wave) (f : G64) (L : Nat) : Nat × Bool :=
  let src := numType f.sub.toNat
  let dst := numType f.mod.toNat
  let x : Nat := if src.wide then (w.vop64 f.sa f.a L).toNat else (w.opA f L).toNat
  let v := src.val f.sa f.a x
  let r := dst.convert (w.roundMode (f.c.toNat % 8)) (w.opB f L).toNat (!f.c.getLsbD 3) v
  (r, dst.isNan r && !v.isNan)

/-- CVT (R138). -/
def execCvt (f : G64) (s : State) : Host.Outcome State Fault Refusal :=
  ok (run (.cvt f) s fun s =>
    let w := s.wave
    let r (L : Nat) : Nat := (w.cvtLane f L).1
    w.withIndex f
      (match w.firstNan fun L => (w.cvtLane f L).2 with
        | some L => nanFirst L 5
        | none =>
          .wave (w.postIn s.clock w.vlat
            (.vreg f.d.toNat w.act (w.perLane fun L => BitVec.ofNat 32 (r L)) ::
              if (numType f.mod.toNat).wide then
                [.vreg (f.d.toNat + 1) w.act (w.perLane fun L => BitVec.ofNat 32 (r L / 2 ^ 32))]
              else []))))

/-- The types of CVTQ but the ternary one (R140). -/
def quantType (mod : Nat) : NumType :=
  match mod with
  | 0 => .int 4 true
  | 1 => .int 4 false
  | 2 => .float fp6e3
  | 3 => .float fp6e2
  | 4 => .float fp4
  | 6 => .int 8 true
  | 7 => .float fp8e4
  | _ => .float fp8e5

/-- An integer converted to the ternary format, the integers −1 to 1 (R140). -/
def ternary (mode r : Nat) (v : FV) : Nat := wrap 2 (max (-1) (convertInt 2 true mode r v))

/-- CVTQ: Convert of a × b, saturating (R140). -/
def execCvtq (f : G64) (s : State) : Host.Outcome State Fault Refusal :=
  ok (floatLanes (.cvtq f) f s 5 fun w L =>
    let a := fval (w.fa0 f L)
    let b := fval (w.fb0 f L)
    let y := a.mul b
    let mode := w.roundMode f.sub.toNat
    let r := (w.opC f L).toNat
    if f.mod == 5 then (BitVec.ofNat 32 (ternary mode r y), false)
    else
      let t := quantType f.mod.toNat
      let x := t.convert mode r true y
      (BitVec.ofNat 32 x, t.isNan x && !(a.isNan || b.isNan)))

end Sys2Proof.Machine
end

