-- ==== Sys2Proof/Machine/Special.lean ====
section
/-! DEFINITION. Special functions and division (R141, R142): exact values as fixed-point series, the error bounds that a
result of the special-function unit meets, and integer division. -/

namespace Sys2Proof.Machine

/-! ### Reference values, in fixed point of `prec` fraction bits -/

/-- Fraction bits of the reference series. -/
def prec : Nat := 512

/-- One in fixed point. -/
def fxOne : Int := ((2 ^ prec : Nat) : Int)

/-- Product in fixed point. -/
def fxMul (a b : Int) : Int := a * b / fxOne

/-- A finite value in fixed point, rounded down. -/
def fxOf (v : FV) : Int :=
  match v with
  | .num neg n k =>
    let m : Int := if -(prec : Int) ≤ k then ((n * 2 ^ (k + prec).toNat : Nat) : Int) else ((n / 2 ^ (-(k + prec)).toNat : Nat) : Int)
    if neg then -m else m
  | _ => 0

/-- A fixed-point number as a value. -/
def fxVal (x : Int) : FV := .num (decide (x < 0)) x.natAbs (-(prec : Int))

/-- Σ x^(2i+1)/(2i+1) with signs alternating or not: arctangent or its hyperbolic sister. -/
def fxAtanSeries (alt : Bool) (x : Int) : Int :=
  ((List.range 400).foldl (fun (a : Int × Int) (i : Nat) =>
    let t := a.2 / ((2 * i + 1 : Nat) : Int)
    (a.1 + (if alt && i % 2 == 1 then -t else t), fxMul (fxMul a.2 x) x)) (0, x)).1

/-- π, from Machin's formula. -/
def fxPi : Int := 16 * fxAtanSeries true (fxOne / 5) - 4 * fxAtanSeries true (fxOne / 239)

/-- ln 2 = 2 artanh(1/3). -/
def fxLn2 : Int := 2 * fxAtanSeries false (fxOne / 3)

/-- e^x for |x| at most 1. -/
def fxExp (x : Int) : Int :=
  ((List.range 120).foldl (fun (a : Int × Int) (i : Nat) => (a.1 + a.2, fxMul a.2 x / ((i + 1 : Nat) : Int))) (0, fxOne)).1

/-- sin x for |x| at most 4, and cos x. -/
def fxSinCos (x : Int) : Int × Int :=
  let r := (List.range 120).foldl (fun (a : Int × Int × Int) (i : Nat) =>
    let t := a.2.2
    let next := fxMul t x / ((i + 1 : Nat) : Int)
    match i % 4 with
    | 0 => (a.1, a.2.1 + t, next)
    | 1 => (a.1 + t, a.2.1, next)
    | 2 => (a.1, a.2.1 - t, next)
    | _ => (a.1 - t, a.2.1, next)) ((0 : Int), (0 : Int), fxOne)
  (r.1, r.2.1)

/-! ### The functions of R141 on finite operands that R142 does not settle -/

/-- 1 / a. -/
def refRcp (v : FV) : FV := FV.div prec (FV.ofInt 1) v

/-- 1 / √a of a positive number. -/
def refRsq (v : FV) : FV :=
  match v with
  | .num _ n k =>
    -- 1/√(n 2^k) with n scaled so that the exponent is even
    let odd : Nat := if k % 2 = 0 then 0 else 1
    let m := n * 2 ^ odd
    let e := (k - odd) / 2
    let q := 2 ^ (2 * prec) / m
    let r := isqrt q
    .num false (2 * r + if r * r * m = 2 ^ (2 * prec) then 0 else 1) (-(prec : Int) - 1 - e)
  | v => v

/-- log₂ of a positive number: the exponent, and the logarithm of the significand by artanh((m − 1)/(m + 1)). -/
def refLog2 (v : FV) : FV :=
  match v with
  | .num _ n k =>
    let b := bitLen n - 1
    let e : Int := k + b
    let num : Int := ((n - 2 ^ b : Nat) : Int)
    let z := num * fxOne / ((n + 2 ^ b : Nat) : Int)
    let ln := 2 * fxAtanSeries false z
    if num = 0 then FV.ofInt e else fxVal (e * fxOne + ln * fxOne / fxLn2)
  | v => v

/-- 2^a of a number of magnitude at most 1024: the integral part as an exponent. -/
def refExp2 (v : FV) : FV :=
  let x := fxOf v
  let i := x / fxOne
  let f := x - i * fxOne
  if f = 0 then .num false 1 i else .num false (fxExp (fxMul f fxLn2)).natAbs (i - prec)

/-- The angle of an operand within one turn, in radians: of a turn under `.turn`. -/
def refAngle (turn : Bool) (v : FV) : Int :=
  let tau := 2 * fxPi
  let x := fxOf v
  let y := if turn then fxMul (x % fxOne) tau else x % tau
  if fxPi < y then y - tau else y

/-- tanh a. -/
def refTanh (v : FV) : FV :=
  match v with
  | .num neg _ _ =>
    let x := fxOf v.abs
    -- e^(2x) = e^(2x/64)^64; the exact result stays below 1, and beyond 40 lies within 2^-100 of it
    if 40 * fxOne ≤ x then .num neg (2 ^ 100 - 1) (-100)
    else
      let i := x / fxOne
      let e1 := fxExp (fxOne / 2)
      let half := (List.range (4 * i.toNat)).foldl (fun a _ => fxMul a e1) fxOne
      let e := fxMul half (fxMul (fxExp (x - i * fxOne)) (fxExp (x - i * fxOne)))
      let r := fxVal ((e - fxOne) * fxOne / (e + fxOne))
      match r with
      | .num _ n k => .num neg n k
      | r => r
  | v => v

/-! ### Error bounds -/

/-- Does a result lie within `ulps` units in the last place of the exact one, or within 2^−24 where `abs` allows it?
Infinity stands for what is at least 2^128. [DEDUCED, log 29] -/
def withinUlp (ref : FV) (ulps : Nat) (abs : Bool) (x : Word) : Bool :=
  match ref with
  | .num neg n k =>
    let u : FV := .num false ulps (fp32.quantum n k)
    let floor : FV := .num false 1 (-24)
    let bound := if abs && u.cmp floor < 0 then floor else u
    match fval x with
    | .nan => false
    | .inf sg => sg == neg && decide (0 ≤ (FV.sum false [.num false n k, bound]).cmp (.num false 1 128))
    | c => decide ((FV.sum false [c, ref.negate]).abs.cmp bound ≤ 0)
  | _ => false

/-- The result of the unit for a finite operand: the exact value where FP32 holds it and the entry calls it exact;
otherwise what the unit gives, which lies within the bound. -/
def sfuResult (op mod : Nat) (a : Word) (ref : FV) (ulps : Nat) (exact abs : Bool) : Word :=
  let near := fround 0 ref
  if exact && (fval near).cmp ref = 0 then near
  else
    let x := Config.sfu op mod a
    if withinUlp ref ulps abs x then x else near

/-- Is a finite value an integral number? -/
def FV.integral : FV → Bool
  | .num _ n k => n == 0 || decide (0 ≤ k) || n % 2 ^ (-k).toNat == 0
  | _ => false

/-- FRCP to FTANH of one FP32 operand (R141, R142). -/
def sfuOp (op mod : Nat) (rm : Nat) (a : Word) : Word :=
  let v := fval a
  let nan := fround 0 .nan
  let inf (neg : Bool) := fround 0 (.inf neg)
  match v with
  | .nan => nan
  | .inf neg =>
    match op with
    | 0x42 => fround 0 (.num neg 0 0)
    | 0x43 => if neg then nan else 0
    | 0x44 => if neg then nan else inf false
    | 0x45 => if neg then nan else inf false
    | 0x46 => if neg then 0 else inf false
    | 0x49 => fround 0 (.num neg 1 0)
    | _ => nan
  | .num neg n _ =>
    if n = 0 then
      match op with
      | 0x42 => inf neg
      | 0x43 => inf neg
      | 0x45 => inf true
      | 0x46 => fround 0 (FV.ofInt 1)
      | 0x48 => fround 0 (FV.ofInt 1)
      | _ => a
    else
      match op with
      | 0x42 => sfuResult op mod a (refRcp v) 1 true false
      | 0x43 => if neg then nan else sfuResult op mod a (refRsq v) 1 true false
      | 0x44 => if neg then nan else fround rm v.sqrt
      | 0x45 => if neg then nan else sfuResult op mod a (refLog2 v) 2 true false
      | 0x46 =>
        if 0 < v.abs.cmp (FV.ofInt 1024) then (if neg then 0 else inf false)
        else sfuResult op mod a (refExp2 v) 2 v.integral false
      | 0x47 => sfuResult op mod a (fxVal (fxSinCos (refAngle (mod == 1) v)).1) 2 false true
      | 0x48 => sfuResult op mod a (fxVal (fxSinCos (refAngle (mod == 1) v)).2) 2 false true
      | _ => sfuResult op mod a (refTanh v) 2 false false

/-- FDIV (R141, R142). -/
def fdivOp (rm : Nat) (a b : Word) : Word := fround rm (FV.div 64 (fval a) (fval b))

/-- IDIV by SUB: quotient or remainder, signed or unsigned (R141, R142). -/
def idivOp (sub : Nat) (a b : Word) : Word :=
  match sub with
  | 0 => if b = 0 then 0xFFFFFFFF else BitVec.ofInt 32 (a.toInt.tdiv b.toInt)
  | 1 => if b = 0 then 0xFFFFFFFF else BitVec.ofNat 32 (a.toNat / b.toNat)
  | 2 => if b = 0 then a else BitVec.ofInt 32 (a.toInt.tmod b.toInt)
  | _ => if b = 0 then a else BitVec.ofNat 32 (a.toNat % b.toNat)

/-! ### The instructions -/

/-- An instruction of a variable latency has issued: it is outstanding on its counters, and with neither a class
counter nor a general one it holds the wave until it completes (R88, R93). -/
def State.outAct (s : State) (cls cf : Option Nat) (e : Effect) : Act :=
  let t := s.startOutst cls cf s.wave.insAddr false e
  .state (if cls.isNone && cf.isNone then { t with wave := { t.wave with hold := .outst s.fresh } } else t)

/-- An instruction of the special-function unit: results land at completion; a NaN made from other operands traps at the
instruction (R141, R142). -/
def sfuLanes (i : Instr) (f : G64) (s : State) (g : Wave → Nat → Word × Bool) : State :=
  run i s fun s =>
    let w := s.wave
    w.withIndex f
      (match w.firstNan fun L => (g w L).2 with
        | some L => nanFirst L 1
        | none => s.outAct none (cfCounter f.cf) (.writes [.vreg f.d.toNat w.act (w.perLane fun L => (g w L).1)]))

/-- One operand. -/
def sfuUnary (i : Instr) (f : G64) (s : State) (op : Nat) : State :=
  sfuLanes i f s fun w L =>
    let a := w.fa0 f L
    let r := sfuOp op f.mod.toNat (w.roundMode 0) a
    (r, (fval r).isNan && !(fval a).isNan)

/-- FRCP (R141). -/
def execFrcp (f : G64) (s : State) : Host.Outcome State Fault Refusal := ok (sfuUnary (.frcp f) f s 0x42)
/-- FRSQ (R141). -/
def execFrsq (f : G64) (s : State) : Host.Outcome State Fault Refusal := ok (sfuUnary (.frsq f) f s 0x43)
/-- FSQRT (R141). -/
def execFsqrt (f : G64) (s : State) : Host.Outcome State Fault Refusal := ok (sfuUnary (.fsqrt f) f s 0x44)
/-- FLOG2 (R141). -/
def execFlog2 (f : G64) (s : State) : Host.Outcome State Fault Refusal := ok (sfuUnary (.flog2 f) f s 0x45)
/-- FEXP2 (R141). -/
def execFexp2 (f : G64) (s : State) : Host.Outcome State Fault Refusal := ok (sfuUnary (.fexp2 f) f s 0x46)
/-- FSIN (R141). -/
def execFsin (f : G64) (s : State) : Host.Outcome State Fault Refusal := ok (sfuUnary (.fsin f) f s 0x47)
/-- FCOS (R141). -/
def execFcos (f : G64) (s : State) : Host.Outcome State Fault Refusal := ok (sfuUnary (.fcos f) f s 0x48)
/-- FTANH (R141). -/
def execFtanh (f : G64) (s : State) : Host.Outcome State Fault Refusal := ok (sfuUnary (.ftanh f) f s 0x49)
/-- FDIV (R141). -/
def execFdiv (f : G64) (s : State) : Host.Outcome State Fault Refusal :=
  ok (sfuLanes (.fdiv f) f s fun w L =>
    let a := w.fa0 f L
    let b := w.fb0 f L
    let r := fdivOp (w.roundMode 0) a b
    (r, (fval r).isNan && !((fval a).isNan || (fval b).isNan)))
/-- IDIV (R141). -/
def execIdiv (f : G64) (s : State) : Host.Outcome State Fault Refusal :=
  ok (sfuLanes (.idiv f) f s fun w L => (idivOp f.sub.toNat (w.opA f L) (w.opB f L), false))

end Sys2Proof.Machine
end

