-- ==== Sys2Proof/Machine/Transfer.lean ====
section
/-! DEFINITION. Accesses to memory by waves and by the engines that serve them: translation at the access, atomic
operations, the side log, the order in which a wave's accesses are performed, race-checked pages, and what an
outstanding memory instruction does when it is performed (R224, R227, R229 to R234, R248, R256 to R264, R354, R365). -/

namespace Sys2Proof.Machine

/-! ### One access -/

/-- What an access of a wave, or of an engine for it, meets. -/
inductive Res where
  /-- Performed: the bytes as they stood, and the physical address of a poisoned unit that it read (R253). -/
  | ok (s : State) (bs : List Byte) (bad : Option Nat)
  /-- Not performed for now. -/
  | wait (s : State)
  /-- Refused by a newer generation, the cached translation removed (R227). -/
  | retry (s : State)
  /-- No translation (R229). -/
  | fault (s : State) (va : Nat)
  /-- An error: code, detail, address (R234). -/
  | err (s : State) (code detail addr : Nat)

/-- Physical address of the first poisoned unit of an access. -/
def State.badUnit (s : State) (t : TransReg) (o n : Nat) : Nat :=
  let pa := t.ppage + o
  let key := if inChip pa || inHost pa then pa else match s.perform t o with
    | some (_, k) => k
    | none => pa
  match (unitsOf key n).find? s.isBad with
  | some u => pa + u - key
  | none => pa

/-- May an update of host memory be performed now (R377): in the bridge's own half, by an AtomicOp that the host
completes, or by the helper? -/
def State.hostUpdateNow (s : State) (pa : Nat) (pcieOp helper : Bool) : Bool :=
  let st := (s.halfAt (pa / 64)).state
  helper || (Config.cxlCache && (st == .e || st == .m)) || (Config.pcieAtomics && pcieOp)

/-- How an access is made: its kind (R214), whether it reads and writes in one step, whether the host completes such an
update natively, whether the host-atomic helper makes it, whether it writes only where its comparison holds, and whether it
fills L1. -/
structure How where
  acc : Access
  rmw : Bool
  pcieOp : Bool
  helper : Bool
  cond : Bool := false
  fill : Bool := false

/-- A plain load. -/
def How.load : How := { acc := .load, rmw := false, pcieOp := false, helper := false }
/-- A plain store. -/
def How.store : How := { acc := .store, rmw := false, pcieOp := false, helper := false }

/-- An access of `n` bytes at page offset `o` of a translation whose permissions are checked (R214, R218). -/
def State.accessAt (s : State) (core : Nat) (t : TransReg) (o n va : Nat) (h : How) (f : List Byte → List Byte) : Res :=
  match permFail t h.acc, geomFail t with
  | some d, _ => .err s 8 d va
  | none, some d => .err s 9 d va
  | none, none =>
    let pa := t.ppage + o
    if t.kind == 2 && h.rmw && !s.hostUpdateNow pa h.pcieOp h.helper then .wait s
    else
      let owned := Config.cxlCache && ((s.halfAt (pa / 64)).state == .e || (s.halfAt (pa / 64)).state == .m)
      match s.access core t o n (h.acc != .load) (h.rmw && !owned) f with
      | .ok s' bs p => .ok s' bs (if p && (h.acc == .load || h.rmw) then some (s.badUnit t o n) else none)
      | .wait s' => .wait s'
      | .refused => .retry (s.dropTlb core va)
      | .err c d a => .err s c d (a.getD va)

/-- Where an address stands after translation. -/
inductive Xlat where
  /-- At this offset of this page. -/
  | at_ (s : State) (t : TransReg) (o : Nat)
  /-- No translation. -/
  | fault (s : State) (va : Nat)
  /-- An error. -/
  | err (s : State) (code detail va : Nat)

/-- Translates an address for a core, through its TLBs (R206, R225). -/
def State.xlate (s : State) (core va : Nat) : Xlat :=
  if va / 2 ^ 52 != 0 then .err s 8 4 va
  else
    match s.translate core va with
    | (s, .leaf t) => .at_ s t (t.pbase.toNat - t.ppage)
    | (s, .absent) => .fault s va
    | (s, .malformed) => .err s 8 5 va
    | (s, .geometry d) => .err s 9 d va

/-- The address of an offset through a translation register (R224). -/
def TransReg.addr (t : TransReg) (off : Int) : Nat := wrap 64 ((t.vbase.toNat : Int) + off)

/-- Does an offset lie within the register's page, from VBASE on (R224)? -/
def TransReg.within (t : TransReg) (off : Int) : Bool := decide (0 ≤ off) && decide (off < (t.limit.toNat : Int))

/-- Translates an offset through a register that is not STALE (R224). -/
def State.xlateReg (s : State) (core : Nat) (t : TransReg) (off : Int) : Xlat :=
  if t.within off then .at_ s t (t.pbase.toNat + off.toNat - t.ppage) else s.xlate core (t.addr off)

/-- The translation that an offset would take, without a change to any cache; none: it takes none. -/
def State.peek (s : State) (t : TransReg) (off : Int) : Option (TransReg × Nat) :=
  if !t.stale && t.within off then some (t, t.pbase.toNat + off.toNat - t.ppage)
  else
    let va := t.addr off
    match s.walk va with
    | .leaf x => some (x, x.pbase.toNat - x.ppage)
    | _ => none

/-- The storage key by which race records and releases know an access: that of its home (R217, R243). -/
def State.accKey (s : State) (t : TransReg) (o : Nat) : Nat :=
  let pa := t.ppage + o
  if t.kind == 2 || inChip pa then pa
  else match s.perform t o with
    | some (_, k) => k
    | none => pa

/-! ### Atomic operations (R261) -/

/-- Minimum or maximum of R137, with the canonical NaN for a NaN (R261). -/
def atomMinMax (f : Fmt) (mx : Bool) (o b : Nat) : Nat := f.minmax mx o b

/-- The value an atomic writes, by AOP, at `w` bits (R261). -/
def atomicOp (aop w o b : Nat) : Nat :=
  let f := if w = 64 then fp64 else fp32
  match aop with
  | 0 => (o + b) % 2 ^ w
  | 1 => (o + 2 ^ w - b) % 2 ^ w
  | 2 => if sgn w o ≤ sgn w b then o else b
  | 3 => if sgn w o ≤ sgn w b then b else o
  | 4 => min o b
  | 5 => max o b
  | 6 => o &&& b
  | 7 => o ||| b
  | 8 => o ^^^ b
  | 9 => b
  | 10 => if b ≤ o then 0 else o + 1
  | 11 => if o = 0 || b < o then b else o - 1
  | 12 => f.round 0 (FV.sum false [f.val o, f.val b])
  | 13 => atomMinMax f false o b
  | 14 => atomMinMax f true o b
  | _ =>
    let h (i : Nat) : Nat :=
      fp16.round 0 (FV.sum false [fp16.val (o / 65536 ^ i % 65536), fp16.val (b / 65536 ^ i % 65536)])
    h 0 + 65536 * h 1

/-- The bytes an atomic leaves. -/
def atomicBytes (aop : Nat) (operand old : List Byte) : List Byte :=
  toBytes (atomicOp aop (8 * old.length) (ofBytes old) (ofBytes operand)) old.length

/-- The byte a merge leaves (R296): the bits of a mask, or a base-3 digit. -/
def mergeByte (op : Nat) (data : List Byte) (old : Byte) : Byte :=
  let a := (data.getD 0 0).toNat
  let b := (data.getD 1 0).toNat
  if op = 16 then old &&& ~~~BitVec.ofNat 8 a ||| BitVec.ofNat 8 b &&& BitVec.ofNat 8 a
  else
    let p := 3 ^ a
    BitVec.ofNat 8 (old.toNat - old.toNat / p % 3 * p + b * p)

/-- The bytes that a logged or engine write leaves: a store, an update, or a merge. -/
def writtenBytes (op : Option Nat) (data old : List Byte) : List Byte :=
  match op with
  | none => data
  | some n => if 16 ≤ n then [mergeByte n data (old.headD 0)] else atomicBytes n data old

/-- The bytes a CAS leaves: `operand` is the comparand and then the new value (R263). -/
def casBytes (operand old : List Byte) : List Byte :=
  if old = operand.take old.length then operand.drop old.length else old

/-- Operations that the host's AtomicOps make (R377). -/
def nativeOp (aop : Nat) : Bool := aop == 0 || aop == 1 || aop == 9

/-! ### Happens-before and race checks of one access -/

/-- What an access of the wave in focus does to happens-before once it is performed; a CAS that fails is a read (R346, R352). -/
def State.noteRel (s : State) (c : MemCap) (key n : Nat) (h : How) (wrote : Bool) : State :=
  let s := if h.acc == .store && !h.rmw then s else s.readRel key n c.order c.scope
  if wrote then s.writeRel key n h.rmw c.rels else s

/-- Does an access write, which found the bytes `old` where its lane has `data`? -/
def How.writes (h : How) (data old : List Byte) : Bool := h.acc != .load && !(h.cond && old != data.take old.length)

/-- A load that hits its core's L1 may find an error there: the line, which is clean, is refetched, and the error recorded as
corrected (R252, R253). -/
def State.l1Check (s : State) (core : Nat) (t : TransReg) (o : Nat) : State :=
  if !s.inL1 core t o then s
  else if Config.l1Error s.fresh then
    s.bump.boxRecord (dieOf core) (unitRecord 3 3 0 s.clock (BitVec.ofNat 64 (t.ppage + o)))
  else s.bump

/-- One lane of a captured instruction, at its home. -/
def State.laneDo (s : State) (c : MemCap) (la : LaneAcc) (h : How) (f : List Byte → List Byte) : Res :=
  let core := s.wave.core
  match s.xlateReg core c.tr la.off with
  | .fault s va => .fault s va
  | .err s code d va => .err s code d va
  | .at_ s t o =>
    if t.kind == 3 && h.acc != .load then .fault s (c.tr.addr la.off)
    else
      match s.accessAt core t o c.nbytes (c.tr.addr la.off) h f with
      | .ok s' bs bad =>
        if t.kind == 3 then .ok s' bs bad
        else
          let s' := s'.noteRel c (s.accKey t o) c.nbytes h (h.writes la.data bs)
          .ok (if h.fill && bad.isNone then (s'.l1Check core t o).grantLease core t o else s') bs bad
      | r => r

/-! ### The order of a wave's accesses (R231, R250, R354) -/

/-- The captured accesses of a memory instruction. -/
def Effect.cap : Effect → Option MemCap
  | .load c _ _ _ => some c
  | .store c => some c
  | .atomic c _ _ => some c
  | .cas c _ => some c
  | .ldk c _ => some c
  | _ => Option.none

/-- Is it a write or an update? -/
def Effect.isWrite : Effect → Bool
  | .store _ => true
  | .atomic _ _ _ => true
  | .cas _ _ => true
  | .stores _ _ => true
  | .accst _ _ _ _ _ _ _ _ => true
  | .accq _ _ _ _ _ _ => true
  | _ => false

/-- Is it a read or an update? -/
def Effect.isRead : Effect → Bool
  | .load _ _ _ _ => true
  | .atomic _ _ _ => true
  | .cas _ _ => true
  | .ldk _ _ => true
  | .tld _ _ _ => true
  | .accld _ _ _ _ _ _ _ => true
  | .ttrl _ _ => true
  | _ => false

/-- Has an order, at a scope beyond the wave, an acquire part that holds later accesses? -/
def MemCap.acq (c : MemCap) : Bool := acquires c.order && c.scope != 0
/-- And a release part? -/
def MemCap.release (c : MemCap) : Bool := releases c.order && c.scope != 0

/-- The 128-byte line of an access: physical where it translates, virtual otherwise. -/
def State.lineOf (s : State) (t : TransReg) (off : Int) : Nat :=
  match s.peek t off with
  | some (x, o) => if x.kind == 3 then 2 ^ 60 + t.addr off / 128 else (x.ppage + o) / 128
  | none => 2 ^ 60 + t.addr off / 128

/-- Does an earlier instruction's unperformed access touch the line? An engine's access is taken to. -/
def State.touches (s : State) (e : Effect) (line : Nat) : Bool :=
  match e with
  | .stores _ items => items.any fun x => s.lineOf TransReg.reset x.va == line
  | _ =>
    match e.cap with
    | some c => c.lanes.any fun la => s.lineOf c.tr la.off == line
    | none => e.isWrite || e.isRead

/-- Has an earlier instruction accesses that are not performed? -/
def Effect.pending (e : Effect) : Bool :=
  match e.cap with
  | some c => !c.lanes.isEmpty
  | Option.none => e.isAccess

/-- The same instruction with other captured accesses. -/
def Effect.setCap (e : Effect) (c : MemCap) : Effect :=
  match e with
  | .load _ d sx fill => .load c d sx fill
  | .store _ => .store c
  | .atomic _ op ret => .atomic c op ret
  | .cas _ d => .cas c d
  | .ldk _ d => .ldk c d
  | e => e

/-- Is a logged write an update (R230)? Merges of an engine are none. -/
def LogEntry.update (e : LogEntry) : Bool := match e.op with
  | some n => decide (n < 16)
  | none => false

/-- The entries of the core's side log that the wave made (R230). -/
def State.myLog (s : State) (w : Wave) : List LogEntry :=
  (s.core w.core).log.filter fun e => e.slot == w.slot && e.launch == w.launch

/-- May an access of wave `w` by its instruction `id` to a line be performed, as far as the wave's own earlier accesses
go (R231, R294, R354)? -/
def State.ownReady (s : State) (w : Wave) (id : Nat) (rd wr rel : Bool) (line : Nat) : Bool :=
  (w.outst.all fun o =>
    decide (id ≤ o.id) || (!(rel && o.cls == some 3) && (!o.eff.pending ||
      !((match o.eff.cap with
          | some c => c.acq
          | none => false) || rel || (o.eff.isRead && wr) || ((o.eff.isWrite || rd || wr) && s.touches o.eff line))))) &&
    !(rel && w.tcfgDue) &&
    (s.myLog w).all fun e => decide (id ≤ e.id) || !rel && !e.acq && !(e.update && wr) && e.va.toNat / 128 != line && e.va.toNat / 128 + 1 != line &&
      (e.lanes.all fun x => s.lineOf TransReg.reset (x.2.1.toNat : Int) != line)

/-- A write to the line that another wave of the core issued earlier, and that only its home still holds (R250). [DEDUCED, log 47] -/
def State.coreBehind (s : State) (core id line : Nat) (me : Wave) : Bool :=
  s.allWaves.any fun w =>
    w.core == core && w.slot != me.slot && w.outst.any fun o =>
      decide (o.id < id) && o.eff.isWrite &&
        match o.eff.cap with
        | none => false
        | some c => (c.lanes.any fun la => s.lineOf c.tr la.off == line) && s.ownReady w o.id false true c.release line

/-- The on-chip address of the scratchpad bytes that an offset names: the group's own, through the on-chip map, or through a
binding. -/
def State.spadAt (s : State) (t : TransReg) (off : Int) : Option Nat :=
  match s.peek t off with
  | none => none
  | some (x, o) =>
    let pa := x.ppage + o
    if 2 ≤ x.kind.toNat then none
    else if inChip pa then (match chipPlace pa with
      | .spad _ _ => some pa
      | _ => none)
    else (s.boundFor pa).map fun p => spadPa p.1 p.2

/-- Does an access of the group to the same scratchpad word, one of the two an LDS or its like, stand before a lane in issue
order (R259)? -/
def State.spadBehind (s : State) (id : Nat) (c : MemCap) (la : LaneAcc) : Bool :=
  match s.spadAt c.tr la.off with
  | none => false
  | some p =>
    s.allWaves.any fun w =>
      w.core == s.wave.core && w.gslot == s.wave.gslot && w.launch == s.wave.launch && w.outst.any fun o =>
        decide (o.id < id) && match o.eff.cap with
          | none => false
          | some d => (c.trn == 8 || d.trn == 8) && d.lanes.any fun lb =>
            match s.spadAt d.tr lb.off with
            | none => false
            | some q => meets (p / 4 * 4) (p % 4 + c.nbytes) (q / 4 * 4) (q % 4 + d.nbytes)

/-- Has the instruction a lane of the same 256-byte line before this one? Lanes of a line are performed in order (R248). -/
def MemCap.lineBehind (c : MemCap) (la : LaneAcc) : Bool :=
  (c.lanes.takeWhile fun x => x.lane != la.lane).any fun x => c.tr.addr x.off / 256 == c.tr.addr la.off / 256

/-- May a lane of the wave in focus be performed? -/
def State.laneReady (s : State) (id : Nat) (e : Effect) (c : MemCap) (la : LaneAcc) : Bool :=
  let line := s.lineOf c.tr la.off
  !c.lineBehind la && s.ownReady s.wave id e.isRead e.isWrite c.release line &&
    (c.trn == 8 || !s.coreBehind s.wave.core id line s.wave) && !s.spadBehind id c la

/-! ### The side log (R230, R232) -/

/-- Has the core's side log room? -/
def State.logRoom (s : State) (core : Nat) : Bool := decide ((s.core core).log.length < Config.sideLogEntries)

/-- A store or update of the wave in focus is logged, with the lanes of its 256-byte line together, and the page that does not
translate reported; none: the log is full. -/
def State.logLane (s : State) (id : Nat) (c : MemCap) (op : Option Nat) (la : LaneAcc) (va page : Nat) : Option State :=
  let w := s.wave
  let base := BitVec.ofNat 64 (va / 256 * 256)
  let x : Nat × DWord × List Byte := (la.lane, BitVec.ofNat 64 va, la.data)
  let co := s.core w.core
  if co.log.any fun e => e.id == id && e.va == base then
    some (s.setCore w.core { co with
      log := co.log.map fun e => if e.id == id && e.va == base then { e with lanes := e.lanes ++ [x] } else e })
  else if !s.logRoom w.core then none
  else
    let (s, tag) := s.reportFault w.core page 2
    let co := s.core w.core
    let e : LogEntry :=
      { id := id, slot := w.slot, launch := w.launch, va := base, op := op, nbytes := c.nbytes, lanes := [x],
        acq := c.acq, rels := w.hbRel, tag := tag, answered := false, declined := false }
    some (s.setCore w.core { co with log := co.log ++ [e] })

/-! ### Performing what is outstanding -/

/-- An error met by a wave's access becomes a deferred report (R234). -/
def State.deferErr (s : State) (code detail addr : Nat) : State :=
  s.report s.wave.core s.wave.slot { code := code, detail := detail, addr := BitVec.ofNat 64 addr }

/-- Replaces an outstanding instruction of the wave in focus. -/
def State.setOutst (s : State) (o : Outst) : State :=
  let w := s.wave
  { s with wave := { w with outst := w.outst.map fun p => if p.id == o.id then o else p } }

/-- Outstanding instruction `id` of the wave in focus. -/
def Wave.findOutst (w : Wave) (id : Nat) : Option Outst := w.outst.find? fun o => o.id == id

/-- A fault of an outstanding instruction is reported and awaits its answer; a load holds its wave from the next boundary
on (R229, R255), and is dropped where its wave has ended (R127). -/
def State.outstFault (s : State) (o : Outst) (va : Nat) (holds : Bool) : State × Outst :=
  let tile := match o.eff with
    | .tld _ _ _ => true
    | .accld _ _ _ _ _ _ _ => true
    | _ => false
  if holds && s.wave.ended && !tile then (s, { o with eff := .writes [], wait := .ready })
  else
    let (s, tag) := s.reportFault s.wave.core va (if holds then 1 else 2)
    (s, { o with holds := holds, wait := .fault (BitVec.ofNat 64 va) tag })

/-- An outstanding instruction ends in an error: nothing is written (R234). [DEDUCED, log 49] -/
def State.outstErr (s : State) (o : Outst) (code detail addr : Nat) : State × Outst :=
  (s.deferErr code detail addr, { o with eff := .writes [], wait := .ready })

/-- What refreshing a captured register comes to. -/
inductive Refreshed where
  /-- The instruction, with a register that is not STALE. -/
  | ok (s : State) (c : MemCap)
  /-- No translation. -/
  | absent (s : State)
  /-- An error: code and detail. -/
  | err (s : State) (code detail : Nat)

/-- Refreshes the STALE register that an instruction captured: a walk of its VBASE, which rewrites the register (R224). -/
def State.refresh (s : State) (c : MemCap) : Refreshed :=
  if !c.tr.stale then .ok s c
  else
    match s.walkFill s.wave.core c.tr.vbase.toNat with
    | (s, .leaf t) =>
      let w := s.wave
      .ok (if w.treg c.trn == c.tr then { s with wave := { w with tr := tset w.tr c.trn t } } else s) { c with tr := t }
    | (s, .absent) => .absent s
    | (s, .malformed) => .err s 8 5
    | (s, .geometry d) => .err s 9 d

/-- Marks a refused register STALE, in the instruction's copy and in the wave where it is the same (R227). -/
def State.markStale (s : State) (c : MemCap) (off : Int) : State × MemCap :=
  if !c.tr.stale && c.tr.within off then
    let w := s.wave
    let t := { c.tr with stale := true }
    (if w.treg c.trn == c.tr then { s with wave := { w with tr := tset w.tr c.trn t } } else s, { c with tr := t })
  else (s, c)

/-- After a refusal: walks again at once, or in 1 µs where the generation would be the same (R227). -/
def State.afterRefusal (s : State) (c : MemCap) (off : Int) : Wait :=
  match s.peek c.tr off, s.walk (c.tr.addr off) with
  | some (t, _), .leaf x => if t.gen == x.gen then .retry (s.clock + 2600) else .ready
  | _, _ => .ready

/-- A request of an instruction has met an error, reported once for its 256-byte line (R234, R248): the request has no
further effect, and a load leaves its whole destination unchanged. -/
def MemCap.failed (c : MemCap) (whole : Bool) (la : LaneAcc) : MemCap :=
  if whole then { c with lanes := [], done := [] }
  else { c with lanes := c.lanes.filter fun x => c.tr.addr x.off / 256 != c.tr.addr la.off / 256 }

/-- Runs a step that makes an outstanding instruction's accesses: where an engine makes them, they are the engine's for
happens-before (R351, R365). -/
def State.asEngine (s : State) (o : Outst) (f : State → State × Outst) : State × Outst :=
  if o.eff.byEngine then
    let r := f (s.engineOn o.id o.vc)
    (r.1.engineOff s, r.2)
  else f s

/-- Performs one lane of an outstanding instruction. `log` says that a translation fault is logged with this operation;
otherwise it holds the wave. -/
def State.doLane (s : State) (o : Outst) (c : MemCap) (wt : Wait) (h : How) (f : List Byte → List Byte)
    (log : Option (Option Nat)) (la : LaneAcc) : State × MemCap × Wait :=
  let whole := match o.eff with
    | .load _ _ _ _ => true
    | _ => false
  let rest : MemCap := { c with lanes := c.lanes.filter fun x => x.lane != la.lane }
  match s.laneDo c la h f with
  | .ok s' bs none => (s', { rest with done := c.done ++ [{ la with data := bs }] }, wt)
  | .ok _ _ (some pa) => (s.deferErr 0x11 0 pa, c.failed whole la, wt)
  | .wait s' => (s', c, wt)
  | .retry s' =>
    let w := s.afterRefusal c la.off
    let (s', c) := s'.markStale c la.off
    (s', c, w)
  | .err s' code d addr => (s'.deferErr code d addr, c.failed whole la, wt)
  | .fault s' va =>
    match log with
    | some op =>
      match s'.logLane o.id c op la va va with
      | some s' => (s', rest, wt)
      | none => (s', c, wt)
    | none =>
      if s.wave.ended then (s', c.failed true la, wt)
      else
        let (s', tag) := s'.reportFault s.wave.core va 1
        (s', c, .fault (BitVec.ofNat 64 va) tag)

/-- The writes of an instruction whose STALE register does not translate are logged, as far as the log has room (R224, R230). -/
def State.logLanes (s : State) (o : Outst) (c : MemCap) (op : Option Nat) (page : Nat) : State × MemCap :=
  c.lanes.foldl (fun a la =>
    if !a.1.laneReady o.id o.eff a.2 la then a
    else
      match a.1.logLane o.id a.2 op la (c.tr.addr la.off) page with
      | some s => (s, { a.2 with lanes := a.2.lanes.filter fun x => x.lane != la.lane })
      | none => a) (s, c)

/-- Performs the lanes of an outstanding instruction that can be performed, in order (R248); a STALE register is refreshed when
the first of them comes (R224). [DEDUCED, log 50] -/
def State.doLanes (s : State) (o : Outst) (c : MemCap) (h : How) (f : LaneAcc → List Byte → List Byte)
    (log : Option (Option Nat)) (mk : MemCap → Effect) : State × Outst :=
  if !c.lanes.any fun la => s.laneReady o.id o.eff c la then (s, { o with eff := mk c, wait := .ready, holds := log.isNone })
  else
  match s.refresh c with
  | .absent s =>
    (match log with
    | none => s.outstFault o c.tr.vbase.toNat true
    | some op =>
      let (s, c) := s.logLanes o c op c.tr.vbase.toNat
      (s, { o with eff := mk c, wait := .ready, holds := false }))
  | .err s code d => s.outstErr o code d c.tr.vbase.toNat
  | .ok s c =>
    let (s, c, wt) := c.lanes.foldl (fun a la =>
      if !a.2.1.tr.stale && (a.2.1.lanes.any fun x => x.lane == la.lane) && a.1.laneReady o.id o.eff a.2.1 la then
        a.1.doLane o a.2.1 a.2.2 h (f la) log la
      else a) (s, c, .ready)
    (s, { o with eff := mk c, wait := wt, holds := log.isNone })

/-- The register writes of a load's lanes (R258): low register first. -/
def loadWrites (d n : Nat) (sx : Bool) (done : List LaneAcc) : List WaveWrite :=
  let sel := lanesOf fun L => done.any fun la => la.lane == L
  let regs := if n ≤ 4 then 1 else n / 4
  (List.range regs).map fun i =>
    .vreg (d + i) sel ((List.range 64).map fun L =>
      match done.find? fun la => la.lane == L with
      | none => 0
      | some la =>
        let x := ofBytes ((la.data.drop (4 * i)).take 4)
        BitVec.ofNat 32 (if sx && n < 4 then wrap 32 (sgn (8 * n) x) else x))

/-- The bytes of registers `d` on in a lane (R258). -/
def Wave.regBytes (w : Wave) (d n L : Nat) : List Byte :=
  ((List.range ((n + 3) / 4)).flatMap fun i => toBytes (w.vlane (d + i) L).toNat 4).take n

/-- A load of a line that finds these bytes and changes nothing: a cache that holds them makes no difference. -/
def Res.plain (r : Res) (s : State) (bs : List Byte) : Bool :=
  match r with
  | .ok t cs none => cs == bs && t.frames == s.frames
  | _ => false

/-- The 64-byte line of a constant load, filled into the constant cache; which lines the cache still holds is open (R260),
and matters where a line differs from what memory holds. -/
def State.kfill (s : State) (core : Nat) (c : MemCap) (la : LaneAcc) : Res :=
  match s.xlateReg core c.tr la.off with
  | .fault s va => .fault s va
  | .err s code d va => .err s code d va
  | .at_ s t o =>
    if t.kind == 3 then .ok s (List.replicate c.nbytes 0) none
    else
      let pa := t.ppage + o
      let u := pa / 64
      let co := s.core core
      let held := cgetList co.kcache pa c.nbytes
      let sound := (permFail t .load).isNone && (geomFail t).isNone
      let load := s.accessAt core t (o - pa % 64) 64 (c.tr.addr la.off) How.load id
      if co.kcacheUnits.contains u && load.plain s (cgetList co.kcache (64 * u) 64) then .ok s held none
      else if sound && co.kcacheUnits.contains u && Config.keep s.fresh then .ok s.bump held none
      else
        match load with
        | .ok s bs none =>
          let co := s.core core
          .ok (s.setCore core { co with kcacheUnits := sput co.kcacheUnits u, kcache := csetList co.kcache (64 * u) bs })
            ((bs.drop (pa % 64)).take c.nbytes) none
        | r => r

/-- The same, of one lane, for LDK (R260). -/
def State.doLdk (s : State) (o : Outst) (c : MemCap) (d : Nat) : State × Outst :=
  match s.refresh c with
  | .absent s => s.outstFault o c.tr.vbase.toNat true
  | .err s code d => s.outstErr o code d c.tr.vbase.toNat
  | .ok s c =>
    let la := c.lanes.headD { lane := 0, off := 0, data := [] }
    match s.kfill s.wave.core c la with
    | .ok s bs none =>
      (s, { o with wait := .ready, eff := .writes ((wordsOf bs).zipIdx.map fun (x, i) => .sreg (d + i) x) })
    | .ok s _ (some pa) => s.outstErr o 0x11 0 pa
    | .wait s => (s, o)
    | .retry s' =>
      let w := s.afterRefusal c la.off
      let (s', c) := s'.markStale c la.off
      (s', { o with wait := w, eff := .ldk c d })
    | .err s code dt addr => s.outstErr o code dt addr
    | .fault s va => s.outstFault o va true

/-- TRANS: the walk, and the register to be written (R266). -/
def State.doTrans (s : State) (o : Outst) (n : Nat) (va : DWord) : State × Outst :=
  match s.walkFill s.wave.core va.toNat with
  | (s, .leaf t) => (s, { o with wait := .ready, eff := .writes [.treg n t] })
  | (s, .absent) => s.outstFault o va.toNat true
  | (s, .malformed) => s.outstErr o 8 5 va.toNat
  | (s, .geometry d) => s.outstErr o 9 d va.toNat

/-- Performs the accesses of an outstanding load, store, atomic or CAS, as far as they can be; `helper` says that the
host-atomic helper's CAS has just succeeded (R377). -/
def State.doParts (s : State) (o : Outst) (helper : Bool) : State × Outst :=
  match o.eff with
  | .load c d sx fill =>
    s.doLanes o c { How.load with fill := fill } (fun _ bs => bs) none fun c => .load c d sx fill
  | .store c => s.doLanes o c How.store (fun la _ => la.data) (some none) .store
  | .atomic c op (some d) =>
    s.doLanes o c { acc := .atomic, rmw := true, pcieOp := nativeOp op, helper := helper }
      (fun la old => atomicBytes op la.data old) none fun c => .atomic c op (some d)
  | .atomic c op none =>
    s.doLanes o c { acc := .store, rmw := true, pcieOp := nativeOp op, helper := helper }
      (fun la old => atomicBytes op la.data old) (some (some op)) fun c => .atomic c op none
  | .cas c d =>
    s.doLanes o c { acc := .atomic, rmw := true, pcieOp := true, helper := helper, cond := true }
      (fun la old => casBytes la.data old) none fun c => .cas c d
  | _ => (s, o)

/-- The register writes of an instruction all of whose lanes are performed (R258, R262, R263). -/
def Effect.results (e : Effect) (c : MemCap) : List WaveWrite :=
  match e with
  | .load _ d sx _ => loadWrites d c.nbytes sx c.done
  | .atomic _ _ (some d) => loadWrites d c.nbytes false c.done
  | .cas _ d => loadWrites d c.nbytes false c.done
  | _ => []

/-- Performs what an outstanding load, store, atomic, CAS, LDK or TRANS still has to do, as far as it can be. A write to a
replicated page is complete once every die has it (R362). -/
def State.doMem (s : State) (o : Outst) (helper : Bool) : State × Outst :=
  match o.eff with
  | .ldk c d => s.doLdk o c d
  | .trans n va => s.doTrans o n va
  | _ =>
    let (s, p) := s.doParts o helper
    match p.eff.cap with
    | none => (s, p)
    | some c =>
      if c.lanes.isEmpty && !(o.eff.isWrite && s.spreading s.wave.uid) then
        (s, { p with wait := .ready, eff := .writes (p.eff.results c) })
      else (s, p)

end Sys2Proof.Machine
end

