-- ==== Sys2Proof/Machine/Memory.lean ====
section
/-! DEFINITION. Loads, stores, atomics, CAS, fences, translation registers and caches (R254 to R269, R365). -/

namespace Sys2Proof.Machine

/-! ### The checks at issue (R255) -/

/-- A number as an address. -/
def bv (n : Nat) : DWord := BitVec.ofNat 64 n

/-- Checks 1 to 4 of R255 for accesses of `n` bytes by these lanes at these offsets of a register; then `k`. -/
def memChecks (w : Wave) (t : TransReg) (n : Nat) (acc : Access) (l : List (Nat × Int)) (k : Act) : Act :=
  if !t.valid then w.illegal
  else
    match l.find? fun p => t.addr p.2 % n != 0 with
    | some p => .trap 5 p.1 (bv (t.addr p.2))
    | none =>
      match l.find? fun p => t.addr p.2 / 2 ^ 52 != 0 with
      | some p => .trap 8 4 (bv (t.addr p.2))
      | none =>
        match (l.find? fun p => !t.stale && t.within p.2), permFail t acc, geomFail t with
        | some p, some d, _ => .trap 8 d (bv (t.addr p.2))
        | some p, none, some d => .trap 9 d (bv (t.addr p.2))
        | _, _, _ => k

/-- The active lanes with their offsets. -/
def Wave.offs (w : Wave) (f : M64) : List (Nat × Int) := w.actList.map fun L => (L, w.memOff f L)

/-- Puts a lane behind those of its own and lower 256-byte lines (R248). -/
def insLane (t : TransReg) (la : LaneAcc) : List LaneAcc → List LaneAcc
  | [] => [la]
  | x :: l => if t.addr la.off / 256 < t.addr x.off / 256 then la :: x :: l else x :: insLane t la l

/-- Lanes by ascending line, and by lane within one (R248). -/
def sortLanes (t : TransReg) (l : List LaneAcc) : List LaneAcc := l.foldl (fun a la => insLane t la a) []

/-- What an instruction captures at issue for these lanes, through this translation. -/
def Wave.captureOn (w : Wave) (f : M64) (trn : Nat) (t : TransReg) (n : Nat) (l : List LaneAcc) : MemCap :=
  { trn := trn, tr := t, nbytes := n, lanes := sortLanes t l, done := [], order := f.order.toNat,
    scope := f.scope.toNat, rels := w.releaseOf f.order.toNat f.scope.toNat }

/-- The same through its translation register. -/
def Wave.captureOf (w : Wave) (f : M64) (n : Nat) (l : List LaneAcc) : MemCap :=
  w.captureOn f f.tr.toNat (w.treg f.tr.toNat) n l

/-- The same for its active lanes, each with its data. -/
def Wave.capture (w : Wave) (f : M64) (n : Nat) (data : Nat → List Byte) : MemCap :=
  w.captureOf f n (w.actList.map fun L => { lane := L, off := w.memOff f L, data := data L })

/-- A write that is translated after its issue needs room in the side log (R232). -/
def State.needLog (s : State) (c : MemCap) (k : Act) : Act :=
  match c.lanes.find? fun la => c.tr.stale || !c.tr.within la.off with
  | some la => if s.logRoom s.wave.core then k else .trap 7 0 (bv (c.tr.addr la.off))
  | none => k

/-! ### Race-checked pages (R365 to R367) -/

/-- Does an access touch a race-checked page? -/
def State.rcLane (s : State) (c : MemCap) (la : LaneAcc) : Bool :=
  match s.peek c.tr la.off with
  | some (t, _) => t.rc && t.kind != 3
  | none => false

/-- The lower of two races by address. -/
def lowerRace (a b : Option (Nat × Nat)) : Option (Nat × Nat) :=
  match a, b with
  | none, b => b
  | a, none => a
  | some x, some y => if y.1 < x.1 then some y else some x

/-- What a lane does, given whether its comparison holds: whether it writes, whether it is atomic. An update is; a CAS that
fails is a read (R346, R363). -/
def LaneAcc.kind (c : MemCap) (h : How) (miss : Nat → Bool) (la : LaneAcc) : Bool × Bool :=
  let wr := h.acc != .load && !(h.cond && miss la.lane)
  (wr, (h.rmw && wr) || c.order != 0)

/-- The race, if any, that an instruction's lanes meet: lowest racing byte, by virtual address, and detail. -/
def State.raceOf (s : State) (c : MemCap) (h : How) (miss : Nat → Bool) : Option (Nat × Nat) :=
  c.lanes.foldl (fun b la =>
    let (wr, atomic) := la.kind c h miss
    match s.peek c.tr la.off with
    | some (t, o) =>
      if t.rc && t.kind != 3 then
        lowerRace b ((s.raceCheck (s.accKey t o) c.nbytes wr atomic).map fun x => (c.tr.addr la.off / 128 * 128 + x.1, x.2))
      else b
    | none => b) none

/-- Records an instruction's lanes. [DEDUCED, log 55] -/
def State.recordLanes (s : State) (c : MemCap) (h : How) (miss : Nat → Bool) : State :=
  c.lanes.foldl (fun s la =>
    let (wr, atomic) := la.kind c h miss
    match s.peek c.tr la.off with
    | some (t, o) => if t.rc && t.kind != 3 then s.raceRecord (s.accKey t o) c.nbytes wr atomic else s
    | none => s) s

/-- After a release the position of the wave in focus moves on. -/
def State.tickFor (s : State) (c : MemCap) : State :=
  if releases c.order then { s with wave := s.wave.tick } else s

/-- The instruction does not issue yet: a condition of its issue does not hold (R99). -/
def State.unissued (s : State) : Act := .stay { s with wave := { s.wave with hold := .unissued } }

/-- The instruction has issued and holds its wave: it goes on until it completes, or a trap withdraws it (R88, R384),
which a declined access of it forbids (R342, R438). -/
def State.hold (s : State) : Act :=
  .stay { s with wave := { s.wave with hold := if s.wave.dropped.isEmpty then .pipeline else .issued } }

/-- The same, for a held instruction that no trap withdraws. -/
def State.holdIssued (s : State) : Act := .stay { s with wave := { s.wave with hold := .issued } }

/-- What stands in the way of performing an instruction's lanes at its issue, tried one by one: an outcome, or none.
`log` says that a write which does not translate is logged; `detail` is that of PAGE_LOAD. -/
def State.tryLanes (s : State) (e : Effect) (c : MemCap) (h : How) (log : Bool) (detail : Nat) : Option Act :=
  c.lanes.findSome? fun la =>
    if !s.laneReady s.fresh e c la then some s.holdIssued
    else
      match s.laneDo c la h id with
      | .ok _ _ none => none
      | .ok _ _ (some pa) => some (.trap 0x11 0 (bv pa))
      | .wait s => some s.holdIssued
      | .retry s => some (s.markStale c la.off).1.holdIssued
      | .err _ code d addr => some (.trap code d (bv addr))
      | .fault s va => if log then none else some (.stay (s.holdFault va detail))

/-- An instruction that touches a race-checked page is of the held class: it is checked, recorded and performed at its
issue; lanes that cannot be performed at once keep it held (R365). -/
def State.rcGo (s : State) (e : Effect) (c : MemCap) (h : How) (log : Bool) (detail : Nat) : Act :=
  match s.tryLanes e c h log detail with
  | some a => a
  | none =>
    let o : Outst :=
      { id := s.fresh, cls := none, cf := none, pc := s.wave.insAddr, issued := s.clock, holds := true, token := false, eff := e,
        wait := .ready, vc := s.wave.hb }
    let (_, p) := s.doParts o false
    let found := (p.eff.cap.map fun d => d.done).getD []
    let miss (L : Nat) : Bool := (found.any fun la => la.lane == L &&
      (c.lanes.any fun x => x.lane == L && la.data != x.data.take la.data.length))
    match s.raceOf c h miss with
    | some (va, d) => .trap 0x0A d (bv va)
    | none =>
      let (s, o) := (s.recordLanes c h miss).doMem o false
      let s := s.tickFor c
      match o.eff with
      | .writes ws => .state (landAll s ws)
      | e => s.outAct none none e

/-- The same, once a STALE register has been refreshed (R224); a write whose register does not translate is logged as a whole. [DEDUCED, log 54] -/
def State.rcIssue (s : State) (e : Effect) (c : MemCap) (h : How) (log : Bool) (detail : Nat) : Act :=
  match s.refresh c with
  | .ok s c => s.rcGo (e.setCap c) c h log detail
  | .err s code d => .trap code d (bv (s.wave.treg c.trn).vbase.toNat)
  | .absent s => if log then (s.tickFor c).outAct none none e else .stay (s.holdFault c.tr.vbase.toNat detail)

/-- A memory instruction issues with its effect: counted and outstanding, or held on a race-checked page. -/
def State.memIssue (s : State) (cls : Nat) (cf : Option Nat) (e : Effect) (c : MemCap) (h : How) (log : Bool)
    (detail : Nat) : Act :=
  if c.lanes.any (s.rcLane c) then s.rcIssue e c h log detail else (s.tickFor c).outAct (some cls) cf e

/-! ### Loads, stores and atomics on global memory -/

/-- Bytes of a transfer. -/
def sizeBytes (f : M64) : Nat := 2 ^ f.size.toNat

/-- How a returning atomic is made. -/
def How.atom (op : Nat) : How := { acc := .atomic, rmw := true, pcieOp := nativeOp op, helper := false }
/-- How a CAS is made. -/
def How.cas : How := { acc := .atomic, rmw := true, pcieOp := true, helper := false, cond := true }
/-- How a no-return update is made. -/
def How.atomn (op : Nat) : How := { acc := .store, rmw := true, pcieOp := nativeOp op, helper := false }

/-- LD (R256, R258). -/
def execLd (f : M64) (s : State) : Host.Outcome State Fault Refusal :=
  ok (run (.ld f) s fun s =>
    let w := s.wave
    let n := sizeBytes f
    let c := w.capture f n fun _ => []
    memChecks w c.tr n .load (w.offs f)
      (s.memIssue 0 (cfCounter f.cf) (.load c f.d.toNat (f.aop.getLsbD 2) (f.aop.toNat % 4 != 1)) c How.load false 0))

/-- ST (R258). -/
def execSt (f : M64) (s : State) : Host.Outcome State Fault Refusal :=
  ok (run (.st f) s fun s =>
    let w := s.wave
    let n := sizeBytes f
    let c := w.capture f n (w.regBytes f.d.toNat n)
    memChecks w c.tr n .store (w.offs f)
      (s.needLog c (s.memIssue 1 (cfCounter f.cf) (.store c) c How.store true 0)))

/-- ATOM (R262). -/
def execAtom (f : M64) (s : State) : Host.Outcome State Fault Refusal :=
  ok (run (.atom f) s fun s =>
    let w := s.wave
    let n := sizeBytes f
    let op := f.aop.toNat
    let c := w.capture f n (w.regBytes f.d.toNat n)
    memChecks w c.tr n .atomic (w.offs f)
      (s.memIssue 0 (cfCounter f.cf) (.atomic c op (some f.d.toNat)) c (How.atom op) false 2))

/-- ATOMN (R262). -/
def execAtomn (f : M64) (s : State) : Host.Outcome State Fault Refusal :=
  ok (run (.atomn f) s fun s =>
    let w := s.wave
    let n := sizeBytes f
    let op := f.aop.toNat
    let c := w.capture f n (w.regBytes f.d.toNat n)
    memChecks w c.tr n .store (w.offs f)
      (s.needLog c (s.memIssue 1 (cfCounter f.cf) (.atomic c op none) c (How.atomn op) true 0)))

/-! ### The group's scratchpad (R244, R259, R262, R263) -/

/-- The live object of a group that a range of its scratchpad meets. -/
def State.objIn (s : State) (c g off n : Nat) : Option BarrierObj :=
  (s.core c).objs.find? fun o => o.gslot == g && meets off n o.off 16

/-- Checks of scratchpad accesses of `n` bytes at these offsets of the group's range; then `k`. -/
def State.spadChecks (s : State) (n : Nat) (wr rd : Bool) (l : List (Nat × Int)) (k : Act) : Act :=
  let w := s.wave
  let g := s.myGroup
  match l.find? fun p => wrap 64 p.2 % n != 0 with
  | some p => .trap 5 p.1 (bv (wrap 64 p.2))
  | none =>
    match l.find? fun p => decide (p.2 < 0) || decide ((g.spadLen : Int) < p.2 + n) with
    | some p => .trap 8 9 (bv (wrap 64 p.2))
    | none =>
      match (if wr then l.findSome? fun p => s.objIn w.core w.gslot p.2.toNat n else none) with
      | some o => .trap 0x0B 1 (bv o.off)
      | none =>
        match (if rd then l.findSome? fun p =>
            let pa := spadPa w.core (g.spadBase + p.2.toNat)
            (unitsOf pa n).find? s.isBad else none) with
        | some u => .trap 0x11 0 (bv u)
        | none => k

/-- The group's own scratchpad as a translation: it begins at the group's base in the on-chip map (R241, R244). -/
def State.spadReg (s : State) : TransReg :=
  let g := s.myGroup
  { limit := BitVec.ofNat 33 g.spadLen, gen := 0, pw := 0, valid := true, stale := false, rc := false, perm := 3, kind := 0,
    psize := 5, pbase := BitVec.ofNat 52 (spadPa s.wave.core g.spadBase), vbase := 0 }

/-- A scratchpad instruction: its accesses are made after its issue, in issue order with those of the group's waves to the same
word (R259). [DEDUCED, log 58] -/
def State.spadIssue (s : State) (f : M64) (n cls : Nat) (rd : Bool) (data : Nat → List Byte) (h : How)
    (e : MemCap → Effect) : Act :=
  let w := s.wave
  let c := w.captureOn f 8 s.spadReg n (w.actList.map fun L => { lane := L, off := w.memOff f L, data := data L })
  s.spadChecks n (h.acc != .load) rd (w.offs f) (s.memIssue cls (cfCounter f.cf) (e c) c h false 0)

/-- LDS (R259). -/
def execLds (f : M64) (s : State) : Host.Outcome State Fault Refusal :=
  ok (run (.lds f) s fun s =>
    s.spadIssue f (sizeBytes f) 0 true (fun _ => []) How.load fun c => .load c f.d.toNat (f.aop.getLsbD 2) false)

/-- STS (R259). -/
def execSts (f : M64) (s : State) : Host.Outcome State Fault Refusal :=
  ok (run (.sts f) s fun s =>
    s.spadIssue f (sizeBytes f) 1 false (s.wave.regBytes f.d.toNat (sizeBytes f)) How.store .store)

/-- ATOMS (R262). -/
def execAtoms (f : M64) (s : State) : Host.Outcome State Fault Refusal :=
  ok (run (.atoms f) s fun s =>
    s.spadIssue f (sizeBytes f) 0 true (s.wave.regBytes f.d.toNat (sizeBytes f)) (How.atom f.aop.toNat)
      fun c => .atomic c f.aop.toNat (some f.d.toNat))

/-- CAS, on global memory or on scratchpad (R263). -/
def execCas (f : M64) (s : State) : Host.Outcome State Fault Refusal :=
  ok (run (.cas f) s fun s =>
    let w := s.wave
    let n := sizeBytes f
    let data := w.regBytes f.d.toNat (2 * n)
    if f.aop == 1 then s.spadIssue f n 0 true data How.cas fun c => .cas c f.d.toNat
    else
      let c := w.capture f n data
      memChecks w c.tr n .atomic (w.offs f) (s.memIssue 0 (cfCounter f.cf) (.cas c f.d.toNat) c How.cas false 2))

/-! ### Constants, fences, translation and caches -/

/-- LDK: from the captured argument block, or from global memory through the constant cache (R260). [DEDUCED, log 56] -/
def execLdk (f : M64) (s : State) : Host.Outcome State Fault Refusal :=
  ok (run (.ldk f) s fun s =>
    let w := s.wave
    let n := sizeBytes f
    let off := w.uniOff f
    let d := f.d.toNat
    if f.aop == 1 then
      let c := w.captureOf f n [{ lane := 0, off := off, data := [] }]
      memChecks w c.tr n .load [(0, off)] (s.outAct (some 0) (cfCounter f.cf) (.ldk c d))
    else
      let args := s.myLaunch.args
      if wrap 64 off % n != 0 then .trap 5 0 (bv (wrap 64 off))
      else if off < 0 || (args.length : Int) < off + n then .trap 8 13 (bv (wrap 64 off))
      else
        let ws := wordsOf ((args.drop off.toNat).take n)
        s.outAct (some 0) (cfCounter f.cf) (.writes (ws.zipIdx.map fun (x, i) => .sreg (d + i) x)))

/-- Are the earlier reads and updates of the wave in focus performed, logged ones included (R231, R354)? -/
def State.readsDone (s : State) : Bool :=
  !(s.wave.outst.any fun o => o.eff.isRead && o.eff.pending) && !(s.myLog s.wave).any fun e => e.update

/-- FENCE: holds until its parts are complete (R265); what it releases and acquires is that of R352. [DEDUCED, log 60] -/
def execFence (f : M64) (s : State) : Host.Outcome State Fault Refusal :=
  ok (run (.fence f) s fun s =>
    let o := f.order.toNat
    if (releases o && !s.accessesDone s.fresh) || (acquires o && !s.readsDone) then s.holdIssued
    else
      let sc := f.scope.toNat
      let w := if acquires o then s.wave.hbAcq.foldl (fun w m => w.takeMsg sc m) s.wave else s.wave
      .wave (if releases o then { w with hbRel := (w.hbRel.filter fun r : Nat × Vec => r.1 != sc) ++ [(sc, w.hb)] }.tick else w))

/-- TRANS: the walk is made after issue (R266). -/
def execTrans (f : M64) (s : State) : Host.Outcome State Fault Refusal :=
  ok (run (.trans f) s fun s =>
    let va := s.wave.sop64 f.a + f.imm.signExtend 64
    if va.toNat / 2 ^ 52 != 0 then .trap 8 4 va
    else s.outAct (some 0) (cfCounter f.cf) (.trans f.tr.toNat va))

/-- TRINV: VALID := 0 in one register or in all (R267). -/
def execTrinv (f : M64) (s : State) : Host.Outcome State Fault Refusal :=
  ok (runWave (.trinv f) s fun w =>
    let clear (n : Nat) (w : Wave) : Wave := { w with tr := tset w.tr n { w.treg n with valid := false } }
    .wave (if f.aop == 1 then (List.range 8).foldl (fun w n => clear n w) w else clear f.tr.toNat w))

/-- One line of a PREF: read at its home and, for `.l1`, filled into L1; whatever stands in its way drops it (R268). -/
def State.prefLane (s : State) (f : M64) (t : TransReg) (off : Int) : State :=
  if t.stale then s
  else
    match s.xlateReg s.wave.core t off with
    | .at_ s' x o =>
      if x.kind == 3 then s
      else
        match s'.accessAt s.wave.core x (o / 128 * 128) 128 0 How.load id with
        | .ok s'' _ none => if f.aop == 0 then s''.grantLease s.wave.core x o else s''
        | _ => s
    | _ => s

/-- PREF (R268). [DEDUCED, log 57] -/
def execPref (f : M64) (s : State) : Host.Outcome State Fault Refusal :=
  ok (run (.pref f) s fun s =>
    let t := s.wave.treg f.tr.toNat
    if !t.valid then s.wave.illegal
    else .state ((s.wave.offs f).foldl (fun s p => s.prefLane f t p.2) s))

/-- The storage line that a lane of CACHE `.l1inv` addresses. -/
def State.cacheLine (s : State) (t : TransReg) (off : Int) : Option Nat :=
  match s.peek t off with
  | some (x, o) => (s.perform x o).map fun p => p.2 / 128
  | none => none

/-- CACHE (R269): dropping L1 sectors takes the core's counted copies away; leases stand as they are. -/
def execCache (f : M64) (s : State) : Host.Outcome State Fault Refusal :=
  ok (run (.cache f) s fun s =>
    let w := s.wave
    let c := s.myCore
    match f.aop.toNat with
    | 0 => .state (s.setCore w.core { c with icacheUnits := [], icache := [] })
    | 1 => .state (s.setCore w.core { c with kcacheUnits := [], kcache := [] })
    | 2 =>
      let t := w.treg f.tr.toNat
      if !t.valid then w.illegal
      else
        let lines := (w.offs f).filterMap fun p => s.cacheLine t p.2
        .state (s.setCore w.core { c with counted := c.counted.filter fun l => !lines.contains l })
    | _ => .state (s.setCore w.core { c with counted := [] }))

end Sys2Proof.Machine
end

