-- ==== Sys2Proof/Machine/Binding.lean ====
section
/-! DEFINITION. Write-once units and bindings of scratchpad: SEAL, UNSEAL, WOREL, SMAP, SUNMAP, and the write-back of a
binding (R245 to R247, R251, R284, R285). -/

namespace Sys2Proof.Machine

/-! ### Ranges of 4 KiB units (R284) -/

/-- What looking at the page of one address gives. -/
inductive Unit where
  /-- The page and the offset in it. -/
  | page (s : State) (t : TransReg) (o : Nat)
  /-- The wave's instruction ends or waits so. -/
  | act (a : Act)

/-- tr[TR] of a held instruction, refreshed and rewritten where it is STALE (R224); then `k`. -/
def State.freshReg (s : State) (n : Nat) (k : State → TransReg → Act) : Act :=
  let t := s.wave.treg n
  if !t.stale then k s t
  else
    match s.walkFill s.wave.core t.vbase.toNat with
    | (s, .leaf x) => k { s with wave := { s.wave with tr := tset s.wave.tr n x } } x
    | (s, .absent) => .stay (s.holdFault t.vbase.toNat 7)
    | (_, .malformed) => .trap 8 5 (bv t.vbase.toNat)
    | (_, .geometry d) => .trap 9 d (bv t.vbase.toNat)

/-- The page at an address through tr[TR], for a held instruction whose kind, permissions and geometry are checked. -/
def State.unitPage (s : State) (t : TransReg) (off : Int) (kindOk : TransReg → Option (Nat × Nat)) : Unit :=
  let va := t.addr off
  match s.xlateReg s.wave.core t off with
  | .fault s va => .act (.stay (s.holdFault va 7))
  | .err _ code d va => .act (.trap code d (bv va))
  | .at_ s x o =>
    match kindOk x, geomFail x with
    | some (code, d), _ => .act (.trap code d (bv va))
    | none, some d => .act (.trap 9 d (bv va))
    | none, none => .page s x o

/-- Kind and permission of a unit of SEAL and UNSEAL (W) or of WOREL (READ). -/
def sealKind (perm detail : Nat) (t : TransReg) : Option (Nat × Nat) :=
  if t.kind != 1 then some (8, 11) else if t.perm.getLsbD perm then none else some (8, detail)

/-- Checks and translates `n` units from an offset on, and asks the home of each for its generation (R227, R284). -/
def State.units (s : State) (t : TransReg) (off : Int) (perm detail : Nat) :
    Nat → Except Act (State × List (TransReg × Nat))
  | 0 => .ok (s, [])
  | n + 1 =>
    match s.unitPage t off (sealKind perm detail) with
    | .act a => .error a
    | .page s x o =>
      match s.frameAccess s.wave.core x o 1 false id with
      | .wait s => .error s.holdIssued
      | .refused => .error (s.dropTlb s.wave.core (t.addr off)).holdIssued
      | .err code d _ => .error (.trap code d (bv (t.addr off)))
      | .ok s _ _ =>
        match s.units t (off + 4096) perm detail n with
        | .error a => .error a
        | .ok (s, l) => .ok (s, (x, o) :: l)

/-- The 32 storage lines of a unit, where they are performed; empty while a line of it is being copied. -/
def State.unitLines (s : State) (x : TransReg × Nat) : List Nat :=
  (List.range 32).filterMap fun i => (s.perform x.1 (x.2 + 128 * i)).map fun p => p.2 / 128

/-- Number of copies of a sealed line: those that cores count (R251). -/
def State.copyCount (s : State) (line : Nat) : Nat := (s.cores.filter fun c => c.2.counted.contains line).length

/-- Sets the state of the units (R251). [DEDUCED, log 64] -/
def State.setSeals (s : State) (v : BitVec 1) (l : List (TransReg × Nat)) : State :=
  { s with seals := l.foldl (fun c x => cset c (s.sealFrame (x.1.ppage + x.2)) v) s.seals }

/-- The range of SEAL, UNSEAL and WOREL: its checks in the order of R255, then `k` with the unit count and the offset. -/
def Wave.sealRange (w : Wave) (f : M64) (k : TransReg → Int → Nat → Act) : Act :=
  let t := w.treg f.tr.toNat
  let off := w.uniOff f
  let n := (w.sop f.d).toNat
  if !t.valid then w.illegal
  else if t.addr off % 4096 != 0 then .trap 5 0 (bv (t.addr off))
  else if t.addr off / 2 ^ 52 != 0 then .trap 8 4 (bv (t.addr off))
  else if n = 0 || 1048576 < n then w.illegal
  else k t off n

/-- SEAL: waits for the wave's earlier accesses and for every store held at the homes of the units (R251, R284). -/
def execSeal (f : M64) (s : State) : Host.Outcome State Fault Refusal :=
  ok (run (.seal f) s fun s =>
    s.wave.sealRange f fun _ off n => s.freshReg f.tr.toNat fun s t =>
      match s.units t off 1 2 n with
      | .error a => a
      | .ok (s, l) =>
        if !s.accessesDone s.fresh || (l.any fun x => (s.unitLines x).any fun i => s.waitWrites.contains i) then s.holdIssued
        else .state (s.setSeals 1 l))

/-- UNSEAL: recalls the copies off the home die and waits until no copy is counted (R251, R284). -/
def execUnseal (f : M64) (s : State) : Host.Outcome State Fault Refusal :=
  ok (run (.unseal f) s fun s =>
    s.wave.sealRange f fun _ off n => s.freshReg f.tr.toNat fun s t =>
      match s.units t off 1 2 n with
      | .error a => a
      | .ok (s, l) =>
        let lines := (l.filter fun x => s.sealed (x.1.ppage + x.2)).flatMap s.unitLines
        let s := lines.foldl (fun s i => s.callBack i) s
        if lines.any fun i => s.copyCount i != 0 then s.holdIssued else .state (s.setSeals 0 l))

/-- WOREL: its checks where the register holds the translation; the range is released on completion (R255, R284). -/
def execWorel (f : M64) (s : State) : Host.Outcome State Fault Refusal :=
  ok (run (.worel f) s fun s =>
    let w := s.wave
    w.sealRange f fun t off n =>
      let c := w.captureOf f 1 ((List.range n).map fun i => { lane := i, off := off + 4096 * i, data := [] })
      match c.lanes.find? fun la => !t.stale && t.within la.off, sealKind 0 1 t, geomFail t with
      | some la, some (code, d), _ => .trap code d (bv (t.addr la.off))
      | some la, none, some d => .trap 9 d (bv (t.addr la.off))
      | _, _, _ => s.outAct (some 1) (cfCounter f.cf) (.worel c n))

/-- The wave in focus drops its core's counted copies of the range of an outstanding WOREL (R251). -/
def State.doWorel (s : State) (o : Outst) (c : MemCap) : State × Outst :=
  if c.lanes.isEmpty then (s, { o with eff := .writes [], wait := .ready })
  else
  match s.refresh c with
  | .absent s => s.outstFault o c.tr.vbase.toNat true
  | .err s code d => s.outstErr o code d c.tr.vbase.toNat
  | .ok s c =>
    c.lanes.foldl (fun a la =>
      match a.2.eff with
      | .worel c n =>
        match a.1.xlateReg a.1.wave.core c.tr la.off with
        | .fault s va => s.outstFault a.2 va true
        | .err s code d va => s.outstErr a.2 code d va
        | .at_ s x oo =>
          match sealKind 0 1 x, geomFail x with
          | some (code, d), _ => s.outstErr a.2 code d (c.tr.addr la.off)
          | none, some d => s.outstErr a.2 9 d (c.tr.addr la.off)
          | none, none =>
            let lines := s.unitLines (x, oo)
            let core := s.core s.wave.core
            let rest := c.lanes.filter fun y => y.lane != la.lane
            (s.setCore s.wave.core { core with counted := core.counted.filter fun i => !lines.contains i },
              { a.2 with wait := .ready, eff := if rest.isEmpty then .writes [] else .worel { c with lanes := rest } n })
      | _ => a) (s, { o with eff := .worel c c.lanes.length })

/-! ### Bindings (R245 to R247) -/

/-- Physical address at which a binding starts. -/
def Binding.start (b : Binding) : Nat := b.tr.pbase.toNat

/-- Storage keys of line `i` of a binding, where it is performed now; none: the line is being copied. -/
def State.bindLine (s : State) (b : Binding) (i : Nat) : Option (Nat × Nat) :=
  s.perform b.tr (b.tr.pbase.toNat - b.tr.ppage + 128 * i)

/-- Poison of a range of `n` bytes follows a copy from keys at `src` to keys at `dst` (R253). -/
def State.copyPoison (s : State) (src dst n : Nat) : State :=
  let bad := ((List.range (n / 16)).filter fun i => s.isBad (src + 16 * i)).map fun i => dst + 16 * i
  { s with poison := bad.foldl sput (s.poison.filter fun u => !(dst ≤ u && u < dst + n)) }

/-- Writes the lines of a binding of core `c` that were written while bound back to frame storage (R247); none: a line of
it is being copied by a move. -/
def State.writeBack (s : State) (c : Nat) (b : Binding) : Option State :=
  let base := (s.group c b.grp).spadBase + 1024 * b.spoff
  b.dirty.foldl (fun s i =>
    match s with
    | none => none
    | some s =>
      match s.bindLine b i with
      | none => none
      | some (pb, key) =>
        let bs := s.spadRead c (base + 128 * i) 128
        some (((s.markRec pb true).putMem key bs).copyPoison (spadPa c (base + 128 * i)) key 128)) (some s)

/-- Writes a binding back and removes it (R247). -/
def State.unbind (s : State) (c : Nat) (b : Binding) : Option State :=
  (s.writeBack c b).map fun s => s.setCore c { s.core c with smap := (s.core c).smap.filter (· != b) }

/-- Would a range of physical addresses meet a live binding of any core, by either side of a move (R245)? -/
def State.bindMeets (s : State) (pa n : Nat) : Bool :=
  s.cores.any fun c => c.2.smap.any fun b => meets (s.srcSide pa) n (s.srcSide b.start) (256 * b.len)

/-- Does anything hold back the grant of write ownership of line `i` of a binding: a copy in progress, a lease, a copy at
the host (R246)? The state may record that the host has been asked. -/
def State.grantWait (s : State) (b : Binding) (i : Nat) : Option State :=
  match s.bindLine b i with
  | none => some s
  | some (_, key) =>
    let line := key / 128
    if s.lineBusy line then some s
    else if s.hostHolds line then some (s.askHost line)
    else if s.leased line then some { s with waitWrites := sput s.waitWrites line }
    else none

/-- Binds a range whose lines are all grantable: copies are recalled, the lines filled, DIRTY set, the binding recorded
(R246). -/
def State.bindFill (s : State) (c : Nat) (b : Binding) : State :=
  let base := (s.group c b.grp).spadBase + 1024 * b.spoff
  let s := (List.range (2 * b.len)).foldl (fun s i =>
    match s.bindLine b i with
    | none => s
    | some (pb, key) =>
      let s := (s.callBack (key / 128)).markRec pb true
      let s := { s with waitWrites := sdel s.waitWrites (key / 128) }
      (s.spadPut c (base + 128 * i) (cgetList s.mem key 128)).copyPoison key (spadPa c (base + 128 * i)) 128) s
  let x := s.core c
  s.setCore c { x with smap := x.smap ++ [b] }

/-- Tries to bind: the lines are granted and filled, or something still holds one back (R246). [DEDUCED, log 63] -/
def State.tryBind (s : State) (c : Nat) (b : Binding) : Except State State :=
  match (List.range (2 * b.len)).findSome? fun i => s.grantWait b i with
  | some s => .error s
  | none => .ok (s.bindFill c b)

/-- Checks the frame records of a binding's 4 KiB units, as an access under its translation would (R222, R227). -/
def State.bindRecs (s : State) (t : TransReg) (o : Nat) : Nat → Except (State × Option (Nat × Nat)) State
  | 0 => .ok s
  | n + 1 =>
    match s.frameAccess s.wave.core t o 1 false id with
    | .ok s _ _ => s.bindRecs t (o + 4096) n
    | .wait s => .error (s, none)
    | .refused => .error (s.dropTlb s.wave.core t.vbase.toNat, none)
    | .err code d _ => .error (s, some (code, d))

/-- Must a binding be refused under R245: the page, its kind and home, an overlap, a full table? -/
def State.bindRefused (s : State) (t : TransReg) (o len : Nat) : Bool :=
  decide (t.bytes < o + len) || t.kind != 0 || 2 ≤ pwHome t.pw || !inFrame t.ppage ||
    s.bindMeets (t.ppage + o) len || decide (16 ≤ s.myCore.smap.length)

/-- SMAP (R285). -/
def execSmap (f : M64) (s : State) : Host.Outcome State Fault Refusal :=
  ok (run (.smap f) s fun s =>
    let w := s.wave
    let t := w.treg f.tr.toNat
    let off := w.uniOff f
    let va := t.addr off
    let sp := (lo32 (w.sop64 f.d)).toNat
    let len := (hi32 (w.sop64 f.d)).toNat
    let both (x : TransReg) : Option (Nat × Nat) := if x.perm.getLsbD 0 && x.perm.getLsbD 1 then none else some (8, 2)
    if !t.valid then w.illegal
    else if va % 256 != 0 then .trap 5 0 (bv va)
    else if sp % 1024 != 0 then .trap 5 0 (bv sp)
    else if va / 2 ^ 52 != 0 then .trap 8 4 (bv va)
    else if s.myGroup.spadLen < sp + len then .trap 8 9 (bv sp)
    else
      s.freshReg f.tr.toNat fun s t => match s.unitPage t off both with
      | .act a => a
      | .page s x o =>
        if len % 256 != 0 || len < 256 || 524288 < len then w.illegal
        else if s.bindRefused x o len then .trap 9 5 (bv va)
        else
          match s.objIn w.core w.gslot sp len with
          | some ob => .trap 0x0B 1 (bv ob.off)
          | none =>
            match s.bindRecs x (o / 4096 * 4096) ((o % 4096 + len + 4095) / 4096) with
            | .error (_, some (code, d)) => .trap code d (bv va)
            | .error (s, none) => s.holdIssued
            | .ok s =>
              let b : Binding := { vbase := bv va, len := len / 256, spoff := sp / 1024, grp := w.gslot, tr := x.moveTo va, dirty := [] }
              match s.tryBind w.core b with
              | .error s => s.holdIssued
              | .ok s => .state s)

/-- SUNMAP (R285). -/
def execSunmap (f : M64) (s : State) : Host.Outcome State Fault Refusal :=
  ok (run (.sunmap f) s fun s =>
    let w := s.wave
    let t := w.treg f.tr.toNat
    let va := t.addr (w.uniOff f)
    if !t.valid then w.illegal
    else if va / 2 ^ 52 != 0 then .trap 8 4 (bv va)
    else
      match s.myCore.smap.find? fun b => b.grp == w.gslot && b.vbase == bv va with
      | none => .trap 9 6 (bv va)
      | some b =>
        match s.unbind w.core b with
        | none => s.holdIssued
        | some s => .state s)

end Sys2Proof.Machine
end

