-- ==== Sys2Proof/Machine/Barrier.lean ====
section
/-! DEFINITION. Barrier objects, per-lane copies and their batches, sparsity metadata, and the write pointers of the copy
channels (R270 to R279, R282). -/

namespace Sys2Proof.Machine

/-! ### The steps of an object (R276) -/

/-- PhaseCheck (R276). -/
def BarrierObj.check (o : BarrierObj) : BarrierObj :=
  if o.arrcnt == o.expcnt && o.arrbytes == o.expbytes then
    let k := (o.phase + 1).toNat
    { o with
      phase := o.phase + 1, arrcnt := 0, arrbytes := 0, expbytes := 0, vcDone := tset o.vcDone k o.vc,
      vcBytesDone := tset o.vcBytesDone k o.vcBytes, vc := [], vcBytes := [] }
  else o

/-- Has PHASE passed the phase number `n` (R279)? -/
def BarrierObj.passed (o : BarrierObj) (n : Nat) : Bool :=
  let d := (o.phase.toNat + 2 ^ 16 - n) % 2 ^ 16
  decide (1 ≤ d) && decide (d ≤ 32767)

/-- Is `k`, the PHASE after a completed phase, one of those that a BWAIT past phase number `n` observes (R279)? -/
def BarrierObj.seen (o : BarrierObj) (n k : Nat) : Bool :=
  let d := (k + 2 ^ 16 - n) % 2 ^ 16
  decide (1 ≤ d) && decide (d ≤ (o.phase.toNat + 2 ^ 16 - n) % 2 ^ 16)

/-- What a BWAIT that returns acquires of the phases it observes: under acquire what the arrivals release, and at its scope, or
at group scope when it is relaxed, the writes whose bytes were added (R279, R352, R360). -/
def Wave.observe (w : Wave) (o : BarrierObj) (n : Nat) (acq : Option Nat) : Wave :=
  let w := (o.vcDone.filter fun p => o.seen n p.1).foldl (fun w p => match acq with
    | some sc => p.2.foldl (fun w m => w.takeMsg sc m) w
    | none => w) w
  if acq == some 0 then w else (o.vcBytesDone.filter fun p => o.seen n p.1).foldl (fun w p => w.joinHb p.2) w

/-- Stores an object after a step on it; each BWAIT whose phase number it has passed retires (R276, R279). -/
def State.objStep (s : State) (c : Nat) (o : BarrierObj) : State :=
  let o := o.check
  (s.putObj c o).mapWaves fun w =>
    match w.hold with
    | .bwait off n acq =>
      if w.core == c && w.gslot == o.gslot && off == o.off && o.passed n then
        { ({ (w.observe o n acq) with hold := .none } : Wave).advance 8 s.clock with lastIssue := w.lastIssue }
      else w
    | _ => w

/-- A byte addition (R276), which releases what the copy has written (R271, R281). [DEDUCED, log 71] -/
def State.addBytes (s : State) (c g off bytes : Nat) (vc : Vec) : State :=
  match s.findObj c g off with
  | none => s
  | some o =>
    s.objStep c { o with arrbytes := o.arrbytes + BitVec.ofNat 32 bytes, users := o.users - 1, vcBytes := vecJoin o.vcBytes vc }

/-- A declaration, by one more copy that names the object (R276, R281). -/
def State.declare (s : State) (c : Nat) (o : BarrierObj) (bytes : Nat) : State :=
  s.objStep c { o with expbytes := o.expbytes + BitVec.ofNat 32 bytes, users := o.users + 1 }

/-- The offset that an instruction on an object names. -/
def Wave.objOff (w : Wave) (f : M64) : Int := w.uniOff f

/-- Checks of the address of an object (R277); then `k` with its offset. -/
def State.objAt (s : State) (f : M64) (k : Nat → Act) : Act :=
  let off := s.wave.objOff f
  if wrap 64 off % 16 != 0 then .trap 5 0 (bv (wrap 64 off))
  else if off < 0 || (s.myGroup.spadLen : Int) < off + 16 then .trap 8 9 (bv (wrap 64 off))
  else k off.toNat

/-- The same for an object that must be live (R275). -/
def State.liveObj (s : State) (f : M64) (k : BarrierObj → Act) : Act :=
  s.objAt f fun off =>
    match s.findObj s.wave.core s.wave.gslot off with
    | none => .trap 0x0B 3 (bv off)
    | some o => k o

/-- An arrival that waits for its release stands in the way of the wave's later steps on objects (R276). -/
def Wave.barrWaits (w : Wave) : Bool :=
  w.outst.any fun o => match o.eff with
    | .barr _ _ _ => true
    | _ => false

/-- A step on an object at issue; it completes on k1. -/
def State.objIssue (s : State) (f : M64) (t : State) : Act :=
  if s.wave.barrWaits then s.unissued else t.outAct (some 1) (cfCounter f.cf) (.writes [])

/-- BINIT (R277). [DEDUCED, log 65] -/
def execBinit (f : M64) (s : State) : Host.Outcome State Fault Refusal :=
  ok (run (.binit f) s fun s =>
    let w := s.wave
    let c := s.myCore
    if f.aop == 1 then
      s.liveObj f fun o =>
        if o.arrcnt != 0 || o.arrbytes != 0 || o.expbytes != 0 || o.users != 0 ||
            (s.allWaves.any fun v => v.core == w.core && v.gslot == w.gslot && match v.hold with
              | .bwait off _ _ => off == o.off
              | _ => false) then .trap 0x0B 6 (bv o.off)
        else s.objIssue f (s.setCore w.core { c with objs := c.objs.filter fun p => !(p.gslot == o.gslot && p.off == o.off) })
    else
      s.objAt f fun off =>
        let n := (w.sop f.d).toNat
        if n = 0 || 65535 < n then w.illegal
        else if (s.findObj w.core w.gslot off).isSome then .trap 0x0B 2 (bv off)
        else if 64 ≤ c.objs.length then .trap 0x0B 4 (bv off)
        else
          let o : BarrierObj :=
            { gslot := w.gslot, off := off, expcnt := BitVec.ofNat 16 n, arrcnt := 0, phase := 0, expbytes := 0,
              arrbytes := 0, users := 0, vc := [], vcDone := [], vcBytes := [], vcBytesDone := [] }
          s.objIssue f ((s.setCore w.core { c with objs := c.objs ++ [o] }).putObj w.core o))

/-- Arrivals at an object, with what they release (R278). -/
def BarrierObj.arrive (o : BarrierObj) (n : Nat) (ms : List RelMsg) : BarrierObj :=
  { o with arrcnt := o.arrcnt + BitVec.ofNat 16 n, vc := ms.foldl addMsg o.vc }

/-- What a BARR of this order and scope releases (R352). -/
def Wave.barrMsgs (w : Wave) (order scope : Nat) : List RelMsg :=
  if releases order then [{ core := w.core, slot := w.slot, launch := w.launch, uid := w.uid, scope := scope, vc := w.hb, every := false }] else []

/-- BARR (R278): at its issue, or, with release order, once the wave's earlier accesses are performed. -/
def execBarr (f : M64) (s : State) : Host.Outcome State Fault Refusal :=
  ok (run (.barr f) s fun s =>
    let w := s.wave
    s.liveObj f fun o =>
      let n := (w.sop f.d).toNat
      let rel := releases f.order.toNat
      if n = 0 || 65535 < n then w.illegal
      else if (rel && !s.accessesDone s.fresh) || w.barrWaits then
        s.outAct (some 1) (cfCounter f.cf) (.barr o.off n (if rel then f.scope.toNat + 1 else 0))
      else if o.expcnt.toNat < o.arrcnt.toNat + n then .trap 0x0B 5 (bv o.off)
      else
        let t := s.objStep w.core (o.arrive n (w.barrMsgs f.order.toNat f.scope.toNat))
        (if rel then { t with wave := t.wave.tick } else t).outAct (some 1) (cfCounter f.cf) (.writes []))

/-- The step of an outstanding BARR of the wave in focus, once what comes before it is done (R278): a count too high is
reported, with the object unchanged. -/
def State.doBarr (s : State) (o : Outst) (off n scope : Nat) : State × Outst :=
  let w := s.wave
  let done : Outst := { o with eff := .writes [], wait := .ready }
  let first := !(w.outst.any fun p => decide (p.id < o.id) && match p.eff with
    | .barr _ _ _ => true
    | _ => false)
  if !first || (scope != 0 && !s.accessesDone o.id) then (s, o)
  else
    match s.findObj w.core w.gslot off with
    | none => (s.deferErr 0x0B 3 off, done)
    | some b =>
      if b.expcnt.toNat < b.arrcnt.toNat + n then (s.deferErr 0x0B 5 off, done)
      else
        let t := s.objStep w.core (b.arrive n (w.barrMsgs (if scope = 0 then 0 else 2) (scope - 1)))
        (if scope = 0 then t else { t with wave := t.wave.tick }, done)

/-- BWAIT (R279): holds until the object's PHASE has passed the phase number, and then acquires; a trap or pre-emption
withdraws the wait. [DEDUCED, log 52] -/
def execBwait (f : M64) (s : State) : Host.Outcome State Fault Refusal :=
  ok (run (.bwait f) s fun s =>
    let w := s.wave
    s.liveObj f fun o =>
      let n := (w.sop f.d).toNat % 2 ^ 16
      let acq := if acquires f.order.toNat then some f.scope.toNat else none
      if o.passed n then .wave (w.observe o n acq)
      else .stay { s with wave := { w with hold := .bwait o.off n acq, lastIssue := s.clock + 1 } })

/-- BEXP (R278). -/
def execBexp (f : M64) (s : State) : Host.Outcome State Fault Refusal :=
  ok (run (.bexp f) s fun s =>
    s.liveObj f fun o => s.objIssue f (s.objStep s.wave.core { o with expbytes := o.expbytes + s.wave.sop f.d }))

/-! ### Batched copies (R270 to R272) -/

/-- One lane of a CPA: its destination offset, source offset and valid bytes. -/
def Wave.cpaLane (w : Wave) (f : M64) (L : Nat) : LaneCopy :=
  let n := sizeBytes f
  let a : Word := if f.asc then w.sop f.a else w.vlane f.a.toNat L
  { lane := L, dst := wrap 64 (((w.vlane f.d.toNat L).toNat : Int) + f.imm.toInt), src := (a.toNat : Int),
    valid := if f.aop == 0 then n else min (w.xlane (f.aop.toNat - 8) L) n, total := n }

/-- The first fault of a CPA's lanes, in the order of R255. -/
def State.cpaFault (s : State) (t : TransReg) (n : Nat) (l : List LaneCopy) : Option Act :=
  let al := min n 16
  let w := s.wave
  let spad := s.myGroup.spadLen
  let srcOf (x : LaneCopy) : Nat := t.addr x.src
  let mis := l.findSome? fun x =>
    if x.dst % al != 0 then some (Act.trap 5 x.lane (bv x.dst))
    else if x.valid != 0 && srcOf x % al != 0 then some (Act.trap 5 x.lane (bv (srcOf x))) else none
  let far := l.findSome? fun x =>
    if x.valid != 0 && (srcOf x + x.valid - 1) / 2 ^ 52 != 0 then some (Act.trap 8 4 (bv (srcOf x))) else none
  let out := l.findSome? fun x => if spad < x.dst + n then some (Act.trap 8 9 (bv x.dst)) else none
  let perm := l.findSome? fun x =>
    if x.valid != 0 && !t.stale && t.within x.src then
      match permFail t .load, geomFail t with
      | some d, _ => some (Act.trap 8 d (bv (srcOf x)))
      | none, some d => some (Act.trap 9 d (bv (srcOf x)))
      | none, none => none
    else none
  let obj := l.findSome? fun x => (s.objIn w.core w.gslot x.dst n).map fun o => Act.trap 0x0B 1 (bv o.off)
  mis.orElse fun _ => far.orElse fun _ => out.orElse fun _ => perm.orElse fun _ => obj

/-- CPA: joins the open batch; a 17th first commits it (R270, R271). -/
def execCpa (f : M64) (s : State) : Host.Outcome State Fault Refusal :=
  ok (run (.cpa f) s fun s =>
    let w := s.wave
    let t := w.treg f.tr.toNat
    let l := w.actList.map (w.cpaLane f)
    if !t.valid then w.illegal
    else
      match s.cpaFault t (sizeBytes f) l with
      | some a => a
      | none =>
        let x : CpaCopy := { trn := f.tr.toNat, tr := t, lanes := l }
        if w.batch.length < 16 then .wave { w with batch := w.batch ++ [x] }
        else
          let s := s.commitBatch w.insAddr none 0
          .state { s with wave := { s.wave with batch := [x] } })

/-- Scratchpad bytes that a batch writes (R271). -/
def batchBytes (b : List CpaCopy) : Nat := total (b.map fun c => total (c.lanes.map fun l => l.total))

/-- CPCOMMIT, plain or reporting to a live object (R271). -/
def execCpcommit (f : K32) (s : State) : Host.Outcome State Fault Refusal :=
  ok (run (.cpcommit f) s fun s =>
    let w := s.wave
    if f.imm.getLsbD 10 then
      let off := (w.sreg f.d.toNat).toNat
      match s.findObj w.core w.gslot off with
      | none => .trap 0x0B 3 (bv off)
      | some o =>
        if w.barrWaits then s.unissued
        else
          let n := batchBytes w.batch
          .state ((s.declare w.core o n).commitBatch w.insAddr (some off) n)
    else .state (s.commitBatch w.insAddr none 0))

/-- What the engine meets in the bytes of one lane's source, in pieces of at most 16. -/
inductive Pulled where
  /-- The bytes, and the address of a poisoned unit among them. -/
  | ok (s : State) (bs : List Byte) (bad : Option Nat)
  /-- Not yet. -/
  | wait (s : State)
  /-- A generation is refused. -/
  | retry (s : State)
  /-- No translation. -/
  | fault (s : State) (va : Nat)
  /-- An error. -/
  | err (s : State) (code detail addr : Nat)

/-- Reads `n` bytes at an offset through a captured register, in pieces that do not leave a 16-byte unit. -/
def State.pull (s : State) (core : Nat) (t : TransReg) (off : Int) (n : Nat) : Nat → Pulled
  | 0 => .ok s [] none
  | fuel + 1 =>
    if n = 0 then .ok s [] none
    else
      let k := min n (16 - t.addr off % 16)
      match s.xlateReg core t off with
      | .fault s va => .fault s va
      | .err s code d va => .err s code d va
      | .at_ s x o =>
        match s.accessAt core x o k (t.addr off) How.load id with
        | .wait s => .wait s
        | .retry s => .retry s
        | .fault s va => .fault s va
        | .err s code d va => .err s code d va
        | .ok s bs bad =>
          match s.pull core t (off + k) (n - k) fuel with
          | .ok s cs bad2 => .ok s (bs ++ cs) (bad.orElse fun _ => bad2)
          | r => r

/-- The write pointer of a core's channel moves on (R271, R273). -/
def State.countChannel (s : State) (d ch n : Nat) : State :=
  let x := s.die d
  s.setDie d { x with wptr := cset x.wptr ch (cget x.wptr ch + BitVec.ofNat 64 n) }

/-- Channel of a core's batches among the 128 of its die (R271). -/
def coreChannel (core : Nat) : Nat := 16 * (core % 96 / 12) + core % 96 % 12

/-- The engine writes a lane's bytes into scratchpad, zero fill included; poison follows (R253, R271). -/
def State.placeLane (s : State) (w : Wave) (x : LaneCopy) (bs : List Byte) (bad : Bool) : State :=
  let at_ := (s.group w.core w.gslot).spadBase + x.dst
  let pa := spadPa w.core at_
  let s := (s.spadWrite w.core w.gslot x.dst (bs ++ List.replicate (x.total - bs.length) 0)).clean pa x.total
  let s := if bad then (unitsOf pa x.total).foldl State.setBad s else s
  s.countChannel (dieOf w.core) (coreChannel w.core) x.total

/-- The race check of an engine's read for the wave in focus (R365): the racing byte and detail. [DEDUCED, log 53] -/
def State.engineRace (s : State) (t : TransReg) (off : Int) (n : Nat) (wr : Bool) : Option (Nat × Nat) :=
  if n = 0 then none
  else
    match s.peek t off with
    | some (x, o) =>
      if x.rc && x.kind != 3 then
        (s.raceCheck (s.accKey x o) n wr false).map fun r => (t.addr off / 128 * 128 + r.1, r.2)
      else none
    | none => none

/-- Records an engine's access on a race-checked page. -/
def State.engineRecord (s : State) (t : TransReg) (off : Int) (n : Nat) (wr : Bool) : State :=
  if n = 0 then s
  else
    match s.peek t off with
    | some (x, o) => if x.rc && x.kind != 3 then s.raceRecord (s.accKey x o) n wr false else s
    | none => s

/-- An earlier store of the wave in focus to a source line of a copy that has not been performed (R272). -/
def State.copyWaits (s : State) (id : Nat) (t : TransReg) (x : LaneCopy) : Bool :=
  decide (0 < x.valid) &&
    !(s.ownReady s.wave id true false false (s.lineOf t x.src) &&
      s.ownReady s.wave id true false false (s.lineOf t (x.src + (x.valid - 1 : Nat))))

/-- Does a lane's destination overlap that of an earlier lane of the batch which has not been copied (R288)? -/
def LaneCopy.behind (x : LaneCopy) (earlier : List LaneCopy) : Bool := earlier.any fun y => meets x.dst x.total y.dst y.total

/-- What copying has come to: the lanes of a CPA that are left, what they wait for, the poisoned units copied. -/
structure Copying where
  left : List LaneCopy
  wait : Wait
  ecc : List Nat

/-- Copies the lanes of a CPA that can be copied; a lane that meets an error writes nothing and is reported, one that copies a
poisoned unit is noted (R272). A bound line of which the host has a copy is asked back first (R378). `before` holds the lanes of earlier CPAs of the batch that have not been copied. -/
def State.doCopy (s : State) (o : Outst) (t : TransReg) (before : List LaneCopy) (lanes : List LaneCopy) : State × Copying :=
  lanes.foldl (fun a x =>
    let (s, c) := a
    let keep (w : Wait) : Copying := { c with left := c.left ++ [x], wait := w }
    let w := s.wave
    if s.copyWaits o.id t x || x.behind (before ++ c.left) then (s, keep c.wait)
    else
      match s.spadHeldIn w.core ((s.group w.core w.gslot).spadBase + x.dst) x.total, s.engineRace t x.src x.valid false with
      | some l, _ => (s.askHost l, keep c.wait)
      | none, some (va, d) => (s.deferErr 0x0A d va, c)
      | none, none =>
        match s.pull s.wave.core t x.src x.valid 4 with
        | .ok s bs bad =>
          ((s.engineRecord t x.src x.valid false).placeLane s.wave x bs bad.isSome, { c with ecc := c.ecc ++ bad.toList })
        | .wait s => (s, keep c.wait)
        | .retry s => (s, keep (.retry (s.clock + 2600)))
        | .err s code d addr => (s.deferErr code d addr, c)
        | .fault s va =>
          let (s, tag) := s.reportFault s.wave.core va 3
          (s, keep (.fault (bv va) tag))) (s, { left := [], wait := .ready, ecc := [] })

/-- Replaces a STALE register of a copy by a fresh walk (R224). -/
def State.copyRefresh (s : State) (c : CpaCopy) : Refreshed :=
  s.refresh { trn := c.trn, tr := c.tr, nbytes := 0, lanes := [], done := [], order := 0, scope := 0, rels := [] }

/-- Performs what a committed batch of the wave in focus still has to copy (R271). [DESIGN CHOICE, log 72] -/
def State.doBatch (s : State) (o : Outst) (copies : List CpaCopy) (obj : Option Nat) (bytes : Nat) (ecc : List Nat) :
    State × Outst :=
  let (s, left, wt, ecc) := copies.foldl (fun a c =>
    let (s, left, wt, ecc) := a
    if c.lanes.isEmpty then a
    else
      match s.copyRefresh c with
      | .absent s =>
        let (s, tag) := s.reportFault s.wave.core c.tr.vbase.toNat 3
        (s, left ++ [c], Wait.fault (bv c.tr.vbase.toNat) tag, ecc)
      | .err s code d => (s.deferErr code d c.tr.vbase.toNat, left, wt, ecc)
      | .ok s m =>
        let (s, r) := s.doCopy o m.tr (left.flatMap fun x => x.lanes) c.lanes
        (s, if r.left.isEmpty then left else left ++ [{ c with tr := m.tr, lanes := r.left }],
          if r.wait = .ready then wt else r.wait, ecc ++ r.ecc)) (s, [], .ready, ecc)
  (s, { o with eff := .batch left obj bytes ecc, wait := wt, holds := true })

/-! ### Sparsity metadata and write pointers (R273, R282) -/

/-- CPSM (R282): the range in pieces of a line. -/
def execCpsm (f : M64) (s : State) : Host.Outcome State Fault Refusal :=
  ok (run (.cpsm f) s fun s =>
    let w := s.wave
    let t := w.treg f.tr.toNat
    let dst : Int := ((w.sop f.d).toNat : Int) + f.imm.toInt
    let src : Int := ((w.sop f.a).toNat : Int)
    let n := 256 * 2 ^ f.aop.toNat
    let c := w.captureOf f 128 ((List.range (n / 128)).map fun i => { lane := i, off := src + 128 * i, data := [] })
    if !t.valid then w.illegal
    else if wrap 64 dst % 256 != 0 then .trap 5 0 (bv (wrap 64 dst))
    else if dst < 0 || (16384 : Int) < dst + n then
      (if t.addr src % 256 != 0 then .trap 5 0 (bv (t.addr src))
       else if t.addr src / 2 ^ 52 != 0 then .trap 8 4 (bv (t.addr src)) else .trap 8 12 (bv (wrap 64 dst)))
    else
      memChecks w t 256 .load [(0, src)]
        (match c.lanes.find? fun la => t.addr la.off / 2 ^ 52 != 0 with
          | some la => .trap 8 4 (bv (t.addr la.off))
          | none => s.outAct (some 2) (cfCounter f.cf) (.cpsm c dst.toNat)))

/-- The side memory takes the lines of an outstanding CPSM that can be read; one whose race check fails is left as it is (R282,
R365). -/
def State.doCpsm (s : State) (o : Outst) (c : MemCap) (dst : Nat) : State × Outst :=
  let bad := (c.lanes.filter fun la => s.laneReady o.id o.eff c la).filterMap fun la => (s.engineRace c.tr la.off c.nbytes false).map fun r => (la.lane, r)
  let s := bad.foldl (fun s x => s.deferErr 0x0A x.2.2 x.2.1) s
  let c : MemCap := { c with lanes := c.lanes.filter fun la => !bad.any fun x => x.1 == la.lane }
  let (s, o2) := s.doLanes o c How.load (fun _ bs => bs) none fun c => .cpsm c dst
  match o2.eff with
  | .cpsm c dst =>
    let core := s.wave.core
    let s := c.done.foldl (fun s la =>
      let x := s.core core
      (s.setCore core { x with side := csetList x.side (dst + 128 * la.lane) la.data }).countChannel (dieOf core)
        (coreChannel core) 128) (c.done.foldl (fun s la => s.engineRecord c.tr la.off c.nbytes false) s)
    (s, { o2 with eff := .cpsm { c with done := [] } dst })
  | _ => (s, o2)

/-- CWPRD (R273). -/
def execCwprd (f : K32) (s : State) : Host.Outcome State Fault Refusal :=
  ok (run (.cwprd f) s fun s =>
    let w := s.wave
    let ch := if f.imm.getLsbD 10 then bits f.imm 6 0 else coreChannel w.core
    .wave (w.setSpair f.d.toNat (cget (s.die (dieOf w.core)).wptr ch)))

end Sys2Proof.Machine
end

