-- ==== Sys2Proof/Machine/Queue.lean ====
section
/-! DEFINITION. Task queues and the tile dispenser: accesses of the device by virtual address, host events (R46, R47),
ENQ, DEQ, the steals of Mica, and FETCHW (R33 to R47, R59 to R62, R286). -/

namespace Sys2Proof.Machine

/-! ### Steps of the device on virtual addresses -/

/-- What a step made of several accesses comes to. -/
inductive Try (α : Type) where
  /-- All performed. -/
  | ok (s : State) (a : α)
  /-- One of them waits at its home. -/
  | wait (s : State)
  /-- One of them does not translate. -/
  | fault (s : State) (va : Nat)
  /-- One of them meets an error: code, detail, address. -/
  | err (code detail addr : Nat)

/-- The next access of a step. -/
def Try.andThen {α β : Type} (x : Try α) (f : State → α → Try β) : Try β :=
  match x with
  | .ok s a => f s a
  | .wait s => .wait s
  | .fault s va => .fault s va
  | .err c d a => .err c d a

/-- One access of a device unit at a virtual address: `need` gives the PROTECTION detail of a page it refuses. The bytes
as they stood, and the storage key (R36, R437). [DESIGN CHOICE, log 131] -/
def State.vio (s : State) (core va n : Nat) (need : TransReg → Option Nat) (h : How) (f : List Byte → List Byte) :
    Try (List Byte × Nat) :=
  match s.xlate core va with
  | .fault s va => .fault s va
  | .err _ c d a => .err c d a
  | .at_ s t o =>
    match need t with
    | some d => .err 8 d va
    | none =>
      if t.kind == 3 && h.acc != .load then .fault s va
      else
        match s.accessAt core t o n va h f with
        | .ok s bs none => .ok s (bs, s.accKey t o)
        | .ok _ _ (some pa) => .err 0x11 0 pa
        | .wait s => .wait s
        | .retry s => .wait s
        | .fault s va => .fault s va
        | .err _ c d a => .err c d a

/-- READ and W, else detail 2 (R36, R286). -/
def needRW (t : TransReg) : Option Nat := if t.perm.getLsbD 0 && t.perm.getLsbD 1 then none else some 2

/-- A read of a queue's bytes. -/
def State.qread (s : State) (core va n : Nat) : Try (List Byte × Nat) := s.vio core va n needRW How.load id

/-- A write of a queue's bytes. -/
def State.qwrite (s : State) (core va : Nat) (bs : List Byte) : Try (List Byte × Nat) :=
  s.vio core va bs.length needRW How.store fun _ => bs

/-! ### Host events (R46, R47) -/

/-- The 32 bytes of an entry (R46). -/
def eventBytes (etype code die seq strm obj who lost : Nat) : List Byte :=
  toBytes etype 1 ++ toBytes code 1 ++ toBytes die 1 ++ [0] ++ toBytes seq 2 ++ toBytes strm 2 ++ toBytes obj 8 ++
    toBytes who 8 ++ toBytes lost 8

/-- Writes an entry into a ring that has room. -/
def State.putEvent (s : State) (bs : List Byte) : State :=
  let s := s.physWrite (ringSlot s.mgmt.evbase s.mgmt.evsize s.mgmt.evprod) bs
  { s with mgmt := { s.mgmt with evprod := s.mgmt.evprod + 1 } }

/-- Physical address of a stream record (R23). -/
def State.streamAt (s : State) (n : Nat) : Nat := s.mgmt.strtab.toNat + 64 * n

/-- The count of lost events of a source: OVF of a stream, or QOVF of a queue (R23, R35); none while it waits at its home. A
queue whose header cannot be reached counts what the device still has to add. [DEDUCED, log 140] -/
def State.lostCount (s : State) (src : Nat) : Option Nat :=
  if src < 16 then some (s.devNat (s.streamAt src + 44) 4)
  else
    match s.vio 0 (src - 16 + 20) 4 (fun _ => none) How.load id with
    | .ok _ a => some (ofBytes a.1)
    | .wait _ => none
    | _ => some (tget 0 s.lostDue (src - 16))

/-- Adds what is due to QOVF of a queue, once its header can be written (R47). -/
def State.payLost (s : State) (q : Nat) : State :=
  let n := tget 0 s.lostDue q
  let h : How := { acc := .store, rmw := true, pcieOp := true, helper := true }
  if n = 0 then s
  else
    match s.vio 0 (q + 20) 4 (fun _ => none) h (fun old => toBytes (ofBytes old + n) 4) with
    | .ok s _ => { s with lostDue := tdel s.lostDue q }
    | .wait t => s.asks t
    | _ => s

/-- Raises the count of lost events of a source. -/
def State.countLost (s : State) (src : Nat) : State :=
  if src < 16 then s.physWrite (s.streamAt src + 44) (toBytes (s.devNat (s.streamAt src + 44) 4 + 1) 4)
  else
    let q := src - 16
    State.payLost { s with lostDue := tset s.lostDue q (tget 0 s.lostDue q + 1) } q

/-- A host event of a source: written, or counted as lost, with a black-box record, when the ring has no room (R47). -/
def State.postEvent (s : State) (src die : Nat) (bs : List Byte) : State :=
  if ringRoom s.mgmt.evsize s.mgmt.evprod s.mgmt.evcons && s.owed.isEmpty then s.putEvent bs
  else
    let s := { s.countLost src with owed := sput s.owed src }
    s.boxRecord die (unitRecord 13 0 0 s.clock (bv src))

/-- The overflow entry owed for a source that has lost `n` events (R46, R47): DIE and SEQ are 0, and so is OBJ of a stream. [DESIGN CHOICE, log 134] -/
def overflowEntry (src n : Nat) : List Byte :=
  if src < 16 then eventBytes 4 0 0 0 src 0 0 n else eventBytes 4 0 0 0 0xFFFF (src - 16) 0 n

/-- Sources that are owed an overflow entry, streams first and rising (R47). -/
def State.owedOrder (s : State) : List Nat :=
  ((List.range 16).filter fun n => s.owed.contains n) ++ s.owed.filter fun n => 16 ≤ n

/-- Is nothing still to be added to the count of a source whose header can be reached? -/
def State.lostSettled (s : State) (src : Nat) : Bool :=
  decide (src < 16) || tget 0 s.lostDue (src - 16) == 0 ||
    match s.vio 0 (src - 16 + 20) 4 (fun _ => none) How.store id with
    | .ok _ _ => false
    | .wait _ => false
    | _ => true

/-- Writes the overflow entries that are owed while the ring has room, in order: one whose count waits at its home keeps those
after it back (R47). -/
def State.payOwed (s : State) : State :=
  (s.owedOrder.foldl (fun (a : State × Bool) src =>
    let s := a.1
    if a.2 && ringRoom s.mgmt.evsize s.mgmt.evprod s.mgmt.evcons && s.lostSettled src then
      match s.lostCount src with
      | some n =>
        let s := s.putEvent (overflowEntry src n)
        ({ s with owed := sdel s.owed src }, true)
      | none => (s, false)
    else (s, false)) (s, true)).1

/-! ### Queue headers and entries (R35 to R37) -/

/-- A queue header as read: its 320 bytes. -/
structure QHead where
  bytes : List Byte
  deriving DecidableEq, Repr

/-- The number in bytes `i` to `i + n - 1`. -/
def QHead.num (h : QHead) (i n : Nat) : Nat := ofBytes ((h.bytes.drop i).take n)
def QHead.log2n (h : QHead) : Nat := h.num 0 8 % 32
def QHead.kind (h : QHead) : Nat := h.num 0 8 / 256 % 4
def QHead.close (h : QHead) : Bool := nbit (h.num 0 8) 10
def QHead.ebase (h : QHead) : Nat := h.num 8 8
def QHead.qerr (h : QHead) : Nat := h.num 16 1
/-- HEAD, TAIL and RSVMASK of shard `d`. -/
def QHead.head (h : QHead) (d : Nat) : Nat := h.num (64 + 64 * d) 8
def QHead.tail (h : QHead) (d : Nat) : Nat := h.num (72 + 64 * d) 8
def QHead.mask (h : QHead) (d : Nat) : Nat := h.num (80 + 64 * d) 1
/-- Entries of a shard, and of its general ring (R36). -/
def QHead.shard (h : QHead) : Nat := 2 ^ (h.log2n - 2)
def QHead.ring (h : QHead) : Nat := h.shard - 8
/-- The unstarted count of a shard (R59). -/
def QHead.count (h : QHead) (d : Nat) : Nat := h.tail d - h.head d
/-- Is a shard empty: no reserved entry, none in its ring? -/
def QHead.empty (h : QHead) (d : Nat) : Bool := h.mask d == 0 && h.count d == 0
/-- Address of slot `i` of shard `d` (R36). -/
def QHead.slot (h : QHead) (d i : Nat) : Nat := h.ebase + 32 * (d * h.shard + i)

/-- A valid header (R35). -/
def QHead.valid (h : QHead) : Bool :=
  h.num 0 8 / 2 ^ 11 == 0 && h.num 0 8 / 32 % 8 == 0 && decide (h.kind ≤ 1) && decide (6 ≤ h.log2n) &&
    decide (h.log2n ≤ 16) && h.ebase % 256 == 0 && h.num 17 3 == 0 && h.num 24 40 == 0 &&
    (List.range 4).all fun d => h.num (81 + 64 * d) 47 == 0

/-- Reads a header, line by line in 64-byte parts. -/
def State.qhead (s : State) (core q : Nat) : Try QHead :=
  (List.range 5).foldl (fun x i =>
    x.andThen fun s h => (s.qread core (q + 64 * i) 64).andThen fun s a => .ok s { bytes := h.bytes ++ a.1 })
    (.ok s { bytes := [] })

/-- What a step on a queue comes to. -/
inductive QOut where
  /-- The entry has been stored. -/
  | stored
  /-- These eight words have been taken. -/
  | took (ws : List Word)
  /-- Closed and empty (R39). -/
  | closed
  /-- It waits. -/
  | wait
  /-- QUEUE with this code (R44). -/
  | fail (code : Nat)

/-- The first error of a queue halts it: QERR is written, and a host event (R45). -/
def State.latch (s : State) (q code : Nat) : Try QOut :=
  let w := s.wave
  (s.qwrite w.core (q + 16) (toBytes code 1)).andThen fun s _ =>
    .ok (s.postEvent (16 + q) (dieOf w.core)
      (eventBytes 3 code (dieOf w.core) 0 0xFFFF q (w.core + 65536 * w.slot) 0)) (.fail code)

/-- An entry's word 0 as ENQ writes it (R37, R38). -/
def entryWord0 (w0 : Word) (depth rsv : Nat) : Word :=
  BitVec.ofNat 32 (bits w0 23 16 * 65536 + rsv * 4096 + depth * 256 + bits w0 7 0)

/-- Bytes of eight words. -/
def entryBytes (ws : List Word) : List Byte := ws.flatMap fun x => toBytes x.toNat 4

/-- Stores an entry of the wave in focus into its die's shard (R38); what the ENQ releases stands at the entry (R43). -/
def State.placeEntry (s : State) (q : Nat) (h : QHead) (ws : List Word) : Try QOut :=
  let w := s.wave
  let d := dieOf w.core
  let depth := w.qdepth.toNat + 1
  let put (slot rsv : Nat) (at_ : Nat) (bs : List Byte) : Try QOut :=
    (s.qwrite w.core (h.slot d slot) (entryBytes (entryWord0 (ws.headD 0) depth rsv :: ws.drop 1))).andThen fun s a =>
      (s.qwrite w.core at_ bs).andThen fun s _ =>
        let s := s.writeRel a.2 32 false [(4, w.hb)]
        .ok { s with wave := s.wave.tick } .stored
  if h.count d < h.ring then put (8 + h.tail d % h.ring) 0 (q + 72 + 64 * d) (toBytes (h.tail d + 1) 8)
  else if !nbit (h.mask d) (depth - 1) then
    put (depth - 1) depth (q + 80 + 64 * d) (toBytes (h.mask d + 2 ^ (depth - 1)) 1)
  else .ok s .wait

/-- One ENQ of the wave in focus: the checks in their order, then the store (R38, R45). -/
def State.enqStep (s : State) (q : Nat) (ws : List Word) : Try QOut :=
  (s.qhead s.wave.core q).andThen fun s h =>
    let w0 := ws.headD 0
    if h.qerr != 0 then .ok s (.fail 0x14)
    else if !h.valid then s.latch q 0x10
    else if 8 ≤ s.wave.qdepth.toNat then s.latch q 0x11
    else if bits w0 7 0 ≤ 1 || bits w0 31 24 != 0 || h.kind == 1 then s.latch q 0x12
    else s.placeEntry q h ws

/-- May an entry be delivered from a slot of this RSV (R39)? -/
def entryGood (w0 : Word) (rsv : Nat) : Bool :=
  bits w0 7 0 != 0 && decide (bits w0 11 8 ≤ 8) && bits w0 15 12 == rsv

/-- The wave in focus acquires what has been released at a virtual address (R352). -/
def State.acqVa (s : State) (va n scope : Nat) : State :=
  match s.peek TransReg.reset va with
  | some (t, o) => s.readRel (s.accKey t o) n 1 scope
  | none => s

/-- Takes the entry of a slot of shard `d` for the wave in focus, then writes `bs` at `at_`; from a bucket it acquires TAIL,
which the host raised (R39, R43, R352). -/
def State.takeSlot (s : State) (q : Nat) (h : QHead) (d slot rsv at_ : Nat) (bs : List Byte) : Try QOut :=
  let core := s.wave.core
  (s.qread core (h.slot d slot) 32).andThen fun s a =>
    let ws := wordsOf a.1
    if !entryGood (ws.headD 0) rsv then s.latch q 0x13
    else
      (s.qwrite core at_ bs).andThen fun s _ =>
        let s := s.readRel a.2 32 1 (if h.kind == 1 then 5 else 4)
        .ok (if h.kind == 1 then s.acqVa (q + 72 + 64 * d) 8 5 else s) (.took ws)

/-- One DEQ of the wave in focus on its die's shard (R39, R45). -/
def State.deqStep (s : State) (q : Nat) : Try QOut :=
  (s.qhead s.wave.core q).andThen fun s h =>
    let d := dieOf s.wave.core
    if h.qerr != 0 then .ok s (.fail 0x14)
    else if !h.valid then s.latch q 0x10
    else
      match highBit (BitVec.ofNat 8 (h.mask d)) with
      | some j => s.takeSlot q h d j (j + 1) (q + 80 + 64 * d) (toBytes (h.mask d - 2 ^ j) 1)
      | none =>
        if h.count d != 0 then
          s.takeSlot q h d (8 + h.head d % h.ring) 0 (q + 64 + 64 * d) (toBytes (h.head d + 1) 8)
        else if h.close && (List.range 4).all h.empty then .ok s .closed
        else .ok s .wait

/-! ### Waiters (R40) -/

/-- The order of a wave that waits with ENQ on a queue, by shard. -/
def Wave.enqSince (w : Wave) (q : DWord) : Option Nat :=
  match w.hold with
  | .enq p n _ => if p = q then some n else none
  | _ => none

/-- The order of a wave that waits with DEQ on a queue. -/
def Wave.deqSince (w : Wave) (q : DWord) : Option Nat :=
  match w.hold with
  | .deq p n _ => if p = q then some n else none
  | _ => none

/-- The waves for which `f` gives an order, oldest first: core and slot. -/
def State.waiters (s : State) (f : Wave → Option Nat) : List (Nat × Nat) :=
  let l := s.allWaves.filterMap fun w => (f w).map fun n => (n, w.core, w.slot)
  (l.foldl (fun a x => (a.filter fun y => y.1 < x.1) ++ [x] ++ a.filter fun y => ¬ y.1 < x.1) []).map (·.2)

/-- The ENQs that wait on a shard. -/
def State.enqWaiters (s : State) (q : DWord) (d : Nat) : List (Nat × Nat) :=
  (s.waiters fun w => w.enqSince q).filter fun x => dieOf x.1 == d

/-- The DEQs that wait on a die. -/
def State.deqWaiters (s : State) (q : DWord) (d : Nat) : List (Nat × Nat) :=
  (s.waiters fun w => w.deqSince q).filter fun x => dieOf x.1 == d

/-- The instruction of the wave in focus is past: it moves on (R40). -/
def State.pass (s : State) : State :=
  { s with wave := { (s.wave.advance 8 s.clock) with hold := .none, lastIssue := s.wave.lastIssue } }

/-- What a DEQ writes: the words from s[D] on, QDEPTH, scc (R39, R286). -/
def deqWrites (d : Nat) (ws : List Word) : List WaveWrite :=
  (ws.zipIdx.map fun x => .sreg (d + x.2) x.1) ++
    [.scc true, .special 10 (BitVec.ofNat 64 (bits (ws.headD 0) 11 8))]

/-- The wave in focus with a step on a queue done, for a wave that was held: it moves on, traps, or stays. A translation fault of
the entry takes it off the queue's waiters; once the page is mapped its instruction issues again, as the newest. [DESIGN CHOICE, log 133] -/
def State.qfinish (s : State) (q : DWord) (d : Nat) (r : Try QOut) : State :=
  match r with
  | .ok t .stored => t.pass
  | .ok t (.took ws) => State.pass (t.give (deqWrites d ws))
  | .ok t .closed => State.pass { t with wave := { t.wave with scc := false } }
  | .ok _ .wait => s
  | .ok t (.fail code) => t.faultAt 0x12 code q
  | .wait t => s.asks t
  | .fault t va => State.holdFault { s with faults := t.faults, nextTag := t.nextTag } va 7
  | .err c dt a => s.faultAt c dt (bv a)

/-- A waiting ENQ or DEQ of a wave is tried (R40). -/
def State.serve (s : State) (core slot : Nat) : State :=
  let s := s.focus core slot
  match s.wave.hold with
  | .enq q _ ws => s.qfinish q 0 (s.enqStep q.toNat ws)
  | .deq q _ d => s.qfinish q d (s.deqStep q.toNat)
  | _ => s

/-! ### Steals (R59 to R61) -/

/-- What the queue unit keeps of a queue. [DEDUCED, log 108] -/
def State.qunit (s : State) (q : DWord) : QueueUnit :=
  tget { rotor := 0, locked := [], parked := [], mirror := [] } s.queues q.toNat

/-- Replaces it. -/
def State.setQunit (s : State) (q : DWord) (x : QueueUnit) : State := { s with queues := tset s.queues q.toNat x }

/-- The victim by counts and rotor (R60). -/
def victimOf (counts : List Nat) (thief : Nat) (rotor : BitVec 2) : Option Nat :=
  (List.range 4).foldl (fun best k =>
    let v := (rotor.toNat + k) % 4
    let c := counts.getD v 0
    if v == thief || c < 2 then best
    else
      match best with
      | none => some v
      | some b => if counts.getD b 0 < c then some v else best) none

/-- The tail entry of a victim's ring goes to the wave in focus (R60). -/
def State.stealFrom (s : State) (q : Nat) (h : QHead) (v : Nat) : Try QOut :=
  let p := (h.tail v + 2 ^ 64 - 1) % 2 ^ 64
  s.takeSlot q h v (8 + p % h.ring) 0 (q + 72 + 64 * v) (toBytes p 8)

/-- Is a die idle for a queue: a DEQ waits on it, its shard empty (R59)? -/
def State.idleFor (s : State) (q : DWord) (h : QHead) (d : Nat) : Bool :=
  !(s.deqWaiters q d).isEmpty && h.empty d

/-- A steal attempt of a die for its oldest waiting DEQ; `locked` at the arbiter (R61). The mirror of an optimistic attempt
is the counts as they are, or as an earlier attempt saw them. [DESIGN CHOICE, log 109] -/
def State.steal (s : State) (q : DWord) (d : Nat) (locked : Bool) : State :=
  match s.deqWaiters q d with
  | [] => s
  | (core, slot) :: _ =>
    let s := s.focus core slot
    match s.qhead core q.toNat with
    | .ok t h =>
      let u := s.qunit q
      if h.qerr != 0 || !h.valid || !h.empty d || u.parked.contains d || u.locked.contains d != locked then s
      else
        let now := (List.range 4).map h.count
        let seen := if !locked && u.mirror.length == 4 && u.mirror != now && !Config.keep s.fresh then u.mirror else now
        let failed : State :=
          let lk := if locked then sdel u.locked d else sput u.locked d
          let pk := if locked then sput u.parked d else u.parked
          s.bump.setQunit q { u with mirror := now, locked := lk, parked := pk }
        match victimOf seen d u.rotor with
        | none => failed
        | some v =>
          if h.count v < 2 then failed
          else
            let dd := match s.wave.hold with
              | .deq _ _ n => n
              | _ => 0
            match t.stealFrom q.toNat h v with
            | .ok t (.took ws) =>
              (s.qfinish q dd (.ok t (.took ws))).bump.setQunit q
                { u with mirror := now, rotor := u.rotor + 1, locked := sdel u.locked d }
            | r => s.qfinish q dd r
    | .wait t => s.asks t
    | _ => s

/-- After an ENQ or a fill every die may attempt again (R59). -/
def State.unpark (s : State) (q : DWord) : State :=
  if (s.qunit q).parked.isEmpty then s else s.setQunit q { s.qunit q with parked := [] }

/-! ### The instructions (R34, R38, R39, R286) -/

/-- The header address of ENQ and DEQ: its checks, then `k` (R286). -/
def State.queueAt (s : State) (f : M64) (k : DWord → Act) : Act :=
  let w := s.wave
  let t := w.treg f.tr.toNat
  let off := w.uniOff f
  let va := t.addr off
  if !t.valid then w.illegal
  else if va % 64 != 0 then .trap 5 0 (bv va)
  else if va / 2 ^ 52 != 0 then .trap 8 4 (bv va)
  else
    match s.unitPage t off fun x => (needRW x).map fun d => (8, d) with
    | .act a => a
    | .page _ _ _ => k (bv va)

/-- The outcome of ENQ or DEQ at its issue. -/
def State.queueAct (s : State) (q : DWord) (d : Nat) (hold : Hold) (r : Try QOut) : Act :=
  match r with
  | .ok t .stored => .state (t.unpark q)
  | .ok t (.took ws) => .state (t.give (deqWrites d ws))
  | .ok t .closed => .state (t.give [.scc false])
  | .ok _ .wait => .stay { s.bump with wave := { s.wave with hold := hold, lastIssue := s.clock + 1 } }
  | .ok t (.fail code) => .trapIn t 0x12 code q
  | .wait t => (s.asks t).hold
  | .fault t va => .stay (State.holdFault { s with faults := t.faults, nextTag := t.nextTag } va 7)
  | .err c dt a => .trap c dt (bv a)

/-- ENQ: a release at module scope, behind the ENQs that wait on its shard (R38, R40). -/
def execEnq (f : M64) (s : State) : Host.Outcome State Fault Refusal :=
  ok (run (.enq f) s fun s =>
    s.queueAt f fun q =>
      let w := s.wave
      let ws := (List.range 8).map fun i => w.sreg (f.d.toNat + i)
      if !s.accessesDone s.fresh then s.hold
      else
        let hold : Hold := .enq q s.fresh ws
        if (s.enqWaiters q (dieOf w.core)).isEmpty then s.queueAct q 0 hold (s.enqStep q.toNat ws)
        else .stay { s.bump with wave := { w with hold := hold, lastIssue := s.clock + 1 } })

/-- DEQ: behind the DEQs that wait on its die (R39, R40). -/
def execDeq (f : M64) (s : State) : Host.Outcome State Fault Refusal :=
  ok (run (.deq f) s fun s =>
    s.queueAt f fun q =>
      let w := s.wave
      let hold : Hold := .deq q s.fresh f.d.toNat
      if (s.deqWaiters q (dieOf w.core)).isEmpty then s.queueAct q f.d.toNat hold (s.deqStep q.toNat)
      else .stay { s.bump with wave := { w with hold := hold, lastIssue := s.clock + 1 } })

/-- The coordinates of a linear index, packed at their fields' offsets: field 0 varies fastest (R19, R34). -/
def packIndex (i : Nat) : List Nat → List Nat → Nat
  | w :: ws, e :: es =>
    if w = 0 then 0
    else
      let x := if e = 0 then 2 ^ 32 else e
      i % x + 2 ^ w * packIndex (i / x) ws es
  | _, _ => 0

/-- Number of bits that the fields cover (R18). -/
def fieldBits (l : List Nat) : Nat := total l

/-- FETCHW (R34, R286). -/
def execFetchw (f : K32) (s : State) : Host.Outcome State Fault Refusal :=
  ok (run (.fetchw f) s fun s =>
    let w := s.wave
    let la := s.myLaunch
    if la.disp.isNone then .trap 0x12 0x15 0
    else if la.dispNext < la.dispN then
      let i := la.dispNext
      let keepMask := bv (2 ^ 64 - 2 ^ fieldBits la.widfmt)
      let wid := la.widbase &&& keepMask ||| bv (packIndex i la.widfmt la.ext)
      let t := s.setLaunch w.launch { la with dispNext := i + 1 }
      .state { t with wave := { (w.setS f.d.toNat (BitVec.ofNat 32 i)) with wid := wid, scc := true } }
    else .wave { w with scc := false })

end Sys2Proof.Machine
end

