-- ==== Sys2Proof/Machine/Tensor.lean ====
section
/-! DEFINITION. Tensors: format codes, descriptors, where an element and its scale record lie, packing (R166 to R172),
tiles as bytes (R291), and the accesses that engines make for a wave (R296, R365). -/

namespace Sys2Proof.Machine

/-! ### Format codes (R166 to R170) -/

/-- Bits of an element; T5, five trits to a byte, gives 0. -/
def fmtBits (f : Nat) : Nat :=
  match f with
  | 0x00 => 64
  | 0x01 => 32
  | 0x02 => 32
  | 0x03 => 16
  | 0x04 => 16
  | 0x05 => 8
  | 0x06 => 8
  | 0x07 => 6
  | 0x08 => 6
  | 0x09 => 4
  | 0x0A => 16
  | 0x0B => 8
  | 0x0C => 8
  | 0x0D => 4
  | 0x0E => 4
  | 0x0F => 2
  | 0x10 => 0
  | 0x11 => 1
  | 0x12 => 8
  | 0x13 => 8
  | 0x14 => 6
  | 0x15 => 6
  | 0x16 => 4
  | 0x17 => 8
  | 0x18 => 4
  | 0x19 => 4
  | 0x1A => 2
  | _ => 8

/-- Is it a scaled format (R170)? -/
def fmtScaled (f : Nat) : Bool := 0x12 ≤ f

/-- Elements per scale record; 1 where a record serves a whole row, or there is none (R170). -/
def fmtBlock (f : Nat) : Nat :=
  match f with
  | 0x18 => 16
  | 0x1A => 64
  | 0x1B => 1
  | _ => if fmtScaled f then 32 else 1

/-- Bytes of a scale record; 0 where there is none (R170). -/
def fmtRecord (f : Nat) : Nat :=
  match f with
  | 0x19 => 4
  | 0x1A => 2
  | 0x1B => 4
  | _ => if fmtScaled f then 1 else 0

/-- Elements that an origin must be a multiple of (R280, R299): a scale block, the elements of a byte, a group of four. -/
def fmtAlign (f : Nat) : Nat :=
  if fmtScaled f && fmtBlock f != 1 then fmtBlock f
  else
    match fmtBits f with
    | 0 => 5
    | 1 => 8
    | 2 => 4
    | 4 => 2
    | 6 => 4
    | _ => 1

/-- The feature that gates a format (R166). -/
def fmtFeature (f : Nat) : Option Nat :=
  if f == 0 then some 0 else if f == 0x0F || f == 0x10 || f == 0x1A then some 1 else none

/-- Packed bytes of a row of `n` elements (R169). -/
def rowBytes (f n : Nat) : Nat :=
  match fmtBits f with
  | 0 => (n + 4) / 5
  | 6 => 3 * ((n + 3) / 4)
  | b => (n * b + 7) / 8

/-- Rounded up to a multiple of 16. -/
def up16 (n : Nat) : Nat := (n + 15) / 16 * 16

/-- Raw element `i` of the row whose bytes `get` gives (R169); of an FP19 container the bits above its 19 count as 0 (R167). -/
def rawAt (get : Nat → Byte) (f i : Nat) : Nat :=
  match fmtBits f with
  | 0 => (get (i / 5)).toNat / 3 ^ (i % 5) % 3
  | b =>
    let lo := i * b / 8
    let n := (i * b + b - 1) / 8 - lo + 1
    ofBytes ((List.range n).map fun j => get (lo + j)) / 2 ^ (i * b % 8) % 2 ^ (if f = 2 then 19 else b)

/-- The element that stands for nothing: all bits 0, in T5 the digit 1 (R299). -/
def zeroRaw (f : Nat) : Nat := if fmtBits f = 0 then 1 else 0

/-- Is the byte or code of an element reserved (R168)? `get` gives the row's bytes. -/
def reservedAt (get : Nat → Byte) (f i : Nat) : Bool :=
  if f == 0x10 then decide (243 ≤ (get (i / 5)).toNat) else (f == 0x0F || f == 0x1A) && rawAt get f i == 2

/-- The element value of an integer, ternary or binary format (R168). -/
def intElem (f x : Nat) : Int :=
  match f with
  | 0x0A => sgn 16 x
  | 0x0B => sgn 8 x
  | 0x0C => (x : Int)
  | 0x0D => sgn 4 x
  | 0x0E => (x : Int)
  | 0x0F => if x = 1 then 1 else if x = 3 then -1 else 0
  | 0x10 => (x : Int) - 1
  | 0x11 => if x = 0 then 1 else -1
  | 0x17 => sgn 8 x
  | 0x19 => sgn 4 x
  | 0x1A => if x = 1 then 1 else if x = 3 then -1 else 0
  | _ => sgn 8 x

/-- The floating-point format of the elements of a code, if it is one (R167, R170). -/
def elemFmt (f : Nat) : Option Fmt :=
  match f with
  | 0x00 => some fp64
  | 0x01 => some fp32
  | 0x02 => some fp19
  | 0x03 => some bf16
  | 0x04 => some fp16
  | 0x05 => some fp8e4
  | 0x06 => some fp8e5
  | 0x07 => some fp6e3
  | 0x08 => some fp6e2
  | 0x09 => some fp4
  | 0x12 => some fp8e4
  | 0x13 => some fp8e5
  | 0x14 => some fp6e3
  | 0x15 => some fp6e2
  | 0x16 => some fp4
  | 0x18 => some fp4
  | _ => none

/-- The exact value of an element without its scale; the bits of FP19 above its 19 are ignored. -/
def elemVal (f x : Nat) : FV :=
  match elemFmt f with
  | some g => g.val (if f = 2 then x % 2 ^ 19 else x)
  | none => FV.ofInt (intElem f x)

/-- The value of an E8M0 scale (R170). -/
def e8m0 (x : Nat) : FV := if x = 255 then .nan else .num false 1 ((x : Int) - 127)

/-- The exact value of an element with its scale record and TSCALE (R170). -/
def scaledVal (f x rec tscale : Nat) : FV :=
  if !fmtScaled f then elemVal f x
  else
    match f with
    | 0x17 => (FV.num (decide (intElem f x < 0)) (intElem f x).natAbs (-6)).mul (e8m0 rec)
    | 0x18 => (elemVal f x).mul ((fp8e4.val rec).mul (fp32.val tscale))
    | 0x19 => (FV.ofInt (intElem f x - sgn 4 (rec / 2 ^ 16 % 16))).mul (fp16.val (rec % 2 ^ 16))
    | 0x1A => (elemVal f x).mul (bf16.val rec)
    | 0x1B => (elemVal f x).mul (fp32.val rec)
    | _ => (elemVal f x).mul (e8m0 rec)

/-! ### Descriptors (R20, R171, R172) -/

/-- A tensor descriptor: its 64 bytes. -/
structure Desc where
  bytes : List Byte
  deriving DecidableEq, Repr

/-- The number in bytes `i` to `i + n - 1`. -/
def Desc.num (d : Desc) (i n : Nat) : Nat := ofBytes ((d.bytes.drop i).take n)
def Desc.fmt (d : Desc) : Nat := d.num 0 1
def Desc.rank (d : Desc) : Nat := d.num 1 1
def Desc.layout (d : Desc) : Nat := d.num 2 1
/-- CHK.TRL and CHK.WO. -/
def Desc.trl (d : Desc) : Bool := nbit (d.num 3 1) 0
def Desc.wo (d : Desc) : Bool := nbit (d.num 3 1) 1
def Desc.base (d : Desc) : Nat := d.num 8 8
def Desc.scale (d : Desc) : Nat := d.num 16 8
def Desc.dim (d : Desc) (k : Nat) : Nat := d.num (24 + 4 * k) 4
/-- STRIDE1 to STRIDE3. -/
def Desc.stride (d : Desc) (k : Nat) : Nat := d.num (36 + 4 * k) 4
def Desc.tscale (d : Desc) : Nat := d.num 52 4

/-- Descriptor `n` of a launch. -/
def Launch.tensor (l : Launch) (n : Nat) : Desc := { bytes := (l.desc.drop (64 * n)).take 64 }

/-- Row size, rounded up to 16 bytes (R172). -/
def Desc.rb (d : Desc) : Nat := up16 (rowBytes d.fmt (if d.layout = 1 then d.dim 1 else d.dim 0))

/-- Elements of a packed row. -/
def Desc.rowLen (d : Desc) : Nat := if d.layout = 1 then d.dim 1 else if d.layout = 2 then 32 else d.dim 0

/-- Address of the row of an element, and its place in the row (R172). -/
def Desc.at_ (d : Desc) (i : List Nat) : Nat × Nat :=
  let i0 := i.getD 0 0
  let i1 := i.getD 1 0
  let outer := i.getD 2 0 * d.stride 2 + i.getD 3 0 * d.stride 3
  match d.layout with
  | 1 => (d.base + 16 * (i0 * d.stride 1 + outer), i1)
  | 2 =>
    let rb32 := up16 (rowBytes d.fmt 32)
    (d.base + 16 * (i1 / 32 * d.stride 1 + outer) + i0 / 32 * 32 * rb32 + i1 % 32 * rb32, i0 % 32)
  | _ => (d.base + 16 * (i1 * d.stride 1 + outer), i0)

/-- Do coordinates lie within the tensor? -/
def Desc.inside (d : Desc) (i : List Int) : Bool :=
  (List.range 4).all fun k => decide (0 ≤ i.getD k 0) && decide (i.getD k 0 < (d.dim k : Nat))

/-- Address of the scale record of an element (R171). -/
def Desc.recAt (d : Desc) (i : List Nat) : Nat :=
  let o := i.getD 1 0 + d.dim 1 * (i.getD 2 0 + d.dim 2 * i.getD 3 0)
  if d.fmt = 0x1B then d.scale + 4 * o
  else d.scale + fmtRecord d.fmt * (o * (d.dim 0 / fmtBlock d.fmt) + i.getD 0 0 / fmtBlock d.fmt)

/-- Trailer conditions (R305). -/
def Desc.trailerOk (d : Desc) : Bool :=
  d.rank ≤ 2 && d.dim 2 == 1 && d.dim 3 == 1 && d.layout == 0 && decide (d.dim 1 ≤ 128) && decide (d.dim 0 ≤ 256) &&
    (d.dim 1 ≤ 1 || d.stride 1 * 16 == d.rb) && !fmtScaled d.fmt

/-- Why a descriptor is refused, as the lowest code of R15: 0x02, 0x08, 0x09, or none (R20, R166, R171, R172). -/
def Desc.refused (d : Desc) (features : BitVec 128) : Option Nat :=
  let f := d.fmt
  let one : Nat := 0x3F800000
  let sizes :=
    if d.layout = 2 then
      d.dim 0 % 32 == 0 && d.dim 1 % 32 == 0 && decide (d.dim 0 * up16 (rowBytes f 32) / 16 ≤ d.stride 1) &&
        (d.dim 2 ≤ 1 || d.dim 1 / 32 * d.stride 1 ≤ d.stride 2)
    else
      let outer := if d.layout = 1 then d.dim 0 else d.dim 1
      (outer ≤ 1 || d.rb ≤ d.stride 1 * 16) && (d.dim 2 ≤ 1 || outer * d.stride 1 ≤ d.stride 2)
  let bad :=
    0x1C ≤ f || d.rank < 1 || 4 < d.rank || 2 < d.layout || 4 ≤ d.num 3 1 || d.num 4 4 != 0 || d.num 60 4 != 0 ||
      8 ≤ d.num 56 4 || ((List.range 4).any fun k => d.rank ≤ k && d.dim k != 1) ||
      (f != 0x18 && d.tscale != one) || (!fmtScaled f && d.scale != 0) ||
      (fmtScaled f && (d.dim 0 % fmtBlock f != 0 || d.layout != 0 || d.scale == 0)) ||
      !sizes || (1 < d.dim 3 && d.stride 3 < d.dim 2 * d.stride 2)
  if bad then some 2
  else if (fmtFeature f).any fun b => !features.getLsbD b then some 8
  else if d.base % 16 != 0 || (fmtScaled f && d.scale % fmtRecord f != 0) then some 9
  else none

/-! ### Tiles as bytes (R290, R291) -/

/-- Fields of a tcfg register (R290). -/
def cfgValid (c : Word) : Bool := c.getLsbD 31
def cfgTid (c : Word) : Nat := bits c 23 16
def cfgCols (c : Word) : Nat := bits c 15 7 + 1
def cfgRows (c : Word) : Nat := bits c 6 0 + 1

/-- Bytes of a tile row, rounded up to 16; bytes of its scale records (R291). -/
def tileRow (f cols : Nat) : Nat := up16 (rowBytes f cols)
def tileRecs (f cols : Nat) : Nat := if f = 0x1B then 4 else cols / fmtBlock f * fmtRecord f

/-- Bytes a tile occupies (R291). -/
def tileSize (f rows cols : Nat) : Nat := rows * tileRow f cols + up16 (rows * tileRecs f cols)

/-- Raw element (r, c) of a tile. -/
def TileSnap.raw (t : TileSnap) (f r c : Nat) : Nat :=
  rawAt (fun j => cget t.bytes (r * tileRow f (cfgCols t.cfg) + j)) f c

/-- The scale record of element (r, c) of a tile. -/
def TileSnap.record (t : TileSnap) (f r c : Nat) : Nat :=
  let n := fmtRecord f
  let at_ := cfgRows t.cfg * tileRow f (cfgCols t.cfg) + r * tileRecs f (cfgCols t.cfg) +
    (if f = 0x1B then 0 else c / fmtBlock f * n)
  ofBytes (cgetList t.bytes at_ n)

/-- The exact value of element (r, c) of a tile (R304). -/
def TileSnap.val (t : TileSnap) (d : Desc) (r c : Nat) : FV :=
  scaledVal d.fmt (t.raw d.fmt r c) (if fmtScaled d.fmt then t.record d.fmt r c else 0) d.tscale

/-- A tile of the group of the wave in focus as it stands (R294). [DEDUCED, log 83] -/
def State.tileSnap (s : State) (t : Nat) : TileSnap :=
  let g := s.myGroup
  let base := Config.tileBytes * g.tile t
  { cfg := cget g.tcfg t, bytes := cslice s.myCore.tile base (base + Config.tileBytes) }

/-- Does a tile hold a reserved T2 code or T5 byte (R168)? -/
def TileSnap.reserved (t : TileSnap) (f : Nat) : Bool :=
  let rt := tileRow f (cfgCols t.cfg)
  (List.range (cfgRows t.cfg)).any fun r =>
    (List.range (cfgCols t.cfg)).any fun c => reservedAt (fun j => cget t.bytes (r * rt + j)) f c

/-! ### Packing (R169) -/

/-- Puts raw element `i` into a row that starts at key `at_` of a byte map. -/
def putRaw (c : Cells 8) (at_ f i x : Nat) : Cells 8 :=
  match fmtBits f with
  | 0 => cset c (at_ + i / 5) (mergeByte 17 [BitVec.ofNat 8 (i % 5), BitVec.ofNat 8 x] (cget c (at_ + i / 5)))
  | b =>
    let lo := i * b / 8
    let n := (i * b + b - 1) / 8 - lo + 1
    let old := ofBytes (cgetList c (at_ + lo) n)
    let sh := i * b % 8
    let new := old - old / 2 ^ sh % 2 ^ b * 2 ^ sh + x % 2 ^ b * 2 ^ sh
    csetList c (at_ + lo) (toBytes new n)

/-- The updates of single bytes by which raw element `i` of a row at `at_` is written. -/
def rawItems (at_ f i x : Nat) : List StoreItem :=
  match fmtBits f with
  | 0 => [{ va := at_ + i / 5, op := some 17, data := [BitVec.ofNat 8 (i % 5), BitVec.ofNat 8 x] }]
  | b =>
    let lo := i * b / 8
    let n := (i * b + b - 1) / 8 - lo + 1
    let sh := i * b % 8
    let m := (2 ^ b - 1) * 2 ^ sh
    let v := x % 2 ^ b * 2 ^ sh
    ((toBytes m n).zip (toBytes v n)).zipIdx.map fun p =>
      if p.1.1 = 0xFF then { va := at_ + lo + p.2, op := none, data := [p.1.2] }
      else { va := at_ + lo + p.2, op := some 16, data := [p.1.1, p.1.2] }

/-- The same with the padding bits or trits at the end of a row of `len` elements (R169). -/
def elemItems (at_ f i x len : Nat) : List StoreItem :=
  let cap := match fmtBits f with
    | 0 => 5 * rowBytes f len
    | b => 8 * rowBytes f len / b
  rawItems at_ f i x ++
    if i + 1 = len then ((List.range (cap - len)).flatMap fun j => rawItems at_ f (len + j) (zeroRaw f)) else []

/-- Is an aligned word written whole by single bytes? -/
def wordOf (t : Table Byte) (a : Nat) : Option (List Byte) :=
  match tfind t a, tfind t (a + 1), tfind t (a + 2), tfind t (a + 3) with
  | some b0, some b1, some b2, some b3 => some [b0, b1, b2, b3]
  | _, _, _, _ => none

/-- Joins writes of single bytes: merges that make up a whole byte become a write of it, and four bytes that make up an
aligned word a write of the word, which is indivisible (R296). -/
def joinItems (l : List StoreItem) : List StoreItem :=
  let byAddr : Table (List StoreItem) := l.foldl (fun t x => tset t x.va (tget [] t x.va ++ [x])) []
  let whole (us : List StoreItem) : Bool :=
    (us.any fun u => u.op.isNone) ||
      (us.foldl (fun m u => if u.op = some 16 then m ||| u.data.getD 0 0 else m) (0 : Byte)) == 0xFF ||
      ((List.range 5).all fun k => us.any fun u => u.op == some 17 && u.data.getD 0 0 == BitVec.ofNat 8 k)
  let final (us : List StoreItem) : Byte :=
    us.foldl (fun b u => match u.op with
      | none => u.data.headD 0
      | some n => mergeByte n u.data b) 0
  let full : Table Byte := byAddr.filterMap fun p => if whole p.2 then some (p.1, final p.2) else none
  let single (p : Nat × List StoreItem) : List StoreItem :=
    let a := p.1 - p.1 % 4
    match wordOf full a with
    | some bs => if p.1 = a then [{ va := a, op := none, data := bs }] else []
    | none =>
      match tfind full p.1 with
      | some b => [{ va := p.1, op := none, data := [b] }]
      | none => p.2
  byAddr.flatMap single

/-! ### Accesses of engines (R296, R365) -/

/-- One access of an engine for the wave in focus at a virtual address: `wo` asks for a write-once page (PROTECTION 6). Garnet's
reads are not checked (R365). -/
def State.eio (s : State) (va n : Nat) (wo : Bool) (h : How) (f : List Byte → List Byte) : Try (List Byte) :=
  let wr := h.acc != .load
  let need (t : TransReg) : Option Nat := if wo && t.kind != 1 then some 6 else none
  let m := if wr || s.wave.eng != some garnetEng then n else 0
  match s.engineRace TransReg.reset (va : Int) m wr with
  | some (a, d) => .err 0x0A d a
  | none =>
    (s.vio s.wave.core va n need h f).andThen fun s a => .ok (s.engineRecord TransReg.reset (va : Int) m wr) a.1

/-- Reads of the aligned words that hold the bytes `a` to `a + n - 1`. -/
def State.ewords (s : State) (wo : Bool) (a : Nat) : Nat → Try (List Byte)
  | 0 => .ok s []
  | n + 1 =>
    (s.eio a 4 wo How.load id).andThen fun s x => (s.ewords wo (a + 4) n).andThen fun s y => .ok s (x ++ y)

/-- Bytes `a` to `a + n - 1`, read word by word. -/
def State.eread (s : State) (wo : Bool) (a n : Nat) : Try (List Byte) :=
  if n = 0 then .ok s []
  else
    let lo := a - a % 4
    (s.ewords wo lo ((a + n - 1) / 4 + 1 - lo / 4)).andThen fun s l => .ok s ((l.drop (a - lo)).take n)

/-- Raw tensor element at coordinates inside the tensor, with whether its code is reserved. -/
def State.eelem (s : State) (d : Desc) (i : List Nat) : Try (Nat × Bool) :=
  let (row, k) := d.at_ i
  let b := fmtBits d.fmt
  let lo := if b = 0 then k / 5 else k * b / 8
  let n := if b = 0 then 1 else (k * b + b - 1) / 8 - lo + 1
  (s.eread d.wo (row + lo) n).andThen fun s l =>
    let get (j : Nat) : Byte := l.getD (j - lo) 0
    .ok s (rawAt get d.fmt k, reservedAt get d.fmt k)

/-- A read of an engine for an outstanding instruction whose race check fails leaves its element unwritten, and its wave takes
RACE at its next boundary (R365). [DEDUCED, log 150] -/
def State.unlessRace {α : Type} (s : State) (t : Try α) : Try (Option α) :=
  match t with
  | .ok s a => .ok s (some a)
  | .err 0x0A d a => .ok (s.deferErr 0x0A d a) none
  | .err c d a => .err c d a
  | .wait s => .wait s
  | .fault s va => .fault s va

/-- The same where an outstanding instruction reads; a held one takes the fault itself (R297). -/
def State.elemTry {α : Type} (s : State) (held : Bool) (t : Try α) : Try (Option α) :=
  if held then t.andThen fun s a => .ok s (some a) else s.unlessRace t

/-- Reads each coordinate of a list; one outside the tensor gives the zero element; none: left unwritten. -/
def State.eelems (s : State) (d : Desc) (held : Bool) : List (List Int) → Try (List (Option (Nat × Bool)))
  | [] => .ok s []
  | i :: l =>
    let x : Try (Option (Nat × Bool)) :=
      if d.inside i then s.elemTry held (s.eelem d (i.map Int.toNat)) else .ok s (some (zeroRaw d.fmt, false))
    x.andThen fun s e => (s.eelems d held l).andThen fun s es => .ok s (e :: es)

/-- The writes by which an element at coordinates inside the tensor takes a raw value. -/
def Desc.store (d : Desc) (i : List Nat) (x : Nat) : List StoreItem :=
  let (row, k) := d.at_ i
  elemItems row d.fmt k x d.rowLen

/-- The unit at a virtual address is marked poisoned (R253). -/
def State.poisonAt (s : State) (va : Nat) : State :=
  match s.peek TransReg.reset va with
  | some (t, o) => s.setBad (unitAt (s.accKey t o))
  | none => s

/-- Performs those writes of an engine that can be performed, in order (R296): `ready` says whether the wave's order lets a
line be written; a write that does not translate is logged while the side log has room. [DEDUCED, log 73] -/
def State.doItems (s : State) (id : Nat) (wo log : Bool) (ready : State → Nat → Bool) (items : List StoreItem) :
    State × List StoreItem × Wait :=
  items.foldl (fun a x =>
    let (s, left, wt) := a
    let keep (s : State) (wt : Wait) : State × List StoreItem × Wait := (s, left ++ [x], wt)
    if !left.isEmpty || !ready s (s.lineOf TransReg.reset x.va) then keep s wt
    else if x.op = some 18 then (s.poisonAt x.va, left, wt)
    else
      let n := if x.op.isSome then 1 else x.data.length
      let h : How := { acc := .store, rmw := x.op.isSome, pcieOp := false, helper := true }
      match s.eio x.va n wo h (writtenBytes x.op x.data) with
      | .ok s _ => (s, left, wt)
      | .wait t => keep (s.asks t) wt
      | .err c d addr => (s.deferErr c d addr, left, wt)
      | .fault t va =>
        if log then
          let c : MemCap := { trn := 0, tr := TransReg.reset, nbytes := n, lanes := [], done := [], order := 0, scope := 0, rels := [] }
          let la : LaneAcc := { lane := 0, off := x.va, data := x.data }
          match State.logLane { s with faults := t.faults } id c x.op la va va with
          | some s => (s, left, wt)
          | none => keep s wt
        else
          let (s, tag) := s.reportFault s.wave.core va 3
          keep s (.fault (bv va) tag)) (s, [], .ready)

end Sys2Proof.Machine
end

