-- ==== Sys2Proof/Machine/Tile.lean ====
section
/-! DEFINITION. Tile registers: their configuration, moving tiles between tensors, vector registers and tile registers,
the transpose and the trailer (R168, R176, R177, R289 to R305). -/

namespace Sys2Proof.Machine

/-- TILE_SHAPE with a detail (R298). -/
def tileShape (d : Nat) : Act := .trap 0x10 d 0

/-- TILE_CHECK with a detail (R177, R298), at the instruction. -/
def Wave.tileCheck (w : Wave) (d : Nat) : Act := w.trapHere 0x0F d

/-- Signed coordinates held by the pair at a scalar register (R292). -/
def Wave.origin2 (w : Wave) (n : Nat) : List Int := [(w.sreg n).toInt, (w.sreg (n + 1)).toInt]

/-- The origin of an instruction: its pair and its second pair, or 0 (R292). -/
def Wave.origin (w : Wave) (f : G64) : List Int :=
  w.origin2 f.a.toNat ++ if f.sb then w.origin2 f.b.toNat else [0, 0]

/-- Coordinates of element (r, c) of a tile or box at an origin (R291, R311). -/
def coordAt (org : List Int) (r c : Nat) : List Int :=
  [org.getD 0 0 + c, org.getD 1 0 + r, org.getD 2 0, org.getD 3 0]

/-- The pairs (r, c) of a block, row by row. -/
def cellsOf (rows cols : Nat) : List (Nat × Nat) :=
  (List.range rows).flatMap fun r => (List.range cols).map fun c => (r, c)

/-- Does an origin start on a whole byte, group or scale block (R299)? -/
def originOk (f : Nat) (org : List Int) : Bool := org.getD 0 0 % (fmtAlign f : Nat) == 0

/-- Formats whose codes a load checks (R168). -/
def ternaryFmt (f : Nat) : Bool := f == 0x0F || f == 0x10 || f == 0x1A

/-- Scale blocks of a row of a tile (R170, R291). -/
def tileBlocks (f cols : Nat) : Nat := if !fmtScaled f then 0 else if f = 0x1B then 1 else cols / fmtBlock f

/-! ### CRC-32C (R176) -/

/-- One bit of the reflected division. -/
def crcBit (x : Word) : Word := if x.getLsbD 0 then (x >>> 1) ^^^ 0x82F63B78 else x >>> 1

/-- One byte. -/
def crcByte (x : Word) (b : Byte) : Word :=
  (List.range 8).foldl (fun x _ => crcBit x) (x ^^^ BitVec.setWidth 32 b)

/-- CRC-32C of a list of bytes. -/
def crc32c (l : List Byte) : Word := l.foldl crcByte 0xFFFFFFFF ^^^ 0xFFFFFFFF

/-! ### Packed rows -/

/-- The bytes of a tile row, rounded up to 16, that hold these raw elements; padding trits of T5 are the digit 1
(R169, R299). -/
def packRow (f : Nat) (xs : List Nat) : List Byte :=
  let n := rowBytes f xs.length
  let blank : Cells 8 := if fmtBits f = 0 then csetList [] 0 (List.replicate n 121) else []
  cgetList (xs.zipIdx.foldl (fun c p => putRaw c 0 f p.2 p.1) blank) 0 (up16 n)

/-- Bytes filled up with zeros to a multiple of 16. -/
def fill16 (l : List Byte) : List Byte := l ++ List.replicate (up16 l.length - l.length) 0

/-- The bytes of a tile: its rows and its scale records (R291). -/
def tileImage (f : Nat) (rows : List (List Nat)) (recs : List (List Byte)) : List Byte :=
  rows.flatMap (packRow f) ++ fill16 recs.flatten

/-- Cuts a list into rows of `n`. -/
def rowsOf {α : Type} (n : Nat) : Nat → List α → List (List α)
  | 0, _ => []
  | r + 1, l => l.take n :: rowsOf n r (l.drop n)

/-! ### Where a tile's bytes lie in memory -/

/-- Address and bytes of an element inside the tensor (R172). -/
def Desc.span (d : Desc) (i : List Nat) : Nat × Nat :=
  let (row, k) := d.at_ i
  match fmtBits d.fmt with
  | 0 => (row + k / 5, 1)
  | b => (row + k * b / 8, (k * b + b - 1) / 8 - k * b / 8 + 1)

/-- Address of the trailer (R303, R305). -/
def Desc.trailerAt (d : Desc) : Nat := d.base + d.dim 1 * d.rb

/-- First coordinates of each scale block of a tile at an origin, row by row (R299). -/
def recCoords (f rows cols : Nat) (org : List Int) : List (List Int) :=
  (cellsOf rows (tileBlocks f cols)).map fun p => coordAt org p.1 (p.2 * fmtBlock f)

/-- Addresses whose lines a TLD reads (R299). -/
def Desc.tldAddrs (d : Desc) (cfg : Word) (org : List Int) : List Nat :=
  let els := ((cellsOf (cfgRows cfg) (cfgCols cfg)).map fun p => coordAt org p.1 p.2).filter d.inside
  let recs := (recCoords d.fmt (cfgRows cfg) (cfgCols cfg) org).filter d.inside
  let tail := if d.trl then (List.range ((d.trailerAt + 16 - d.base) / 16)).map fun i => d.base + 16 * i else []
  (els.map fun i => (d.span (i.map Int.toNat)).1) ++ (recs.map fun i => d.recAt (i.map Int.toNat)) ++ tail

/-- Has the wave in focus no earlier access that must come before instruction `id` reads or writes these addresses
(R231, R296)? -/
def State.addrsReady (s : State) (id : Nat) (wr : Bool) (vas : List Nat) : Bool :=
  vas.all fun va => s.ownReady s.wave id (!wr) wr false (s.lineOf TransReg.reset va)

/-! ### Reading a tile from memory (R299) -/

/-- Reads each scale record; one outside the tensor is all bits 0; none: left unwritten. -/
def State.erecs (s : State) (d : Desc) (held : Bool) : List (List Int) → Try (List (Option (List Byte)))
  | [] => .ok s []
  | i :: l =>
    let n := fmtRecord d.fmt
    let x : Try (Option (List Byte)) :=
      if d.inside i then s.elemTry held (s.eread d.wo (d.recAt (i.map Int.toNat)) n) else .ok s (some (List.replicate n 0))
    x.andThen fun s e => (s.erecs d held l).andThen fun s es => .ok s (e :: es)

/-- The detail of TILE_CHECK for a trailer, if it fails: CRC, TID, SHAPE in that order (R177). -/
def trailerBad (payload trailer : List Byte) (cfg : Word) : Option Nat :=
  let num (i n : Nat) : Nat := ofBytes ((trailer.drop i).take n)
  if (crc32c payload).toNat != num 8 4 then some 1
  else if cfgTid cfg != num 12 1 then some 2
  else if cfgRows cfg - 1 + (cfgCols cfg - 1) * 128 != num 14 2 then some 3
  else none

/-- The payload's trailer under CHK.TRL (R177). -/
def State.etrailer (s : State) (d : Desc) (cfg : Word) : Try (Option Nat) :=
  if !d.trl then .ok s none
  else
    (s.eread d.wo d.base (d.dim 1 * d.rb)).andThen fun s p =>
      (s.eread d.wo d.trailerAt 16).andThen fun s t => .ok s (trailerBad p t cfg)

/-- What TLD reads for tile register `t`: the tile's bytes, or the detail of TILE_CHECK (R177, R299). What a failed race check
leaves unwritten keeps its bits (R365). -/
def State.tldRead (s : State) (d : Desc) (t : Nat) (cfg : Word) (org : List Int) (held : Bool) :
    Try (List Byte × Option Nat) :=
  let rows := cfgRows cfg
  let cols := cfgCols cfg
  let cells := cellsOf rows cols
  let blocks := cellsOf rows (tileBlocks d.fmt cols)
  let old : TileSnap := { s.tileSnap t with cfg := cfg }
  (s.eelems d held (cells.map fun p => coordAt org p.1 p.2)).andThen fun s es =>
    (s.erecs d held (recCoords d.fmt rows cols org)).andThen fun s rs =>
      (s.etrailer d cfg).andThen fun s bad =>
        let codes := es.any fun e => e.any (·.2)
        let raws := (cells.zip es).map fun x => (x.2.map (·.1)).getD (old.raw d.fmt x.1.1 x.1.2)
        let recs := (blocks.zip rs).map fun x =>
          x.2.getD (toBytes (old.record d.fmt x.1.1 (x.1.2 * fmtBlock d.fmt)) (fmtRecord d.fmt))
        .ok s (tileImage d.fmt (rowsOf cols rows raws) recs, bad.orElse fun _ => if codes then some 4 else none)

/-! ### Instructions -/

/-- A tile operand and its descriptor. -/
def State.tileOf (s : State) (t : Nat) : TileSnap × Desc :=
  let x := s.tileSnap t
  (x, s.myLaunch.tensor (cfgTid x.cfg))

/-- The first poisoned unit of a tile register (R253). -/
def State.tileBad (s : State) (t : Nat) : Option Nat :=
  let (x, d) := s.tileOf t
  s.badIn (tilePa s.wave.core (Config.tileBytes * s.myGroup.tile t)) (tileSize d.fmt (cfgRows x.cfg) (cfgCols x.cfg))

/-- An instruction that reads tile registers at its issue: ECC_UNCORRECTABLE where a unit of one is poisoned (R253, R294). -/
def State.readingTiles (s : State) (ts : List Nat) (k : Act) : Act :=
  match ts.findSome? s.tileBad with
  | some u => .trap 0x11 0 (bv u)
  | none => k

/-- Is a configuration refused (R293)? -/
def cfgBad (d : Desc) (rows cols : Nat) : Bool :=
  rows < 1 || 128 < rows || cols < 1 || 512 < cols || cols % fmtBlock d.fmt != 0 ||
    decide (Config.tileBytes < tileSize d.fmt rows cols)

/-- TCFG (R293). -/
def execTcfg (f : G64) (s : State) : Host.Outcome State Fault Refusal :=
  ok (run (.tcfg f) s fun s =>
    let w := s.wave
    let d := s.myLaunch.tensor f.a.toNat
    let x := w.sop f.b
    let rows := if f.sub == 0 then f.b.toNat + 1 else bits x 15 0
    let cols := if f.sub == 0 then f.c.toNat + 256 * f.mod.toNat + 1 else bits x 31 16
    if cfgBad d rows cols then tileShape 1
    else
      .wave (w.postIn s.clock w.vlat
        [.tcfg f.d.toNat (BitVec.ofNat 32 (2 ^ 31 + f.a.toNat * 2 ^ 16 + (cols - 1) * 2 ^ 7 + (rows - 1)))]))

/-- A held instruction: performed at its issue, once the wave's earlier tile and matrix instructions have completed; it
is tested again while it must wait, and its faults are precise (R297). `detail` is that of PAGE_LOAD. [DEDUCED, log 152] -/
def State.heldTry {α : Type} (s : State) (detail : Nat) (t : Try α) (k : State → α → Act) : Act :=
  match t with
  | .ok s a => k s a
  | .wait t => (s.asks t).holdIssued
  | .fault _ va => .stay (s.holdFault va detail)
  | .err c d a => .trap c d (bv a)

/-- TLD (R299): held for a checked or ternary tensor, otherwise outstanding on k3. -/
def execTld (f : G64) (s : State) : Host.Outcome State Fault Refusal :=
  ok (run (.tld f) s fun s =>
    let w := s.wave
    let (t, d) := s.tileOf f.d.toNat
    let org := w.origin f
    if !cfgValid t.cfg then tileShape 2
    else if !originOk d.fmt org || (d.trl && org.any (· != 0)) then tileShape 6
    else if d.trl && !d.trailerOk then tileShape 8
    else if !d.trl && !ternaryFmt d.fmt then s.outAct (some 3) (cfCounter f.cf) (.tld f.d.toNat t.cfg org)
    else if w.cnt 3 != 0 || !s.addrsReady s.fresh false (d.tldAddrs t.cfg org) then s.holdIssued
    else
      s.heldTry 6 (s.tldRead d f.d.toNat t.cfg org true) fun s r =>
        match r.2 with
        | some c => s.wave.tileCheck c
        | none => .state (landAll s [.tile f.d.toNat 0 r.1]))

/-- The writes of TST: elements inside the tensor, and records of whole blocks inside it (R299). [DEDUCED, log 77] -/
def TileSnap.storeItems (t : TileSnap) (d : Desc) (org : List Int) : List StoreItem :=
  let rows := cfgRows t.cfg
  let cols := cfgCols t.cfg
  let f := d.fmt
  let els := (cellsOf rows cols).flatMap fun p =>
    let i := coordAt org p.1 p.2
    if d.inside i then d.store (i.map Int.toNat) (t.raw f p.1 p.2) else []
  let last := if f = 0x1B then cols - 1 else fmtBlock f - 1
  let recs := (cellsOf rows (tileBlocks f cols)).flatMap fun p =>
    let i := coordAt org p.1 (p.2 * fmtBlock f)
    if d.inside i && d.inside (coordAt org p.1 (p.2 * fmtBlock f + last)) then
      let a := d.recAt (i.map Int.toNat)
      (toBytes (t.record f p.1 (p.2 * fmtBlock f)) (fmtRecord f)).zipIdx.map fun q => { va := a + q.2, op := none, data := [q.1] }
    else []
  joinItems (els ++ recs)

/-- A store-type instruction issues (R232, R297): with the side log full it traps, with the address of the write. [DEDUCED, log 82] -/
def State.needLogAt (s : State) (va : Option Nat) (k : Act) : Act :=
  match va with
  | some a => if s.logRoom s.wave.core then k else .trap 7 0 (bv a)
  | none => k

/-- TST (R299). -/
def execTst (f : G64) (s : State) : Host.Outcome State Fault Refusal :=
  ok (run (.tst f) s fun s =>
    let w := s.wave
    let (t, d) := s.tileOf f.d.toNat
    let org := w.origin f
    if !cfgValid t.cfg then tileShape 2
    else if !originOk d.fmt org then tileShape 6
    else
      let items := t.storeItems d org
      s.readingTiles [f.d.toNat]
        (s.needLogAt ((items.map (·.va)).min?) (s.outAct (some 3) (cfCounter f.cf) (.stores d.wo items))))

/-- TZERO (R300). -/
def execTzero (f : G64) (s : State) : Host.Outcome State Fault Refusal :=
  ok (run (.tzero f) s fun s => s.outAct (some 3) (cfCounter f.cf) (.writes [.tileAll f.d.toNat []]))

/-- Registers that a tile row of `n` bytes takes (R301). -/
def rowRegs (n width : Nat) : Nat := (n + 4 * width - 1) / (4 * width)

/-- TMOVV: a tile row from every lane of vector registers (R301). -/
def execTmovv (f : G64) (s : State) : Host.Outcome State Fault Refusal :=
  ok (run (.tmovv f) s fun s =>
    let w := s.wave
    let (t, d) := s.tileOf f.d.toNat
    let rt := tileRow d.fmt (cfgCols t.cfg)
    let r := (w.sop f.b).toNat
    if !cfgValid t.cfg then tileShape 2
    else if cfgRows t.cfg ≤ r then tileShape 6
    else if w.vregs < f.a.toNat + rowRegs rt w.width then w.illegal
    else
      let bs := (List.range (rt / 4)).flatMap fun i =>
        toBytes (w.vlane (f.a.toNat + i / w.width) (i % w.width)).toNat 4
      w.reading ((List.range (rt / 4)).map fun i => f.a.toNat * w.width + i)
        (s.outAct (some 3) (cfCounter f.cf) (.writes [.tile f.d.toNat (r * rt) bs])))

/-- VMOVT: a tile row to the active lanes of vector registers (R301). -/
def execVmovt (f : G64) (s : State) : Host.Outcome State Fault Refusal :=
  ok (run (.vmovt f) s fun s =>
    let w := s.wave
    let (t, d) := s.tileOf f.a.toNat
    let rt := tileRow d.fmt (cfgCols t.cfg)
    let r := (w.sop f.b).toNat
    let n := rowRegs rt w.width
    if !cfgValid t.cfg then tileShape 2
    else if cfgRows t.cfg ≤ r then tileShape 6
    else if w.vregs < f.d.toNat + n then w.illegal
    else
      let word (i : Nat) : Word :=
        if 4 * i < rt then BitVec.ofNat 32 (ofBytes (cgetList t.bytes (r * rt + 4 * i) 4)) else 0
      s.readingTiles [f.a.toNat]
        (s.outAct (some 3) (cfCounter f.cf) (.writes ((List.range n).map fun j =>
          .vreg (f.d.toNat + j) w.act (w.perLane fun L => word (j * w.width + L))))))

/-- TXP: the transpose (R302). -/
def execTxp (f : G64) (s : State) : Host.Outcome State Fault Refusal :=
  ok (run (.txp f) s fun s =>
    let (x, dx) := s.tileOf f.d.toNat
    let (t, d) := s.tileOf f.a.toNat
    if !cfgValid x.cfg || !cfgValid t.cfg then tileShape 2
    else if cfgRows x.cfg != cfgCols t.cfg || cfgCols x.cfg != cfgRows t.cfg then tileShape 3
    else if fmtScaled d.fmt || dx.fmt != d.fmt then tileShape 5
    else
      let rows := (List.range (cfgRows x.cfg)).map fun r =>
        (List.range (cfgCols x.cfg)).map fun c => t.raw d.fmt c r
      s.readingTiles [f.a.toNat]
        (s.outAct (some 3) (cfCounter f.cf) (.writes [.tile f.d.toNat 0 (tileImage d.fmt rows [])])))

/-- TTRL (R303). -/
def execTtrl (f : G64) (s : State) : Host.Outcome State Fault Refusal :=
  ok (run (.ttrl f) s fun s =>
    let d := s.myLaunch.tensor f.a.toNat
    if !d.trailerOk then tileShape 8 else s.outAct (some 3) (cfCounter f.cf) (.ttrl f.d.toNat f.a.toNat))

/-! ### Performing what is outstanding -/

/-- What an outstanding engine read comes to: all of it, or nothing (R296, R297). -/
def State.engineTry {α : Type} (s : State) (o : Outst) (t : Try α) (k : State → α → State × Outst) : State × Outst :=
  match t with
  | .ok s a => k s a
  | .wait t => (s.asks t, { o with wait := .ready })
  | .fault _ va => s.outstFault o va true
  | .err c d a => s.outstErr o c d a

/-- The words of a trailer that TTRL reads, from its last `n`. -/
def State.etrail (s : State) (d : Desc) : Nat → Try (List (Option Word))
  | 0 => .ok s []
  | n + 1 =>
    (s.unlessRace (s.eread d.wo (d.trailerAt + 4 * (3 - n)) 4)).andThen fun s x =>
      (s.etrail d n).andThen fun s l => .ok s (x.map (fun bs => (wordsOf bs).getD 0 0) :: l)

/-- Performs what an outstanding TLD, TTRL, or list of writes of the wave in focus still has to do. -/
def State.doTile (s : State) (o : Outst) : State × Outst :=
  match o.eff with
  | .tld t cfg org =>
    let d := s.myLaunch.tensor (cfgTid cfg)
    if !s.addrsReady o.id false (d.tldAddrs cfg org) then (s, o)
    else
      s.engineTry o (s.tldRead d t cfg org false) fun s r =>
        (s, { o with wait := .ready, eff := .writes [.tile t 0 r.1] })
  | .ttrl v n =>
    let d := s.myLaunch.tensor n
    if !s.addrsReady o.id false [d.trailerAt] then (s, o)
    else
      s.engineTry o (s.etrail d 4) fun s ws =>
        let mask := s.wave.full &&& ~~~(lanesOf fun L => ws[L]? == some none)
        (s, { o with wait := .ready, eff := .writes [.vreg v mask ((List.range 64).map fun L => (ws.getD L none).getD 0)] })
  | .stores wo items =>
    let (s, left, wt) := s.doItems o.id wo true (fun s line => s.ownReady s.wave o.id false true false line) items
    (s, { o with wait := wt, eff := if left.isEmpty then .writes [] else .stores wo left })
  | _ => (s, o)

end Sys2Proof.Machine
end

