-- ==== Sys2Proof/Machine/Matrix.lean ====
section
/-! DEFINITION. Matrix instructions and the moves of the accumulator: products and their sums (R175), the order of a core's
matrix engine (R295), power tokens (R95), NAN_FIRST (R179, R180), and MMAX (R304 to R313). -/

namespace Sys2Proof.Machine

/-! ### Accumulator memory (R295) -/

/-- Words of an accumulator element: 2 for FP64. -/
def accWords (ty : Nat) : Nat := if ty = 2 then 2 else 1

/-- Is an accumulator address or block outside the group's memory (R295)? -/
def accBad (g : Group) (a rows cols ty : Nat) : Bool :=
  let n := cols * accWords ty
  2 ^ 15 ≤ a || (ty == 2 && a % 2 == 1) || rows < 1 || 128 < rows || cols < 1 || 256 < a % 256 + n ||
    decide (g.accLen / 4 < a + 256 * (rows - 1) + n)

/-- Physical byte of element (m, n) of a block. -/
def accByte (g : Group) (a ty m n : Nat) : Nat := g.accBase + 4 * (a + 256 * m + n * accWords ty)

/-- The bits of element (m, n) of a block of the group of the wave in focus. -/
def State.accGet (s : State) (a ty m n : Nat) : Nat :=
  ofBytes (cgetList s.myCore.acc (accByte s.myGroup a ty m n) (4 * accWords ty))

/-- Writes elements of a block; a unit that is written whole is sound (R253). -/
def State.accPut (s : State) (a ty : Nat) (l : List ((Nat × Nat) × Nat)) : State :=
  let g := s.myGroup
  let co := s.myCore
  let wrote (b : Nat) : Bool := l.any fun p =>
    let x := accPa s.wave.core (accByte g a ty p.1.1 p.1.2)
    decide (x ≤ b) && decide (b < x + 4 * accWords ty)
  let s := { s with poison := s.poison.filter fun u => !(List.range 4).all fun i => wrote (u + 4 * i) }
  s.setCore s.wave.core { co with
    acc := l.foldl (fun c p => csetList c (accByte g a ty p.1.1 p.1.2) (toBytes p.2 (4 * accWords ty))) co.acc }

/-- The poisoned unit in which an element of a block lies, if one does (R253). -/
def State.accBadAt (s : State) (a ty : Nat) (p : Nat × Nat) : Option Nat :=
  s.badIn (accPa s.wave.core (accByte s.myGroup a ty p.1 p.2)) (4 * accWords ty)

/-! ### Products and sums (R175) -/

/-- Formats that accumulate in INT32. -/
def intFmt (f : Nat) : Bool := 0x0A ≤ f && f ≤ 0x11

/-- Accumulator type of two operand formats: 0 FP32, 1 INT32, 2 FP64. -/
def accType (fa fb : Nat) : Nat := if intFmt fa && intFmt fb then 1 else if fa = 0 || fb = 0 then 2 else 0

/-- Cuts a list into k-blocks of 32. -/
def kblocks {α : Type} : Nat → List α → List (List α)
  | 0, _ => []
  | n + 1, l => if l.isEmpty then [] else l.take 32 :: kblocks n (l.drop 32)

/-- One k-block into an element: its new bits, and whether it has made a NaN from operands that hold none (R178). -/
def mmaStep (ty c : Nat) (l : List (FV × FV)) : Nat × Bool :=
  let ps := l.map fun p => p.1.mul p.2
  if ty = 1 then (wrap 32 (sgn 32 c + (FV.sum false ps).scaled 0), false)
  else
    let f := if ty = 2 then fp64 else fp32
    let r := f.round 0 (FV.sum false (f.val c :: ps))
    (r, (f.val r).isNan && !(f.val c).isNan && !(l.any fun p => p.1.isNan || p.2.isNan))

/-- Every k-block into an element: its bits, and the first k-block that made a NaN. -/
def mmaElem (ty : Nat) : List (List (FV × FV)) → Nat → Nat → Nat × Option Nat
  | [], _, c => (c, none)
  | b :: l, kb, c =>
    let (c, made) := mmaStep ty c b
    let (r, x) := mmaElem ty l (kb + 1) c
    (r, if made then some kb else x)

/-- Values of a tile, row by row. -/
def TileSnap.rows (t : TileSnap) (d : Desc) : List (List FV) :=
  (List.range (cfgRows t.cfg)).map fun r => (List.range (cfgCols t.cfg)).map fun c => t.val d r c

/-- Places of the kept values of a group of four from its metadata (R308). -/
def metaPair (row : List Byte) (g : Nat) : Nat × Nat :=
  let x := (row.getD (g / 2) 0).toNat / 16 ^ (g % 2)
  (x % 4, x / 4 % 4)

/-- The expanded row of a compressed A (R308). -/
def expandRow (row : List Byte) (kept : List FV) : List FV :=
  (List.range (kept.length / 2)).flatMap fun g =>
    let p := metaPair row g
    (List.range 4).map fun i =>
      if i = p.1 then kept.getD (2 * g) (.num false 0 0)
      else if i = p.2 then kept.getD (2 * g + 1) (.num false 0 0) else .num false 0 0

/-- Rows of A as multiplied: expanded where it is compressed. -/
def aRows (a : TileSnap) (d : Desc) (sparse : Option (List Byte)) : List (List FV) :=
  match sparse with
  | none => a.rows d
  | some bs => (a.rows d).zipIdx.map fun p =>
    let n := (2 * cfgCols a.cfg + 7) / 8
    expandRow ((bs.drop (n * p.2)).take n) p.1

/-- Result of a multiply-accumulate on the block of the wave in focus: each element with its new bits and the k-block
that made it NaN (R304). -/
def State.mmaResult (s : State) (a b : TileSnap) (sparse : Option (List Byte)) (addr : Nat) (z : Bool) :
    List ((Nat × Nat) × Nat × Option Nat) :=
  let da := s.myLaunch.tensor (cfgTid a.cfg)
  let db := s.myLaunch.tensor (cfgTid b.cfg)
  let ty := accType da.fmt db.fmt
  let ra := aRows a da sparse
  let rb := b.rows db
  (cellsOf (cfgRows a.cfg) (cfgCols b.cfg)).map fun p =>
    let col := rb.map fun r => r.getD p.2 (.num false 0 0)
    let c := if z then 0 else s.accGet addr ty p.1 p.2
    (p, mmaElem ty (kblocks (cfgRows b.cfg / 32 + 1) ((ra.getD p.1 []).zip col)) 0 c)

/-- NAN_FIRST of the matrix engine (R180). -/
def nanAddr (kb m n : Nat) : Nat := kb * 2 ^ 20 + n * 2 ^ 11 + m * 2 ^ 4 + 2

/-- The first NaN of a result: lowest k-block, then row, then column (R180). -/
def firstMade (l : List ((Nat × Nat) × Nat × Option Nat)) : Option Nat :=
  (l.foldl (fun (b : Option (Nat × Nat × Nat)) p =>
    match p.2.2, b with
    | some kb, some x => if kb < x.1 then some (kb, p.1.1, p.1.2) else b
    | some kb, none => some (kb, p.1.1, p.1.2)
    | none, _ => b) none).map fun x => nanAddr x.1 x.2.1 x.2.2

/-! ### The matrix engine (R295) -/

/-- Does the core's matrix engine perform it? -/
def Effect.engine : Effect → Bool
  | .mma _ _ _ _ _ => true
  | .mmax _ _ _ _ _ => true
  | .accld _ _ _ _ _ _ _ => true
  | .accst _ _ _ _ _ _ _ _ => true
  | .accq _ _ _ _ _ _ => true
  | .tscl _ _ _ _ _ => true
  | _ => false

/-- First word and length of the accumulator words an engine operation of a wave uses, on its core. A waiting MMAX of an odd
core may use any rows. -/
def State.engineBlock (s : State) (w : Wave) (e : Effect) : Nat × Nat :=
  let g := s.group w.core w.gslot
  let l := s.launch w.launch
  let block (a rows cols ty : Nat) : Nat × Nat := (g.accBase / 4 + a, 256 * (rows - 1) + cols * accWords ty)
  match e with
  | .mma a b _ addr _ =>
    block addr (cfgRows a.cfg) (cfgCols b.cfg) (accType (l.tensor (cfgTid a.cfg)).fmt (l.tensor (cfgTid b.cfg)).fmt)
  | .mmax _ b addr _ _ => block addr 128 (cfgCols b.cfg) 2
  | .accld _ addr _ _ rows cols ty => block addr rows cols ty
  | .accst _ addr _ _ rows cols ty _ => block addr rows cols ty
  | .accq td addr ty _ _ _ => block addr ((l.tensor td).dim 1) ((l.tensor td).dim 0) ty
  | .tscl addr rows cols _ _ => block addr rows cols 0
  | _ => (0, 0)

/-- Puts an operation behind those that issued earlier. -/
def insEngine (x : Nat × Nat × Outst) : List (Nat × Nat × Outst) → List (Nat × Nat × Outst)
  | [] => [x]
  | y :: l => if x.2.2.id < y.2.2.id then x :: y :: l else y :: insEngine x l

/-- Engine operations of a core that have not been performed, in issue order, each with its wave's core and slot. [DEDUCED, log 75] -/
def State.engineOps (s : State) (core : Nat) : List (Nat × Nat × Outst) :=
  (s.allWaves.filter fun w => w.core == core).foldl (fun l w =>
    (w.outst.filter fun o => o.eff.engine).foldl (fun l o => insEngine (w.core, w.slot, o) l) l) []

/-- Does the wave stand at an outstanding instruction that has not retired: a matrix instruction or TSCL under NANTRAP, the only
ones of class k3 that hold (R179, R297)? -/
def Wave.heldAt (w : Wave) (o : Outst) : Bool := w.hold == .outst o.id && o.cls == some 3

/-- May an outstanding instruction be tried at this clock? -/
def Outst.due (o : Outst) (clock : Nat) : Bool :=
  match o.wait with
  | .ready => true
  | .retry c => decide (c ≤ clock)
  | _ => false

/-- Takes an outstanding instruction from the wave in focus: its counters fall and its token returns (R92, R95). [DEDUCED, log 74] -/
def State.finish (s : State) (o : Outst) : State :=
  let w := s.wave
  let w := match o.cls with
    | some k => w.decK k
    | none => w
  let w := match o.cf with
    | some k => w.decK k
    | none => w
  { s with
    wave := { w with outst := w.outst.filter fun p => p.id != o.id },
    inuse := if o.token then s.inuse - 1 else s.inuse }

/-- A held instruction of the matrix engine has made a NaN: it writes nothing and its wave takes NAN_FIRST at it (R179). -/
def State.engineNan (s : State) (o : Outst) (addr : Nat) : State :=
  let t := s.finish o
  State.faultAt { t with wave := { t.wave with hold := .none } } 0x0E 0 (bv addr)

/-- The bits of a tensor element in an accumulator of the type (R311). -/
def accOf (ty f x : Nat) : Nat :=
  match ty with
  | 1 => wrap 32 (intElem f x)
  | 2 => fp64.round 0 (elemVal f x)
  | _ => fp32.round 0 (elemVal f x)

/-- The exact value of an accumulator element. -/
def accVal (ty x : Nat) : FV :=
  match ty with
  | 1 => FV.ofInt (sgn 32 x)
  | 2 => fp64.val x
  | _ => fp32.val x

/-- Width and signedness of an integer format. -/
def intWidth (f : Nat) : Nat × Bool :=
  match f with
  | 0x0A => (16, true)
  | 0x0B => (8, true)
  | 0x0C => (8, false)
  | 0x0D => (4, true)
  | _ => (4, false)

/-- Convert to a tensor's format, saturating: the raw element, and whether it saturated (R139, R140, R312). [DEDUCED, log 76] -/
def toElem (f mode r : Nat) (v : FV) : Nat × Bool :=
  match elemFmt f with
  | some g => (g.convert mode r true v, g.saturates mode r v)
  | none =>
    if f = 0x0F then
      let q := convertInt 32 true mode r v
      (ternary mode r v, decide (1 < q.natAbs))
    else
      let (n, sg) := intWidth f
      (wrap n (convertInt n sg mode r v), saturatesInt n sg mode r v)

/-- The writes of ACCST from the block as it stands; poison goes along (R253, R311). -/
def State.accstItems (s : State) (td addr : Nat) (i0 i1 : Int) (rows cols ty mode : Nat) : List StoreItem :=
  let d := s.myLaunch.tensor td
  let cells := (cellsOf rows cols).filter fun p => d.inside (coordAt [i0, i1, 0, 0] p.1 p.2)
  let at_ (p : Nat × Nat) : List Nat := (coordAt [i0, i1, 0, 0] p.1 p.2).map Int.toNat
  joinItems (cells.flatMap fun p => d.store (at_ p) (toElem d.fmt mode 0 (accVal ty (s.accGet addr ty p.1 p.2))).1) ++
    (cells.filter fun p => (s.accBadAt addr ty p).isSome).map fun p => { va := (d.span (at_ p)).1, op := some 18, data := [] }

/-- The larger of two magnitudes. -/
def maxMag (a b : FV) : FV := if a.cmp b < 0 then b else a

/-- Elements of ACCQ: each value before conversion with its conversion (R312). -/
def State.accqElems (s : State) (td addr ty mode : Nat) (scale seed : Word) : List (FV × Nat × Bool) :=
  let d := s.myLaunch.tensor td
  (cellsOf (d.dim 1) (d.dim 0)).map fun p =>
    let y := (accVal ty (s.accGet addr ty p.1 p.2)).mul (fval scale)
    (y, toElem d.fmt mode (mix32 seed (BitVec.ofNat 32 (512 * p.1 + p.2))).toNat y)

/-- The writes of ACCQ: the payload and then its trailer, by words; poison goes along (R176, R253, R312). -/
def State.accqItems (s : State) (td addr ty mode : Nat) (scale seed : Word) : List StoreItem :=
  let d := s.myLaunch.tensor td
  let es := s.accqElems td addr ty mode scale seed
  let payload := (rowsOf (d.dim 0) (d.dim 1) (es.map fun e => e.2.1)).flatMap (packRow d.fmt)
  let mx := (es.filter fun e => !e.1.isNan).foldl (fun a e => maxMag a e.1.abs) (.num false 0 0)
  let trailer := toBytes (fp32.round 0 mx) 4 ++ toBytes (es.filter fun e => e.2.2).length 4 ++
    toBytes (crc32c payload).toNat 4 ++ toBytes td 1 ++ [0] ++ toBytes (d.dim 1 - 1 + (d.dim 0 - 1) * 128) 2
  let l := payload ++ trailer
  let bad := (cellsOf (d.dim 1) (d.dim 0)).filter fun p => (s.accBadAt addr ty p).isSome
  ((List.range (l.length / 4)).map fun i => { va := d.base + 4 * i, op := none, data := (l.drop (4 * i)).take 4 }) ++
    bad.map fun p => { va := (d.span [p.2, p.1, 0, 0]).1, op := some 18, data := [] }

/-- Elements of TSCL: new bits, and whether one is a NaN made from operands that hold none (R313). -/
def State.tsclResult (s : State) (addr rows cols : Nat) (f : Word) (i2f : Bool) : List ((Nat × Nat) × Nat × Option Nat) :=
  (cellsOf rows cols).map fun p =>
    let x := accVal (if i2f then 1 else 0) (s.accGet addr 0 p.1 p.2)
    let r := fp32.round 0 (x.mul (fval f))
    (p, r, if (fp32.val r).isNan && !x.isNan && !(fval f).isNan then some 0 else none)

/-- The engine has read these elements of a block: each poisoned unit is reported (R253). -/
def State.accReports (s : State) (addr ty : Nat) (l : List (Nat × Nat)) : State :=
  (l.filterMap (s.accBadAt addr ty)).eraseDups.foldl (fun s u => s.deferErr 0x11 0 u) s

/-- A result goes into the block, unless the instruction is held and has made a NaN (R179, R313). A block that is `read` keeps
its poison, which is reported (R253). -/
def State.enginePut (s : State) (o : Outst) (addr ty : Nat) (read : Bool) (l : List ((Nat × Nat) × Nat × Option Nat)) : State :=
  match (if s.wave.heldAt o then firstMade l else none) with
  | some a => s.engineNan o a
  | none =>
    let bad := if read then (l.filterMap fun p => s.accBadAt addr ty p.1).eraseDups else []
    let s := (s.accReports addr ty (if read then l.map (·.1) else [])).accPut addr ty (l.map fun p => (p.1, p.2.1))
    (bad.foldl State.setBad s).setOutst { o with wait := .ready, eff := .writes [] }

/-- The addresses that a block of a tensor takes. -/
def Desc.blockAddrs (d : Desc) (i0 i1 : Int) (rows cols : Nat) : List Nat :=
  (((cellsOf rows cols).map fun p => coordAt [i0, i1, 0, 0] p.1 p.2).filter d.inside).map fun i => (d.span (i.map Int.toNat)).1

/-- ACCLD of the wave in focus at its turn (R311). -/
def State.doAccld (s : State) (o : Outst) (td addr : Nat) (i0 i1 : Int) (rows cols ty : Nat) : State :=
  let d := s.myLaunch.tensor td
  let l := cellsOf rows cols
  if !s.addrsReady o.id false (d.blockAddrs i0 i1 rows cols) then s
  else
    let r := s.asEngine o fun s =>
      s.engineTry o (s.eelems d false (l.map fun p => coordAt [i0, i1, 0, 0] p.1 p.2)) fun s es =>
        let s := s.accPut addr ty ((l.zip es).filterMap fun x => x.2.map fun e => (x.1, accOf ty d.fmt e.1))
        (s, { o with wait := .ready, eff := .writes [] })
    r.1.setOutst r.2

/-- Performs an engine operation of the wave in focus at its turn; one that cannot be performed leaves it outstanding. -/
def State.doEngine (s : State) (o : Outst) : State :=
  match o.eff with
  | .mma a b sp addr z =>
    let ty := accType (s.myLaunch.tensor (cfgTid a.cfg)).fmt (s.myLaunch.tensor (cfgTid b.cfg)).fmt
    s.enginePut o addr ty (!z) (s.mmaResult a b sp addr z)
  | .tscl addr rows cols f i2f => s.enginePut o addr 0 true (s.tsclResult addr rows cols f i2f)
  | .accld td addr i0 i1 rows cols ty => s.doAccld o td addr i0 i1 rows cols ty
  | .accst td addr i0 i1 rows cols ty mode =>
    (s.accReports addr ty (cellsOf rows cols)).setOutst { o with eff := .stores (s.myLaunch.tensor td).wo (s.accstItems td addr i0 i1 rows cols ty mode) }
  | .accq td addr ty mode scale seed =>
    let d := s.myLaunch.tensor td
    (s.accReports addr ty (cellsOf (d.dim 1) (d.dim 0))).setOutst { o with eff := .stores (s.myLaunch.tensor td).wo (s.accqItems td addr ty mode scale seed) }
  | _ => s

/-- Is an engine operation of a core and slot still to be performed? [DEDUCED, log 48] -/
def State.engineWaits (s : State) (c sl id : Nat) : Bool :=
  match s.findWave c sl with
  | some w => w.outst.any fun o => o.id == id && o.eff.engine
  | none => false

/-- The engine performs the first operation that can be performed; one that must wait keeps behind it only those that use
its accumulator words (R103, R295). -/
def State.engineRun (s : State) : List (Nat × Nat × Outst) → List (Nat × Nat) → State
  | [], _ => s
  | (c, sl, o) :: l, kept =>
    match s.findWave c sl with
    | none => s.engineRun l kept
    | some w =>
      let b := s.engineBlock w o.eff
      if !o.due s.clock || kept.any fun k => meets b.1 b.2 k.1 k.2 then s.engineRun l (b :: kept)
      else
        let t := (s.focus c sl).doEngine o
        if t.engineWaits c sl o.id then t.engineRun l (b :: kept) else t

/-! ### Issue -/

/-- An instruction of the matrix class issues: it takes the wave's token with it (R95). With NANTRAP it is held: it has
not retired until it completes (R179). -/
def State.issueEngine (s : State) (cf : Option Nat) (token : Bool) (e : Effect) : Act :=
  let w := s.wave
  let t := s.startOutst (some 3) cf w.insAddr false e
  let v := t.wave
  let v := { v with
    granted := if token then false else v.granted,
    outst := w.outst ++ (v.outst.drop w.outst.length).map fun o => { o with token := token } }
  if w.nanTrap then .stay { t with wave := { v with hold := .outst s.fresh, lastIssue := s.clock + 1 } }
  else .state { t with wave := v }

/-- Formats that MMA takes as a pair (R304). -/
def mmaPair (fa fb : Nat) : Bool := !ternaryFmt fa && !ternaryFmt fb && (fa == 0) == (fb == 0)

/-- The common checks of two tile operands, in the order of R298, and the accumulator block; then `k`. [DEDUCED, log 78] -/
def State.matrixChecks (s : State) (a b : TileSnap × Desc) (k' : Nat) (fmts : Bool) (addr : Nat) (k : Act) : Act :=
  if !cfgValid a.1.cfg || !cfgValid b.1.cfg then tileShape 2
  else if cfgRows b.1.cfg != k' then tileShape 3
  else if !fmts then tileShape 5
  else if accBad s.myGroup addr (cfgRows a.1.cfg) (cfgCols b.1.cfg) (accType a.2.fmt b.2.fmt) then tileShape 4
  else k

/-- MMA (R304). -/
def execMma (f : G64) (s : State) : Host.Outcome State Fault Refusal :=
  ok (run (.mma f) s fun s =>
    let a := s.tileOf f.a.toNat
    let b := s.tileOf f.b.toNat
    let addr := (s.wave.sop f.c).toNat
    if !s.wave.granted then .stay s
    else
      s.matrixChecks a b (cfgCols a.1.cfg) (mmaPair a.2.fmt b.2.fmt) addr
        (s.readingTiles [f.a.toNat, f.b.toNat] (s.issueEngine (cfCounter f.cf) true (.mma a.1 b.1 none addr (f.mod == 1)))))

/-- MMAT (R306). -/
def execMmat (f : G64) (s : State) : Host.Outcome State Fault Refusal :=
  ok (run (.mmat f) s fun s =>
    let a := s.tileOf f.a.toNat
    let b := s.tileOf f.b.toNat
    let addr := (s.wave.sop f.c).toNat
    if !s.wave.granted then .stay s
    else
      s.matrixChecks a b (cfgCols a.1.cfg) (ternaryFmt a.2.fmt && (b.2.fmt == 0x0B || b.2.fmt == 0x0C)) addr
        (if a.1.reserved a.2.fmt then s.wave.tileCheck 4
         else
           s.readingTiles [f.a.toNat, f.b.toNat]
             (s.issueEngine (cfCounter f.cf) true (.mma a.1 b.1 none addr (f.mod == 1)))))

/-- Does metadata break i0 < i1 (R308)? -/
def metaBad (bs : List Byte) (rows kept : Nat) : Bool :=
  let n := (2 * kept + 7) / 8
  (List.range rows).any fun m => (List.range (kept / 2)).any fun g =>
    let p := metaPair ((bs.drop (n * m)).take n) g
    decide (p.2 ≤ p.1)

/-- MMAS (R307, R308). -/
def execMmas (f : G64) (s : State) : Host.Outcome State Fault Refusal :=
  ok (run (.mmas f) s fun s =>
    let a := s.tileOf f.a.toNat
    let b := s.tileOf f.b.toNat
    let addr := (s.wave.sreg f.c.toNat).toNat
    let off := (s.wave.sreg (f.c.toNat + 1)).toNat
    let kept := cfgCols a.1.cfg
    let rows := cfgRows a.1.cfg
    let n := rows * ((2 * kept + 7) / 8)
    let fmts := mmaPair a.2.fmt b.2.fmt && !fmtScaled a.2.fmt && !fmtScaled b.2.fmt
    if !s.wave.granted then .stay s
    else if cfgValid a.1.cfg && cfgValid b.1.cfg && kept % 2 != 0 then tileShape 3
    else
      s.matrixChecks a b (2 * kept) fmts addr
        (if Config.sideBytes < off + n then .trap 8 12 (bv off)
         else
           let bs := cgetList s.myCore.side off n
           if metaBad bs rows kept then s.wave.tileCheck 5
           else
             match s.badIn (sidePa s.wave.core off) n with
             | some u => .trap 0x11 0 (bv u)
             | none =>
               s.readingTiles [f.a.toNat, f.b.toNat]
                 (s.issueEngine (cfCounter f.cf) true (.mma a.1 b.1 (some bs) addr (f.mod == 1)))))

/-! ### MMAX (R309, R310) -/

/-- Number of a joined MMAX that an effect waits with. -/
def Effect.joint : Effect → Option Nat
  | .mmax _ _ _ _ j => some j
  | _ => Option.none

/-- The waiting MMAX of number `j` in a cluster of a launch: core, slot, and the instruction. -/
def State.partners (s : State) (l cluster j : Nat) : List (Nat × Nat × Outst) :=
  (s.allWaves.filter fun w => w.launch == l && !w.priv && w.core / 4 == cluster).flatMap fun w =>
    (w.outst.filter fun o => o.eff.joint == some j).map fun o => (w.core, w.slot, o)

/-- Replaces an outstanding instruction of a core and slot. -/
def State.putOutst (s : State) (c sl : Nat) (o : Outst) : State :=
  s.mapWave c sl fun w => { w with outst := w.outst.map fun p => if p.id == o.id then o else p }

/-- A joined MMAX has failed: every issued partner completes with nothing written, and its wave takes TILE_SHAPE 7 at its
next boundary (R310). -/
def State.failJoint (s : State) (l cluster j : Nat) : State :=
  let la := s.launch l
  let s := s.setLaunch l { la with mmaxBad := la.mmaxBad ++ [(cluster, j)] }
  (s.partners l cluster j).foldl (fun s p =>
    (s.putOutst p.1 p.2.1 { p.2.2 with eff := .writes [] }).report p.1 p.2.1 { code := 0x10, detail := 7, addr := 0 }) s

/-- The A tile of a pair: that of its even core. -/
def pairTile (ps : List (Nat × Nat × Outst)) (core : Nat) : Option TileSnap :=
  (ps.find? fun p => p.1 == core / 2 * 2).bind fun p =>
    match p.2.2.eff with
    | .mmax a _ _ _ _ => a
    | _ => none

/-- The effect of one partner once all four have issued, if its operands agree. [DEDUCED, log 80] -/
def State.jointOf (s : State) (ps : List (Nat × Nat × Outst)) (p : Nat × Nat × Outst) : Option Effect :=
  match p.2.2.eff, pairTile ps p.1, s.findWave p.1 p.2.1 with
  | .mmax _ b addr z _, some a, some w =>
    let l := s.launch w.launch
    let fa := (l.tensor (cfgTid a.cfg)).fmt
    let fb := (l.tensor (cfgTid b.cfg)).fmt
    if cfgRows b.cfg != cfgCols a.cfg || !mmaPair fa fb ||
        accBad (s.group w.core w.gslot) addr (cfgRows a.cfg) (cfgCols b.cfg) (accType fa fb) then none
    else some (.mma a b none addr z)
  | _, _, _ => none

/-- Joins the four partners of a number once all have issued. -/
def State.join (s : State) (l cluster j : Nat) : State :=
  let ps := s.partners l cluster j
  if ps.length < 4 then s
  else if ps.all fun p => (s.jointOf ps p).isSome then
    ps.foldl (fun t p =>
      match s.jointOf ps p with
      | some e => t.putOutst p.1 p.2.1 { p.2.2 with eff := e }
      | none => t) s
  else s.failJoint l cluster j

/-- The group of the wave in focus counts an MMAX. -/
def State.countMmax (s : State) : State :=
  let g := s.myGroup
  s.setGroup s.wave.core s.wave.gslot { g with mmax := g.mmax + 1 }

/-- An MMAX that faults at its issue counts, and fails its partners (R310). [DEDUCED, log 79] -/
def State.mmaxFault (s : State) (code detail : Nat) (addr : DWord) : Act :=
  let j := s.myGroup.mmax
  .stay ((s.countMmax.failJoint s.wave.launch (s.wave.core / 4) j).faultAt code detail addr)

/-- The first fault of the operands of an MMAX on its own core: trap code and detail (R298, R309). -/
def State.mmaxBadOp (s : State) (f : G64) : Option (Nat × Nat) :=
  let a := s.tileOf f.a.toNat
  let b := s.tileOf f.b.toNat
  let addr := (s.wave.sop f.c).toNat
  let even := s.wave.core % 2 == 0
  if !s.myLaunch.gang || (!even && f.a != 0) then some (2, 0)
  else if !cfgValid b.1.cfg || (even && !cfgValid a.1.cfg) then some (0x10, 2)
  else if even && cfgRows b.1.cfg != cfgCols a.1.cfg then some (0x10, 3)
  else if ternaryFmt b.2.fmt || (even && !mmaPair a.2.fmt b.2.fmt) then some (0x10, 5)
  else if accBad s.myGroup addr (if even then cfgRows a.1.cfg else 1) (cfgCols b.1.cfg)
      (if even then accType a.2.fmt b.2.fmt else if b.2.fmt = 0 then 2 else 0) then some (0x10, 4)
  else none

/-- MMAX (R309, R310). -/
def execMmax (f : G64) (s : State) : Host.Outcome State Fault Refusal :=
  ok (run (.mmax f) s fun s =>
    let w := s.wave
    let l := w.launch
    let cluster := w.core / 4
    let j := s.myGroup.mmax
    let a := if w.core % 2 = 0 then some (s.tileOf f.a.toNat).1 else none
    let b := (s.tileOf f.b.toNat).1
    if !w.granted then .stay s
    else
      match s.mmaxBadOp f with
      | some (c, d) => if s.myLaunch.gang then s.mmaxFault c d (if c = 2 then w.insAddr else 0) else w.illegal
      | none =>
        match (f.b.toNat :: if w.core % 2 = 0 then [f.a.toNat] else []).findSome? s.tileBad with
        | some u => s.mmaxFault 0x11 0 (bv u)
        | none =>
        let bad := s.myLaunch.mmaxBad.contains (cluster, j)
        let finish (t : State) : State :=
          if bad then t.failJoint l cluster j else t.join l cluster j
        match s.countMmax.issueEngine (cfCounter f.cf) true (.mmax a b (w.sop f.c).toNat (f.mod == 1) j) with
        | .state t => .state (finish t)
        | .stay t => .stay (finish t)
        | x => x)

/-- Can a partner of a waiting MMAX no longer issue its part: its group has gone or all its waves have ended (R310)? -/
def State.partnerGone (s : State) (l core j : Nat) : Bool :=
  let here := s.groups.any fun p => p.1 / 16 == core && p.2.launch == l
  let late := s.groups.any fun p => p.1 / 16 == core && p.2.launch == l && decide (p.2.mmax ≤ j)
  let away := s.suspended.any fun x => x.core == core && x.group.launch == l
  let alive := s.allWaves.any fun w => w.core == core && w.alive l
  !away && (!here || (late && !alive))

/-- Waiting MMAX of a core whose partners can no longer join fail (R310). -/
def State.dropJoints (s : State) (core : Nat) : State :=
  (s.engineOps core).foldl (fun s x =>
    match x.2.2.eff.joint, s.findWave x.1 x.2.1 with
    | some j, some w =>
      if (List.range 4).any fun q => s.partnerGone w.launch (core / 4 * 4 + q) j then s.failJoint w.launch (core / 4) j else s
    | _, _ => s) s

/-! ### Accumulator moves (R311 to R313) -/

/-- Formats that ACCLD accepts for a type (R311). -/
def accldFmt (ty f : Nat) : Bool :=
  match ty with
  | 0 => (1 ≤ f && f ≤ 4) || (0x0A ≤ f && f ≤ 0x0C)
  | 1 => 0x0A ≤ f && f ≤ 0x0C
  | _ => f ≤ 1

/-- Formats that ACCST accepts. -/
def accstFmt (f : Nat) : Bool := f ≤ 4 || (0x0A ≤ f && f ≤ 0x0C)

/-- Formats that ACCQ accepts (R312). -/
def accqFmt (f : Nat) : Bool := (3 ≤ f && f ≤ 9) || (0x0B ≤ f && f ≤ 0x0F)

/-- Rows and columns of ACCLD and ACCST (R311). -/
def Wave.moveShape (w : Wave) (f : G64) (d : Desc) : Nat × Nat :=
  if f.sc then (bits (w.sop f.c) 15 0, bits (w.sop f.c) 31 16) else (d.dim 1, d.dim 0)

/-- ACCLD (R311). -/
def execAccld (f : G64) (s : State) : Host.Outcome State Fault Refusal :=
  ok (run (.accld f) s fun s =>
    let w := s.wave
    let d := s.myLaunch.tensor f.d.toNat
    let ty := f.mod.toNat
    let (rows, cols) := w.moveShape f d
    let addr := (w.sop f.a).toNat
    let o := w.origin2 f.b.toNat
    if !accldFmt ty d.fmt then tileShape 5
    else if accBad s.myGroup addr rows cols ty then tileShape 4
    else s.outAct (some 3) (cfCounter f.cf) (.accld f.d.toNat addr (o.getD 0 0) (o.getD 1 0) rows cols ty))

/-- ACCST (R311). -/
def execAccst (f : G64) (s : State) : Host.Outcome State Fault Refusal :=
  ok (run (.accst f) s fun s =>
    let w := s.wave
    let d := s.myLaunch.tensor f.d.toNat
    let ty := f.mod.toNat
    let (rows, cols) := w.moveShape f d
    let addr := (w.sop f.a).toNat
    let o := w.origin2 f.b.toNat
    if !accstFmt d.fmt then tileShape 5
    else if accBad s.myGroup addr rows cols ty then tileShape 4
    else
      s.needLogAt ((d.blockAddrs (o.getD 0 0) (o.getD 1 0) rows cols).min?)
        (s.outAct (some 3) (cfCounter f.cf)
          (.accst f.d.toNat addr (o.getD 0 0) (o.getD 1 0) rows cols ty (w.roundMode f.sub.toNat))))

/-- ACCQ (R312). -/
def execAccq (f : G64) (s : State) : Host.Outcome State Fault Refusal :=
  ok (run (.accq f) s fun s =>
    let w := s.wave
    let d := s.myLaunch.tensor f.d.toNat
    let ty := f.mod.toNat
    let addr := (w.sop f.a).toNat
    if !accqFmt d.fmt then tileShape 5
    else if accBad s.myGroup addr (d.dim 1) (d.dim 0) ty then tileShape 4
    else if !d.trailerOk then tileShape 8
    else
      s.needLogAt (some d.base)
        (s.outAct (some 3) (cfCounter f.cf) (.accq f.d.toNat addr ty (w.roundMode f.sub.toNat) (fpBits true f.b (w.sop f.b))
          (if f.sc then w.sop f.c else 0))))

/-- TSCL (R313): held under NANTRAP. -/
def execTscl (f : G64) (s : State) : Host.Outcome State Fault Refusal :=
  ok (run (.tscl f) s fun s =>
    let w := s.wave
    let rows := bits (w.sop f.b) 15 0
    let cols := bits (w.sop f.b) 31 16
    let addr := (w.sop f.a).toNat
    if accBad s.myGroup addr rows cols 0 then tileShape 4
    else s.issueEngine (cfCounter f.cf) false (.tscl addr rows cols (fpBits true f.c (w.sop f.c)) (f.sub == 1)))

/-! ### Events -/

/-- MATRIX_COMPLETION: the engine of a core performs the next operation it can (R295). -/
def execMatrixCompletion (core : Nat) (s : State) : Host.Outcome State Fault Refusal :=
  let s := s.dropJoints core
  ok (s.engineRun (s.engineOps core) [])

end Sys2Proof.Machine
end

