-- ==== Sys2Proof/Machine/Bulk.lean ====
section
/-! DEFINITION. Bulk tensor copies between memory and scratchpad (R280, R281), and the moves of live pages (R236 to R239,
R283). -/

namespace Sys2Proof.Machine

/-! ### CPB at issue (R280) -/

/-- Elements that a sub-byte origin or extent must be a multiple of (R280). -/
def packAlign (f : Nat) : Nat :=
  match fmtBits f with
  | 0 => 5
  | 6 => 4
  | b => max 1 (8 / b)

/-- The bulk copy that a block of eight words describes. -/
def bulkOf (w : Wave) (id obj : Nat) (st : Bool) (b : List Word) (bytes : Nat) : Bulk :=
  let x (i : Nat) : Word := b.getD i 0
  { id := id, slot := w.slot, launch := w.launch, gslot := w.gslot, obj := obj, st := st, td := (x 0).toNat,
    spoff := (x 1).toNat, org := [(x 2).toInt, (x 3).toInt, (x 4).toInt, (x 5).toInt],
    ext := [bits (x 6) 15 0, bits (x 6) 31 16, bits (x 7) 15 0, bits (x 7) 31 16], bytes := bytes, items := none,
    dropped := [], wait := .ready, vc := w.hb }

/-- Rbox: bytes of a row of the box; rows of the box; bytes of the box (R280). -/
def Bulk.rowBytes (b : Bulk) (d : Desc) : Nat := up16 (Machine.rowBytes d.fmt (b.ext.getD 0 0))
def Bulk.rows (b : Bulk) : Nat := b.ext.getD 1 0 * b.ext.getD 2 0 * b.ext.getD 3 0
def Bulk.size (b : Bulk) (d : Desc) : Nat := b.rowBytes d * b.rows

/-- Does a block break the rules of R280? -/
def Bulk.bad (b : Bulk) (d : Desc) : Bool :=
  (b.ext.any (· == 0)) || d.layout == 2 || b.org.getD 0 0 % (packAlign d.fmt : Nat) != 0 ||
    b.ext.getD 0 0 % packAlign d.fmt != 0 ||
    (List.range 4).any fun k => d.rank ≤ k && (b.org.getD k 0 != 0 || b.ext.getD k 0 != 1)

/-- The wave's bulk copies outstanding. -/
def State.myBulks (s : State) : List Bulk :=
  s.myCore.bulks.filter fun b => b.slot == s.wave.slot && b.launch == s.wave.launch

/-- CPB (R280, R281). [DEDUCED, log 69] -/
def execCpb (f : M64) (s : State) : Host.Outcome State Fault Refusal :=
  ok (run (.cpb f) s fun s =>
    let w := s.wave
    let blk := (List.range 8).map fun i => w.sreg (f.a.toNat + i)
    let off : Int := ((w.sop f.d).toNat : Int) + simmM f
    let b := bulkOf w s.fresh off.toNat (f.aop.getLsbD 0) blk 0
    let d := s.myLaunch.tensor b.td
    let noTensor := decide (256 ≤ b.td) || decide (s.myLaunch.tdcount ≤ b.td)
    let n := b.size d
    if b.spoff % 16 != 0 then .trap 5 0 (bv b.spoff)
    else if !noTensor && !b.bad d && decide (s.myGroup.spadLen < b.spoff + n) then .trap 8 9 (bv b.spoff)
    else
      match (if off < 0 then none else s.findObj w.core w.gslot off.toNat) with
      | none => .trap 0x0B 3 (bv (wrap 64 off))
      | some o =>
        if noTensor || b.bad d then w.illegal
        else
          match s.objIn w.core w.gslot b.spoff n with
          | some x => .trap 0x0B 1 (bv x.off)
          | none =>
            if w.barrWaits || 16 ≤ s.myBulks.length then s.unissued
            else
              let s := s.declare w.core o (if f.aop.getLsbD 1 then 0 else n)
              let co := s.core w.core
              let s := s.setCore w.core { co with bulks := co.bulks ++ [{ b with bytes := n }] }
              .state { s with fresh := s.fresh + 1 })

/-! ### The copy (R280, R281) -/

/-- Places of a box's elements: its row, its place in the row, its coordinates. -/
def Bulk.elems (b : Bulk) : List (Nat × Nat × List Int) :=
  let e (k : Nat) : Nat := b.ext.getD k 0
  (List.range b.rows).flatMap fun r => (List.range (e 0)).map fun k =>
    (r, k, [b.org.getD 0 0 + k, b.org.getD 1 0 + (r % e 1 : Nat), b.org.getD 2 0 + (r / e 1 % e 2 : Nat),
      b.org.getD 3 0 + (r / (e 1 * e 2) : Nat)])

/-- Bytes at a virtual address, poison or not. -/
def State.rawAtVa (s : State) (va n : Nat) : List Byte :=
  match s.peek TransReg.reset va with
  | some (t, o) => s.devRead (t.ppage + o) n
  | none => List.replicate n 0

/-- What the engine has of the elements of `.ld` so far: the elements read, the reports, the units poisoned. -/
structure Pull where
  got : List (Nat × Nat × Nat)
  errs : List Report
  bad : List (Nat × Nat)
  deriving DecidableEq, Repr

/-- Adds a report, one for each 256-byte line (R234). -/
def addReport (l : List Report) (r : Report) : List Report :=
  if l.any fun x => x.code == r.code && x.addr.toNat / 256 == r.addr.toNat / 256 then l else l ++ [r]

/-- Raw element in the bytes of its span. -/
def Desc.rawIn (d : Desc) (i : List Nat) (bs : List Byte) : Nat :=
  let (row, k) := d.at_ i
  rawAt (fun j => bs.getD (row + j - (d.span i).1) 0) d.fmt k

/-- Reads the elements of `.ld`: one outside the tensor is the zero element, one that meets an error or a declined page is
left unwritten, poisoned data are copied with their poison (R253, R280, R281). A wait or a translation fault stops it. -/
def State.pullElems (s : State) (b : Bulk) (d : Desc) : List (Nat × Nat × List Int) → Pull → Try Pull
  | [], p => .ok s p
  | (r, k, i) :: l, p =>
    let put (x : Nat) : Pull := { p with got := p.got ++ [(r, k, x)] }
    if !d.inside i then s.pullElems b d l (put (zeroRaw d.fmt))
    else
      let j := i.map Int.toNat
      let (va, n) := d.span j
      if b.dropped.contains (va / 4096) then s.pullElems b d l p
      else
        match s.eread d.wo va n with
        | .ok s bs => s.pullElems b d l (put (d.rawIn j bs))
        | .wait t => .wait t
        | .fault t a => .fault t a
        | .err 0x11 dt a =>
          let q := put (d.rawIn j (s.rawAtVa va n))
          s.pullElems b d l { q with errs := addReport p.errs { code := 0x11, detail := dt, addr := bv a }, bad := p.bad ++ [(r, k)] }
        | .err c dt a => s.pullElems b d l { p with errs := addReport p.errs { code := c, detail := dt, addr := bv a } }

/-- The bytes of the box in scratchpad once the elements have come: those left unwritten keep their bits, row padding is
zero. -/
def Bulk.image (b : Bulk) (d : Desc) (old : List Byte) (got : List (Nat × Nat × Nat)) : List Byte :=
  let rb := b.rowBytes d
  let pk := Machine.rowBytes d.fmt (b.ext.getD 0 0)
  let c : Cells 8 := got.foldl (fun c x => putRaw c (x.1 * rb) d.fmt x.2.1 x.2.2) (csetList [] 0 old)
  let c := (List.range b.rows).foldl (fun c r => csetList c (r * rb + pk) (List.replicate (rb - pk) 0)) c
  cgetList c 0 (b.size d)

/-- Replaces or ends a bulk copy of a core. -/
def State.putBulk (s : State) (c : Nat) (b : Bulk) : State :=
  let co := s.core c
  s.setCore c { co with bulks := co.bulks.map fun x => if x.id == b.id then b else x }

/-- A bulk copy of the wave in focus is complete: its bytes are added, in one step that releases its writes (R281). -/
def State.endBulk (s : State) (b : Bulk) : State :=
  let c := s.wave.core
  let co := s.core c
  let s := s.setCore c { co with bulks := co.bulks.filter fun x => x.id != b.id }
  (s.countChannel (dieOf c) (coreChannel c) b.bytes).addBytes c b.gslot b.obj b.bytes (engWrites b.id)

/-- The reports of a bulk copy reach its wave (R281). -/
def State.bulkReports (s : State) (l : List Report) : State :=
  l.foldl (fun s r => s.report s.wave.core s.wave.slot r) s

/-- A step of `.ld`, and whether all of it is done; a bound line of which the host has a copy is asked back first (R378). [DEDUCED, log 70] -/
def State.bulkLoad (s : State) (b : Bulk) (d : Desc) : State × Bool :=
  let s0 := s
  let w := s.wave
  match s.pullElems b d b.elems { got := [], errs := [], bad := [] } with
  | .wait t => (s.asks t, false)
  | .fault _ va =>
    let (s, tag) := s.reportFault w.core va 3
    (s.putBulk w.core { b with wait := .fault (bv va) tag }, false)
  | .err c dt a => (s.bulkReports [{ code := c, detail := dt, addr := bv a }], true)
  | .ok s p =>
    let at_ := (s.group w.core w.gslot).spadBase + b.spoff
    let pa := spadPa w.core at_
    match s0.spadHeldIn w.core at_ b.bytes with
    | some l => (s0.askHost l, false)
    | none =>
    let bs := b.image d (s.spadRead w.core at_ b.bytes) p.got
    let s := (s.spadWrite w.core w.gslot b.spoff bs).clean pa b.bytes
    let unit (x : Nat × Nat) : Nat := unitAt (pa + x.1 * b.rowBytes d + x.2 * fmtBits d.fmt / 8)
    let s := p.bad.foldl (fun s x => s.setBad (unit x)) s
    (s.bulkReports p.errs, true)

/-- The writes of `.st`, from the scratchpad as it stands; poison is carried along (R253). -/
def State.bulkItems (s : State) (b : Bulk) (d : Desc) : List StoreItem × List Report :=
  let w := s.wave
  let at_ := (s.group w.core w.gslot).spadBase + b.spoff
  let pa := spadPa w.core at_
  let img := s.spadRead w.core at_ b.bytes
  let inT := b.elems.filter fun x => d.inside x.2.2
  let byte (x : Nat × Nat × List Int) : Nat := x.1 * b.rowBytes d + (if fmtBits d.fmt = 0 then x.2.1 / 5 else x.2.1 * fmtBits d.fmt / 8)
  let bad := inT.filter fun x => s.isBad (unitAt (pa + byte x))
  let items := joinItems (inT.flatMap fun x =>
    d.store (x.2.2.map Int.toNat) (rawAt (fun j => img.getD (x.1 * b.rowBytes d + j) 0) d.fmt x.2.1))
  (items ++ bad.map fun x => { va := (d.span (x.2.2.map Int.toNat)).1, op := some 18, data := [] },
   bad.foldl (fun l x => addReport l { code := 0x11, detail := 0, addr := bv ((pa + byte x) / 16 * 16) }) [])

/-- A step of `.st`, its writes at their homes, and whether all of it is done. -/
def State.bulkStore (s : State) (b : Bulk) (d : Desc) : State × Bool :=
  let w := s.wave
  let (items, errs) := match b.items with
    | some l => (l, [])
    | none => s.bulkItems b d
  let s := s.bulkReports errs
  let (s, left, wt) := s.doItems b.id d.wo false (fun s line => s.ownReady s.wave b.id false true false line) items
  if left.isEmpty then (s, true) else (s.putBulk w.core { b with items := some left, wait := wt }, false)

/-- CPB_BYTE_ADDITION: the engine performs what it can of a bulk copy, and adds its bytes once all of it is done (R281). -/
def execCpbByteAddition (core id : Nat) (s : State) : Host.Outcome State Fault Refusal :=
  match (s.core core).bulks.find? fun b => b.id == id && b.wait == .ready with
  | none => ok s
  | some b =>
    let s := s.focus core b.slot
    if !s.wave.at_ core b.slot then ok s
    else
      let d := s.myLaunch.tensor b.td
      let t := s.engineOn b.id b.vc
      let r := if b.st then t.bulkStore b d else t.bulkLoad b d
      let u := r.1.engineOff s
      ok (if r.2 then u.endBulk b else u)

/-! ### Moving pages (R236 to R239, R283) -/

/-- The translation that a placement word gives a frame. -/
def framePage (p : Nat) (pw : Word) (psize : Nat) : TransReg :=
  { TransReg.reset with pw := pw, psize := BitVec.ofNat 4 psize, pbase := BitVec.ofNat 52 p, valid := true }

/-- Site offsets that a page claims on each of its dies and sites (R217): first, length, and the residue of its 256-byte
blocks where it claims one block in four. -/
def claimOf (p sz : Nat) (pw : Word) : Nat × Nat × Option Nat :=
  let b := p % 2 ^ 36 / 8
  let share := sz / ((pwDies pw).length * (pwSites pw).length)
  if pwChsel pw = 2 then
    let r := 256 * pwChn pw
    (b + r, 1024 * ((share - 1) / 256) + 256, some r)
  else (b, share, none)

/-- Do the offsets of two claims overlap? -/
def claimsMeet (x y : Nat × Nat × Option Nat) : Bool :=
  let blocks (a b : Nat × Nat × Option Nat) : Bool :=
    let i := if b.1 < a.1 + 256 then 0 else (b.1 - (a.1 + 256)) / 1024 + 1
    decide (1024 * i < a.2.1) && decide (a.1 + 1024 * i < b.1 + b.2.1)
  match x.2.2, y.2.2 with
  | some r, some t => r == t && meets x.1 x.2.1 y.1 y.2.1
  | some _, none => blocks x y
  | none, some _ => blocks y x
  | none, none => meets x.1 x.2.1 y.1 y.2.1

/-- Do the claims of two pages overlap? -/
def pagesMeet (p q sz : Nat) (pp pq : Word) : Bool :=
  (pwDies pp).any (fun d => (pwDies pq).contains d) && (pwSites pp).any (fun e => (pwSites pq).contains e) &&
    claimsMeet (claimOf p sz pp) (claimOf q sz pq)

/-- Does the frame record of every 4 KiB of the destination hold its placement word and page size (R236)? -/
def State.dstRecords (s : State) (dst sz : Nat) (pw : Word) (psize : Nat) : Bool :=
  (List.range (sz / 4096)).all fun i =>
    let r := s.frameRec (dst + 4096 * i)
    recSet r && recPw r == pw && recPsize r == psize

/-- Why `.start` is refused, in the order 6, 3, 5, 2, 4, 1; none: it is not (R283). [DEDUCED, log 68] -/
def State.moveRefused (s : State) (src dst : Nat) (old new : Word) (psize : Nat) : Option Nat :=
  let sz := pageBytes psize
  if src % sz != 0 || dst % sz != 0 || !inFrame src || !inFrame dst ||
      (geomFail (framePage src old psize)).isSome || (geomFail (framePage dst new psize)).isSome then some 6
  else if 2 ≤ pwHome old || 2 ≤ pwHome new then some 3
  else if s.moves.any fun m => [src, dst].any fun p =>
      meets p sz m.2.src (pageBytes m.2.psize) || meets p sz m.2.dst (pageBytes m.2.psize) then some 5
  else if pagesMeet src dst sz old new then some 2
  else if !s.dstRecords dst sz new psize then some 4
  else if 64 ≤ s.moves.length then some 1
  else none

/-- Starts a move: the state, s[D] and scc (R236, R283). -/
def State.moveStart (s : State) (src dst : Nat) (old new : Word) (psize : Nat) : State × Word × Bool :=
  match s.moveRefused src dst old new psize with
  | some c => (s, BitVec.ofNat 32 c, false)
  | none =>
    let e := ((List.range 64).find? fun e => (tfind s.moves e).isNone).getD 0
    ({ s with moves := tset s.moves e { src := src, dst := dst, psize := psize, oldPw := old, newPw := new, pp := 0, busy := false } },
     BitVec.ofNat 32 e, true)

/-- Is a move's copy complete? -/
def Move.copied (m : Move) : Bool := m.pp == pageBytes m.psize / 128

/-- The records of a move's source: HGEN goes up and SET is cleared (R239). -/
def State.retireFrames (s : State) (src sz : Nat) : State :=
  (List.range (sz / 4096)).foldl (fun s i =>
    let pa := src + 4096 * i
    let r := (s.frameRec pa).toNat
    let x := r - r % 2 ^ 16 + (r + 1) % 2 ^ 16
    let y := if nbit x 50 then x - 2 ^ 50 else x
    { s with frames := cset s.frames (pa / 4096) (BitVec.ofNat 64 y) }) s

/-- A binding of a moved page is known by its destination from now on. [DEDUCED, log 66] -/
def Binding.moved (b : Binding) (m : Move) (gen : Nat) : Binding :=
  let pa := b.tr.pbase.toNat
  if m.src ≤ pa && pa < m.src + pageBytes m.psize then
    let t := { b.tr with pbase := BitVec.ofNat 52 (m.dst + (pa - m.src)), pw := m.newPw, gen := BitVec.ofNat 16 gen }
    { b with tr := t }
  else b

/-- The state of the 4 KiB units of a moved page goes to its destination; those of the source are OPEN (R251). -/
def State.moveSeals (s : State) (m : Move) : State :=
  (List.range (pageBytes m.psize / 4096)).foldl (fun s i =>
    { s with seals := cset (cset s.seals (m.dst / 4096 + i) (cget s.seals (m.src / 4096 + i))) (m.src / 4096 + i) 0 }) s

/-- Ends a move (R239, R283). -/
def State.moveEnd (s : State) (e : Nat) : State × Word × Bool :=
  match tfind s.moves e with
  | none => (s, 8, false)
  | some m =>
    if !m.copied then (s, 7, false)
    else
      let s := s.retireFrames m.src (pageBytes m.psize)
      let gen := recHgen (s.frameRec m.dst)
      let cores := s.cores.map fun c => (c.1, { c.2 with smap := c.2.smap.map fun b => b.moved m gen })
      let gone := s.suspended.map fun x => { x with binds := x.binds.map fun b => b.moved m gen }
      ({ s.moveSeals m with moves := tdel s.moves e, cores := cores, suspended := gone }, 0, true)

/-- Queries a move (R283). -/
def State.moveQuery (s : State) (e : Nat) : State × Word × Bool :=
  match tfind s.moves e with
  | none => (s, 8, false)
  | some m => (s, BitVec.ofNat 32 m.pp, m.copied)

/-- CPR (R283). -/
def execCpr (f : M64) (s : State) : Host.Outcome State Fault Refusal :=
  ok (run (.cpr f) s fun s =>
    let w := s.wave
    let x (i : Nat) : Word := w.sreg (f.a.toNat + i)
    if f.aop == 0 && (x 7 != 0 || 5 < (x 6).toNat) then w.illegal
    else
      let r := match f.aop.toNat with
        | 0 => s.moveStart (pair (x 0) (x 1)).toNat (pair (x 2) (x 3)).toNat (x 4) (x 5) (x 6).toNat
        | 1 => s.moveEnd (x 0).toNat
        | _ => s.moveQuery (x 0).toNat
      let v := r.1.wave.setS f.d.toNat r.2.1
      .state { r.1 with wave := { v with scc := r.2.2 } })

/-- Storage key of a line of a move, on its source or destination side. -/
def Move.srcKey (m : Move) (i : Nat) : Nat := (store m.src m.oldPw (128 * i)).key
def Move.dstKey (m : Move) (i : Nat) : Nat := (store m.dst m.newPw (128 * i)).key

/-- What is known of a line moves with it: leases, releases, poison; the records of a race-checked line are dropped (R366). [DEDUCED, log 67] -/
def State.carryLine (s : State) (a b : Nat) : State :=
  let rel := (List.range 128).foldl (fun t i => match tfind s.rel (a + i) with
    | some m => tset t (b + i) m
    | none => tdel t (b + i)) s.rel
  let races := tdel (tdel s.races (a / 128)) (b / 128)
  let key (d line : Nat) : Nat := 2 ^ 40 * d + line
  let leases := (List.range 4).foldl (fun t d =>
    let e := tget 0 s.leases (key d (a / 128))
    if e = 0 then t else tset t (key d (b / 128)) (max e (tget 0 t (key d (b / 128))))) s.leases
  State.copyPoison { s with rel := rel, races := races, leases := leases } a b 128

/-- Must the copy of a line wait: for its open transaction, a copy at the host, or a copy on a die whose leases stand (R238, R374,
R375, R378)? -/
def State.recallWaits (s : State) (line : Nat) : Bool :=
  s.lineBusy line || s.hostHolds line || (List.range 4).any fun d => s.copyAt d line != .i && s.leasedAt d line

/-- The bytes of a line that is moved: those of its storage, or those of the scratchpad to which it is bound, whose value is then
written back (R238, R247). -/
def State.moveRead (s : State) (pa key : Nat) : State × List Byte :=
  match s.boundFor pa with
  | none => (s, cgetList s.mem key 128)
  | some (c, at_) =>
    let x := s.core c
    let clear (b : Binding) : Binding :=
      { b with dirty := b.dirty.filter fun i => (s.group c b.grp).spadBase + 1024 * b.spoff + 128 * i != at_ }
    ((s.setCore c { x with smap := x.smap.map clear }).copyPoison (spadPa c at_) key 128, s.spadRead c at_ 128)

/-- MOVE_COPY_STEP: the next line of a move is recalled, read, and written at its new home (R238); a line of which the host
holds a copy is asked back first, and is busy until then. -/
def execMoveCopyStep (e : Nat) (s : State) : Host.Outcome State Fault Refusal :=
  match tfind s.moves e with
  | none => ok s
  | some m =>
    if m.copied then ok s
    else
      let a := m.srcKey m.pp
      let b := m.dstKey m.pp
      if s.recallWaits (a / 128) || s.recallWaits (b / 128) then
        let s := [a / 128, b / 128].foldl (fun s l => if s.hostHolds l then s.askHost l else s) s
        ok { s with moves := tset s.moves e { m with busy := true } }
      else
        let s := (s.callBack (a / 128)).callBack (b / 128)
        let src := m.src + 128 * m.pp
        let (s, bs) := s.moveRead src a
        let s := (s.markRec src false).markRec (m.dst + 128 * m.pp) true
        let s := { s with mem := csetList s.mem b bs, moves := tset s.moves e { m with pp := m.pp + 1, busy := false } }
        ok ((s.carryLine a b).countChannel (m.src / 2 ^ 36) (16 * (e / 8) + 12 + e % 4) 128)

end Sys2Proof.Machine
end

