-- ==== Sys2Proof/Machine/Poly.lean ====
section
/-! DEFINITION. Exact polynomials over the rationals, for the roots and extrema of function registers (R203, R204):
square-free parts, Sturm's count of distinct roots, and the least point at which a polynomial is greatest. -/

namespace Sys2Proof.Machine

/-- A polynomial, lowest coefficient first. -/
abbrev Poly := List Rat

/-- The rational that a finite value is. -/
def FV.rat : FV → Rat
  | .num neg n k =>
    let m : Int := if neg then -(n : Int) else n
    if 0 ≤ k then mkRat (m * 2 ^ k.toNat) 1 else mkRat m (2 ^ (-k).toNat)
  | _ => 0

/-- A rational as a value, with a sticky bit below at least `p` bits. -/
def ratVal (p : Nat) (x : Rat) : FV := FV.div p (FV.ofInt x.num) (FV.ofInt x.den)

/-- Drops leading zero coefficients. -/
def Poly.trim (p : Poly) : Poly := p.reverse.dropWhile (· == 0) |>.reverse

/-- The value at a point. -/
def Poly.eval (p : Poly) (x : Rat) : Rat := p.foldr (fun c y => y * x + c) 0

/-- Sum of two polynomials, the second times `k`. -/
def Poly.addMul (k : Rat) : Poly → Poly → Poly
  | [], q => q.map (k * ·)
  | p, [] => p
  | a :: p, b :: q => (a + k * b) :: Poly.addMul k p q

/-- The derivative. -/
def Poly.deriv (p : Poly) : Poly := ((p.zipIdx.map fun (c, k) => (k : Rat) * c).drop 1)

/-- Remainder and quotient by division, in at most `n` steps; leading coefficients first throughout. -/
def divGo (b : Poly) : Nat → Poly → Poly → Poly × Poly
  | 0, a, q => (q, a)
  | n + 1, a, q =>
    if a.length < b.length then (q, a)
    else
      match a, b with
      | x :: _, y :: _ =>
        let c := x / y
        let a' := Poly.addMul (-c) a b
        divGo b n (a'.drop 1) (c :: q)
      | _, _ => (q, a)

/-- Quotient and remainder. -/
def Poly.divMod (a b : Poly) : Poly × Poly :=
  let r := divGo b.trim.reverse (a.length + 1) a.trim.reverse []
  (r.1, Poly.trim r.2.reverse)

/-- Greatest common divisor, by Euclid. -/
def gcdGo : Nat → Poly → Poly → Poly
  | 0, a, _ => a
  | n + 1, a, b => if b.isEmpty then a else gcdGo n b (a.divMod b).2

/-- The square-free part: the same roots, each once. -/
def Poly.squareFree (p : Poly) : Poly :=
  let p := p.trim
  (p.divMod (gcdGo p.length p p.deriv.trim)).1

/-- Sturm's chain from two polynomials on. -/
def sturmGo : Nat → Poly → Poly → List Poly
  | 0, a, _ => [a]
  | n + 1, a, b => if b.isEmpty then [a] else a :: sturmGo n b ((a.divMod b).2.map (-·))

/-- Sturm's chain of a square-free polynomial. -/
def Poly.sturm (p : Poly) : List Poly := sturmGo (p.length + 1) p.trim p.deriv.trim

/-- Changes of sign along a list without zeros. -/
def changes : List Rat → Nat
  | a :: b :: l => (if (a < 0) != (b < 0) then 1 else 0) + changes (b :: l)
  | _ => 0

/-- Changes of sign of a chain at a point. -/
def variation (ch : List Poly) (x : Rat) : Nat := changes ((ch.map fun q => q.eval x).filter (· != 0))

/-- What a search for roots needs: a square-free polynomial, its chain and the left end of the interval. -/
structure RootCount where
  p : Poly
  chain : List Poly
  lo : Rat

/-- The count for a polynomial from `lo` on. -/
def rootCount (p : Poly) (lo : Rat) : RootCount :=
  let q := p.squareFree
  { p := q, chain := q.sturm, lo := lo }

/-- Distinct roots in [lo, x]. -/
def RootCount.upTo (r : RootCount) (x : Rat) : Nat :=
  if x < r.lo then 0
  else (if r.p.eval r.lo == 0 then 1 else 0) + (variation r.chain r.lo - variation r.chain x)

/-- Distinct roots in [lo, x). -/
def RootCount.below (r : RootCount) (x : Rat) : Nat :=
  if x ≤ r.lo then 0 else r.upTo x - if r.p.eval x == 0 then 1 else 0

/-- Chebyshev polynomials in x from T_0 on, for t = a x + b, by their recurrence. -/
def chebGo (a b : Rat) : Nat → Poly → Poly → List Poly
  | 0, _, _ => []
  | n + 1, t0, t1 =>
    t0 :: chebGo a b n t1 (Poly.addMul (-1) (Poly.addMul (2 * b) (0 :: t1.map (2 * a * ·)) t1) t0)

/-- The polynomial in x that the coefficients of a function on [lo, hi] define (R181). -/
def chebPoly (cs : List Rat) (lo hi : Rat) : Poly :=
  let a := 2 / (hi - lo)
  let b := -(lo + hi) / (hi - lo)
  let ts := chebGo a b cs.length [1] [b, a]
  Poly.trim ((cs.zip ts).foldl (fun p (c, t) => Poly.addMul c p t) [])

/-! ### FP32 values in order -/

/-- Place of an FP32 value among the FP32 values; both zeros stand at 0. -/
def fpIndex (x : Word) : Int := if x.getLsbD 31 then -((x.toNat % 2 ^ 31 : Nat) : Int) else (x.toNat : Int)

/-- The FP32 value at a place. -/
def fpAt (i : Int) : Word := if i < 0 then BitVec.ofNat 32 (2 ^ 31 + i.natAbs) else BitVec.ofNat 32 i.toNat

/-- The rational at a place. -/
def ratAt (i : Int) : Rat := (fval (fpAt i)).rat

/-- The unit in the last place of a finite FP32 value; at 0 that of the smallest subnormal. -/
def fpUlp (x : Word) : Rat :=
  match fval x with
  | .num _ n k => (FV.num false 1 (if n = 0 then -149 else fp32.quantum n k)).rat
  | _ => 0

/-- The least place above `a` and up to `b` at which `f` holds, when it holds at `b` and not at `a` and is monotone. -/
def leastPlace (f : Int → Bool) : Nat → Int → Int → Int
  | 0, _, b => b
  | n + 1, a, b => if b - a ≤ 1 then b else let m := (a + b) / 2; if f m then leastPlace f n a m else leastPlace f n m b

/-- The least FP32 value in [lo, hi] not below the k-th root, by its place. -/
def RootCount.ceil (r : RootCount) (k : Nat) (lo hi : Int) : Int :=
  if k ≤ r.upTo (ratAt lo) then lo else leastPlace (fun i => decide (k ≤ r.upTo (ratAt i))) 40 lo hi

/-- Does a finite FP32 value lie within 2 ulp of the k-th root (R203)? `g` is the place of the least FP32 value not below
the root. -/
def RootCount.near (r : RootCount) (k : Nat) (g : Int) (c : Word) : Bool :=
  let exact := decide (r.below (ratAt g) < k)
  let u := fpUlp (if decide (0 < g) && !(exact && r.p.eval (ratAt g) == 0) then fpAt (g - 1) else fpAt g)
  let x := (fval c).rat
  (fval c).finite && decide (k ≤ r.upTo (x + 2 * u)) && decide (r.below (x - 2 * u) < k)

/-! ### The least point at which a polynomial is greatest (R204) -/

/-- Rows of the matrix of multiplication by p modulo d: x^i p mod d for i from 0 on. -/
def mulRows (d : Poly) : Nat → Poly → List Poly
  | 0, _ => []
  | n + 1, r => r :: mulRows d n ((Poly.divMod (0 :: r) d).2)

/-- A row times a matrix. -/
def rowMul (r : Poly) (m : List Poly) : Poly := (r.zip m).foldl (fun a (c, q) => Poly.addMul c a q) []

/-- Characteristic polynomial of an n × n matrix by Faddeev and LeVerrier, leading coefficient first. -/
def charGo (n : Nat) (a : List Poly) : Nat → List Poly → Rat → List Rat → List Rat
  | 0, _, _, cs => cs.reverse
  | j + 1, m, c, cs =>
    let k := n - j
    let m' := (a.map fun r => rowMul r m).zipIdx.map fun (r, i) => Poly.addMul c r (List.replicate i 0 ++ [1])
    let t := (a.zipIdx.map fun (r, i) => (rowMul r m').getD i 0).foldl (· + ·) 0
    let c' := -t / (k : Rat)
    charGo n a j m' c' (c' :: cs)

/-- The polynomial whose roots are the values of p at the roots of d. -/
def valuePoly (p d : Poly) : Poly :=
  let n := d.trim.length - 1
  (charGo n (mulRows d n (p.divMod d).2) n (List.replicate n []) 1 [1]).reverse

/-- Narrows the k-th root of `r` in (a, b] until the values of p there meet exactly one root of `v`; its number among them.
`slope` bounds the derivative. -/
def valueRank (r v : RootCount) (p : Poly) (slope : Rat) (k : Nat) : Nat → Rat → Rat → Nat
  | 0, _, b => v.upTo (p.eval b)
  | n + 1, a, b =>
    let m := (a + b) / 2
    let y := p.eval m
    let e := slope * (b - a)
    if v.upTo (y + e) - v.below (y - e) == 1 then v.upTo (y + e)
    else if k ≤ r.upTo m then valueRank r v p slope k n a m else valueRank r v p slope k n m b

/-- Where a polynomial is greatest on [lo, hi], at its least such point. -/
inductive Extreme where
  /-- The left end. -/
  | left
  /-- The right end. -/
  | right
  /-- The k-th root in [lo, hi] of the derivative. -/
  | root (r : RootCount) (k : Nat)

/-- The least point of [lo, hi] at which p is greatest. -/
def greatestAt (p : Poly) (lo hi : Rat) : Extreme :=
  let dp := p.deriv.trim
  if dp.isEmpty then .left
  else
    let r := rootCount dp lo
    let first := if r.p.eval lo == 0 then 2 else 1
    let last := r.below hi
    if last < first then (if p.eval hi ≤ p.eval lo then .left else .right)
    else
      let vp := (valuePoly p r.p).trim
      let bound := 1 + (vp.map fun c => if c < 0 then -c else c).foldl (· + ·) 0
      let v := rootCount vp (-bound)
      let big := max (if lo < 0 then -lo else lo) (if hi < 0 then -hi else hi) + 1
      let slope := Poly.eval (dp.map fun c => if c < 0 then -c else c) big
      let ranks := (List.range (last + 1 - first)).map fun i =>
        (2 * valueRank r v p slope (first + i) 20000 lo hi, first + i)
      let best := ranks.foldl (fun (b : Nat × Nat) x => if b.1 < x.1 then x else b) (0, first)
      let rank (x : Rat) : Nat :=
        let y := p.eval x
        if y < -bound then 0 else 2 * v.upTo y + if v.p.eval y == 0 then 0 else 1
      if best.1 ≤ rank lo && decide (p.eval hi ≤ p.eval lo) then .left
      else if rank hi ≤ best.1 then .root r best.2
      else .right

end Sys2Proof.Machine
end

