-- ==== Sys2Proof/Machine/Function.lean ====
section
/-! DEFINITION. Function registers: headers and the pool, placing and finishing a result, and the instructions of the
function engine (R181 to R205, R403, R404). -/

namespace Sys2Proof.Machine

/-! ### Headers and the pool (R181 to R184) -/

/-- A header, read (R181). -/
structure FnHead where
  lo : Word
  hi : Word
  w2 : Word
  deriving DecidableEq, Repr

/-- DEF. -/
def FnHead.defd (h : FnHead) : Bool := h.w2.getLsbD 22
/-- LOSSY. -/
def FnHead.lossy (h : FnHead) : Bool := h.w2.getLsbD 23
/-- OFF. -/
def FnHead.off (h : FnHead) : Nat := bits h.w2 21 14
/-- LEN. -/
def FnHead.len (h : FnHead) : Nat := bits h.w2 13 8
/-- TE, as its byte. -/
def FnHead.te (h : FnHead) : Nat := bits h.w2 7 0

/-- The header of function register cn. -/
def Wave.fnHead (w : Wave) (n : Nat) : FnHead :=
  { lo := cget w.fn (3 * n), hi := cget w.fn (3 * n + 1), w2 := cget w.fn (3 * n + 2) }

/-- Coefficients of a function in a lane. -/
def Wave.fnCoef (w : Wave) (h : FnHead) (L : Nat) : List Word :=
  (List.range h.len).map fun k => cget w.pool (64 * (h.off + k) + L)

/-- Does a write go to the function registers? -/
def WaveWrite.isFn : WaveWrite → Bool
  | .fnHead _ _ _ _ => true
  | .pool _ _ _ => true
  | _ => false

/-- The wave as the function engine, which serves its instructions in order, finds it: with the writes that its earlier
instructions have made to the function registers (R190). [DEDUCED, log 31] -/
def Wave.fnSeen (w : Wave) : Wave := ((w.pend.map (·.2)).filter WaveWrite.isFn).foldl landWave w

/-- A header's second word. -/
def fnWord (lossy : Bool) (off len te : Nat) : Word :=
  BitVec.ofNat 32 ((if lossy then 2 ^ 23 else 0) + 2 ^ 22 + off * 2 ^ 14 + len * 2 ^ 8 + te)

/-- Is a pool word free for a result of register `d` (R183, R184)? -/
def Wave.poolFree (w : Wave) (d i : Nat) : Bool :=
  (List.range 16).all fun c =>
    let h := w.fnHead c
    c == d || !h.defd || i < h.off || h.off + h.len ≤ i

/-- Length of the run of free words from `o` on, below `o + n`. -/
def freeRun (free : Nat → Bool) : Nat → Nat → Nat
  | 0, _ => 0
  | n + 1, o => if free o then freeRun free n (o + 1) + 1 else 0

/-- Place (R184): offset, length and loss, or the length of the longest run when it fails. -/
def Wave.place (w : Wave) (d n : Nat) : Except Nat (Nat × Nat × Bool) :=
  let v := w.fnSeen
  let run (o : Nat) : Nat := freeRun (v.poolFree d) (w.pwords - o) o
  let os := List.range w.pwords
  match os.find? fun o => decide (n ≤ run o) with
  | some o => .ok (o, n, false)
  | none =>
    let m := os.foldl (fun m o => max m (run o)) 0
    if w.fnctl.getLsbD 0 || m == 0 then .error m
    else .ok ((os.find? fun o => run o == m).getD 0, m, true)

/-- FN_POOL (R184). -/
def Wave.fnPool (w : Wave) (n m : Nat) : Act := w.trapHere 0x0D (n % 64 + 256 * m)

/-- FN_DOMAIN with a detail (R188). -/
def Wave.fnDomain (w : Wave) (d : Nat) : Act := w.trapHere 0x0C d

/-! ### Forming a result (R185, R186) -/

/-- RoundNE. -/
def rne (v : FV) : FV := fval (fround 0 v)

/-- An integer as a value. -/
def fint (n : Int) : FV := FV.ofInt n

/-- CosTab(m, q) = RoundNE(cos(π m / q)). -/
def cosTab (m q : Nat) : FV :=
  let r := m % (2 * q)
  if 2 * r = q || 2 * r = 3 * q then .num false 0 0
  else
    let a := fxPi * (r : Int) / (q : Int)
    rne (fxVal (fxSinCos (if 2 * q < 2 * r then a - 2 * fxPi else a)).2)

/-- Norm(x, lo, hi). -/
def fnNorm (x lo hi : FV) : FV :=
  rne (FV.div 64 (FV.sum false [(fint 2).mul x, lo.negate, hi.negate]) (FV.sum false [hi, lo.negate]))

/-- Clenshaw's recurrence from coefficient k down: b1 and b2. -/
def clenshawGo (t : FV) : List FV → FV × FV
  | [] => (.num false 0 0, .num false 0 0)
  | c :: cs =>
    let b := clenshawGo t cs
    let u := rne (FV.sum false [c, b.2.negate])
    (rne (FV.sum false [((fint 2).mul t).mul b.1, u]), b.1)

/-- Clenshaw(c, n, t). -/
def clenshaw (cs : List FV) (t : FV) : FV :=
  let b := clenshawGo t (cs.drop 1)
  rne (FV.sum false [t.mul b.1, rne (FV.sum false [cs.headD (.num false 0 0), b.2.negate])])

/-- Adaptive truncation: the length that is left, for the rows of the active lanes with the greatest magnitude of each
(none: a NaN among them, with which nothing compares). -/
def fnTrim (te : Nat) (rows : List (List FV × Option FV)) : Nat → Nat
  | 0 => 0
  | 1 => 1
  | n + 2 =>
    let small (r : List FV × Option FV) : Bool :=
      let x := r.1.getD (n + 1) (.num false 0 0)
      x.finite &&
        match r.2 with
        | none => false
        | some m => decide (x.abs.cmp (m.mul (.num false 1 (sgn 8 te))) ≤ 0)
    if rows.all small then fnTrim te rows (n + 1) else n + 2

/-- The greatest magnitude of a row; none when it holds a NaN. [DEDUCED, log 33] -/
def rowMax (r : List FV) : Option FV :=
  if r.any FV.isNan then none
  else some (r.foldl (fun m x => if m.cmp x.abs < 0 then x.abs else m) (.num false 0 0))

/-- A function operation has issued: its writes to function registers are made at its decision point, its results land
after it, and until then it holds its wave (R190). -/
def State.fnAct (s : State) (cf : Option Nat) (regs results : List WaveWrite) : Act :=
  let t := s.startOutst none cf s.wave.insAddr false (.fn false regs results)
  .state { t with wave := { t.wave with hold := .outst s.fresh } }

/-- Writes of a header and of `rows`, coefficient rows of 64 lanes from `o` on. -/
def fnWrites (w : Wave) (d : Nat) (lo hi w2 : Word) (o : Nat) (rows : List (List Word)) : List WaveWrite :=
  .fnHead d lo hi w2 :: rows.zipIdx.map fun (r, k) => .pool (o + k) w.full r

/-- What an operation gives for Finish: the interval and TE of the result, the sources' LOSSY, its length before Finish,
the coefficients of a lane, and whether that lane's operands hold a NaN. -/
structure FnResult where
  lo : Word
  hi : Word
  te : Nat
  lossy : Bool
  n : Nat
  coef : Nat → List FV
  nan : Nat → Bool

/-- Finish (R186), with the first-NaN trap (R189): no active lane, no effect (R187). [DEDUCED, log 32; DEDUCED, log 34] -/
def State.fnFinish (s : State) (cf : Option Nat) (d : Nat) (r : FnResult) : Act :=
  let w := s.wave
  let acts := w.actList
  let rows := (List.range w.width).map fun L => (r.coef L).map rne
  let row (L : Nat) : List FV := rows.getD L []
  if acts.isEmpty then .wave w
  else
    match w.firstNan fun L => !r.nan L && (row L).any FV.isNan with
    | some L => nanFirst L 3
    | none =>
      let cap := decide (32 < r.n) && acts.any fun L => ((row L).drop 32).any fun x => !x.isZero
      let m := min r.n 32
      let n := fnTrim r.te (acts.map fun L => (row L, rowMax ((row L).take m))) m
      match w.place d n with
      | .error free => w.fnPool n free
      | .ok (o, k, p) =>
        let out := (List.range k).map fun j =>
          (List.range 64).map fun L => fround 0 ((row L).getD j (.num false 0 0))
        s.fnAct cf (fnWrites w d r.lo r.hi (fnWord (r.lossy || cap || p) o k r.te) o out) []

/-- A function operation that writes vector register `d` in the active lanes; `made` says that a lane's NaN is the
operation's own. -/
def State.fnVector (s : State) (cf : Option Nat) (d : Nat) (g : Nat → Word) (made : Nat → Bool) : Act :=
  let w := s.wave
  match w.firstNan made with
  | some L => nanFirst L 3
  | none => s.fnAct cf [] [.vreg d w.act (w.perLane g)]

/-- The values of a function's coefficients in a lane. -/
def Wave.fnVals (w : Wave) (h : FnHead) (L : Nat) : List FV := (w.fnCoef h L).map fval

/-- A scalar operand as FP32 bits (R193). -/
def Wave.fscalar (w : Wave) (f : BitVec 8) : Word := fpBits true f (w.sop f)

/-- The exact polynomial's coefficients as rationals, when all are finite. -/
def finiteRats (cs : List FV) : Option (List Rat) := if cs.all FV.finite then some (cs.map FV.rat) else none

/-! ### FNDEF, FNFREE, FNFIT, FNLD, FNST (R194 to R197) -/

/-- FNDEF (R194). -/
def execFndef (f : G64) (s : State) : Host.Outcome State Fault Refusal :=
  ok (run (.fndef f) s fun s =>
    let w := s.wave
    let a := w.fscalar f.a
    let b := w.fscalar f.b
    let n := f.mod.toNat % 2 * 16 + f.sub.toNat + 1
    if !(fval a).finite || !(fval b).finite || decide (0 ≤ (fval a).cmp (fval b)) then w.fnDomain 5
    else
      match w.place f.d.toNat n with
      | .error m => w.fnPool n m
      | .ok (o, k, p) =>
        .wave (w.postIn s.clock w.vlat
          (fnWrites w f.d.toNat a b (fnWord p o k f.c.toNat) o (List.replicate k (List.replicate 64 0)))))

/-- A write that frees a register: DEF falls, the other fields stay (R195). -/
def Wave.fnFreed (w : Wave) (c : Nat) : WaveWrite :=
  let h := w.fnSeen.fnHead c
  .fnHead c h.lo h.hi (h.w2 &&& 0xFFBFFFFF)

/-- FNFREE (R195). -/
def execFnfree (f : K32) (s : State) : Host.Outcome State Fault Refusal :=
  ok (runVector (.fnfree f) s fun w =>
    if f.imm == 1 then (List.range 16).map w.fnFreed else [w.fnFreed f.d.toNat])

/-- FNFIT's coefficient k from the values at the extreme points (R196). -/
def fitCoef (n : Nat) (h : List FV) (k : Nat) : FV :=
  if n = 0 then h.getD 0 .nan
  else
    let t := (List.range (n + 1)).map fun j =>
      let x := (h.getD j .nan).mul (cosTab (k * (n - j)) n)
      if j = 0 || j = n then x.mul (.num false 1 (-1)) else x
    FV.div 64 ((fint (if k = 0 || k = n then 1 else 2)).mul (FV.sum false t)) (fint n)

/-- FNFIT (R196). -/
def execFnfit (f : G64) (s : State) : Host.Outcome State Fault Refusal :=
  ok (run (.fnfit f) s fun s =>
    let w := s.wave
    let h := w.fnHead f.d.toNat
    if w.act == 0 then .wave w
    else if w.vregs < f.a.toNat + h.len then w.illegal
    else if !h.defd then w.fnDomain 4
    else
      let vs (L : Nat) : List FV := (List.range h.len).map fun j => fval (w.vlane (f.a.toNat + j) L)
      w.reading (w.actList.flatMap fun L => w.roleReads false f.a.toNat L (.vec h.len 1))
        (s.fnFinish (cfCounter f.cf) f.d.toNat
          { lo := h.lo, hi := h.hi, te := h.te, lossy := false, n := h.len,
            coef := fun L => (List.range h.len).map (fitCoef (h.len - 1) (vs L)),
            nan := fun L => (vs L).any FV.isNan }))

/-- FNLD (R197). [DEDUCED, log 36] -/
def execFnld (f : G64) (s : State) : Host.Outcome State Fault Refusal :=
  ok (run (.fnld f) s fun s =>
    let w := s.wave
    let x (i : Nat) : Word := w.vlane f.a.toNat i
    let h : FnHead := { lo := x 0, hi := x 1, w2 := x 2 }
    w.reading ((List.range 3).map fun i => f.a.toNat * w.width + i) <|
    if !h.defd then
      if x 0 != 0 || x 1 != 0 || x 2 != 0 then w.illegal else s.fnAct (cfCounter f.cf) [w.fnFreed f.d.toNat] []
    else if 2 ^ 24 ≤ h.w2.toNat || h.len = 0 || 32 < h.len || !(h.te == 0 || 129 ≤ h.te) ||
        !(fval h.lo).finite || !(fval h.hi).finite || decide (0 ≤ (fval h.lo).cmp (fval h.hi)) ||
        w.vregs < f.a.toNat + 1 + h.len then w.illegal
    else
      match w.place f.d.toNat h.len with
      | .error m => w.fnPool h.len m
      | .ok (o, k, p) =>
        let rows := (List.range k).map fun j => (List.range 64).map fun L => w.vlane (f.a.toNat + 1 + j) L
        w.reading (w.actList.flatMap fun L => w.roleReads false (f.a.toNat + 1) L (.vec k 1))
          (s.fnAct (cfCounter f.cf) (fnWrites w f.d.toNat h.lo h.hi (fnWord (h.lossy || p) o k h.te) o rows) []))

/-- FNST (R197). -/
def execFnst (f : G64) (s : State) : Host.Outcome State Fault Refusal :=
  ok (run (.fnst f) s fun s =>
    let w := s.wave
    let h := w.fnHead f.a.toNat
    let n := if h.defd then h.len else 0
    if w.vregs < f.d.toNat + 1 + n then w.illegal
    else
      s.fnAct (cfCounter f.cf) []
        (.vreg f.d.toNat w.full ([h.lo, h.hi, h.w2] ++ List.replicate 61 0) ::
          (List.range n).map fun k =>
            .vreg (f.d.toNat + 1 + k) w.full ((List.range 64).map fun L => cget w.pool (64 * (h.off + k) + L))))

/-! ### Arithmetic (R198) -/

/-- The coefficients of FNADD: a missing term is 0. -/
def fnAddCoef (sub : Bool) (a b : List FV) : List FV :=
  (List.range (max a.length b.length)).map fun k =>
    let y := b.getD k (.num false 0 0)
    FV.sum false [a.getD k (.num false 0 0), if sub then y.negate else y]

/-- The coefficients of FNMUL, from T_i T_j = (T_(i+j) + T_|i−j|)/2. -/
def fnMulCoef (a b : List FV) : List FV :=
  (List.range (a.length + b.length - 1)).map fun k =>
    let prods := a.zipIdx.flatMap fun (x, i) => b.zipIdx.flatMap fun (y, j) =>
      let p := (x.mul y).mul (.num false 1 (-1))
      (if i + j = k then [p] else []) ++ (if i - j + (j - i) = k then [p] else [])
    FV.sum false prods

/-- The common form of FNADD and FNMUL; with no active lane it has no effect, and is not checked (R187). -/
def fnPair (i : Instr) (f : G64) (s : State) (g : List FV → List FV → List FV) (len : Nat → Nat → Nat) : State :=
  run i s fun s =>
    let w := s.wave
    let a := w.fnHead f.a.toNat
    let b := w.fnHead f.b.toNat
    if w.act == 0 then .wave w
    else if !a.defd || !b.defd then w.fnDomain 4
    else if a.lo != b.lo || a.hi != b.hi then w.fnDomain 1
    else
      s.fnFinish (cfCounter f.cf) f.d.toNat
        { lo := a.lo, hi := a.hi, te := a.te, lossy := a.lossy || b.lossy, n := len a.len b.len,
          coef := fun L => g (w.fnVals a L) (w.fnVals b L),
          nan := fun L => (w.fnVals a L ++ w.fnVals b L).any FV.isNan }

/-- FNADD (R198). -/
def execFnadd (f : G64) (s : State) : Host.Outcome State Fault Refusal :=
  ok (fnPair (.fnadd f) f s (fnAddCoef (f.sub == 1)) max)
/-- FNMUL (R198). -/
def execFnmul (f : G64) (s : State) : Host.Outcome State Fault Refusal :=
  ok (fnPair (.fnmul f) f s fnMulCoef fun a b => a + b - 1)

/-- An operation on one function source with its interval and TE; with no active lane it has no effect, and is not checked
(R187). -/
def fnUnary (i : Instr) (f : G64) (s : State) (len : Nat → Nat) (g : Wave → FnHead → Nat → List FV)
    (ops : Wave → Nat → List FV) : State :=
  run i s fun s =>
    let w := s.wave
    let a := w.fnHead f.a.toNat
    if w.act == 0 then .wave w
    else if !a.defd then w.fnDomain 4
    else
      s.fnFinish (cfCounter f.cf) f.d.toNat
        { lo := a.lo, hi := a.hi, te := a.te, lossy := a.lossy, n := len a.len, coef := g w a,
          nan := fun L => (w.fnVals a L ++ ops w L).any FV.isNan }

/-- FNSCL (R198). -/
def execFnscl (f : G64) (s : State) : Host.Outcome State Fault Refusal :=
  ok (fnUnary (.fnscl f) f s id
    (fun w a L => (w.fnVals a L).zipIdx.map fun (x, k) =>
      FV.sum false ((fval (w.fb0 f L)).mul x :: if k = 0 then [fval (w.fc f L)] else []))
    fun w L => [fval (w.fb0 f L), fval (w.fc f L)])

/-! ### Composition, integral, derivative, restriction (R199 to R201) -/

/-- RoundNE((w_k / n) × Σ h_j CosTab(k (2j + 1), 2n)), before its rounding. -/
def nodeCoef (hs : List FV) (k : Nat) : FV :=
  let n := hs.length
  let t := hs.zipIdx.map fun (h, j) => h.mul (cosTab (k * (2 * j + 1)) (2 * n))
  FV.div 64 ((fint (if k = 0 then 1 else 2)).mul (FV.sum false t)) (fint n)

/-- The range bound of a function: g_0 − Σ|g_k| rounded down and g_0 + Σ|g_k| rounded up (R199). -/
def rangeBound (g : List FV) : FV × FV :=
  let g0 := g.headD (.num false 0 0)
  let r := (g.drop 1).map FV.abs
  (fval (fround 2 (FV.sum false (g0 :: r.map FV.negate))), fval (fround 3 (FV.sum false (g0 :: r))))

/-- FNCOMP (R199). -/
def execFncomp (f : G64) (s : State) : Host.Outcome State Fault Refusal :=
  ok (run (.fncomp f) s fun s =>
    let w := s.wave
    let a := w.fnHead f.a.toNat
    let b := w.fnHead f.b.toNat
    let out (L : Nat) : Bool :=
      let r := rangeBound (w.fnVals b L)
      fpred 2 r.1 (fval a.lo) || fpred 4 r.2 (fval a.hi)
    if w.act == 0 then .wave w
    else if !a.defd || !b.defd then w.fnDomain 4
    else if w.actList.any out then w.fnDomain 2
    else
      let n := min 32 ((a.len - 1) * (b.len - 1) + 1)
      let hs (L : Nat) : List FV := (List.range n).map fun j =>
        clenshaw (w.fnVals a L) (fnNorm (clenshaw (w.fnVals b L) (cosTab (2 * j + 1) (2 * n))) (fval a.lo) (fval a.hi))
      s.fnFinish (cfCounter f.cf) f.d.toNat
        { lo := b.lo, hi := b.hi, te := a.te, lossy := a.lossy || b.lossy, n := n,
          coef := fun L => let h := hs L; (List.range n).map (nodeCoef h),
          nan := fun L => (w.fnVals a L ++ w.fnVals b L).any FV.isNan })

/-- HI − LO rounded (R200). -/
def FnHead.span (h : FnHead) : FV := rne (FV.sum false [fval h.hi, (fval h.lo).negate])

/-- The coefficients of FNINT (R200). -/
def fnIntCoef (h : FV) (a : List FV) : List FV :=
  let at_ (k : Nat) : FV := a.getD k (.num false 0 0)
  let r := (List.range a.length).map fun i =>
    if i = 0 then rne (h.mul (FV.sum false [at_ 0, ((at_ 2).mul (.num false 1 (-1))).negate]))
    else rne (FV.div 64 (h.mul (FV.sum false [at_ i, (at_ (i + 2)).negate])) (fint (2 * (i + 1))))
  FV.sum false (r.zipIdx.map fun (x, i) => if i % 2 = 0 then x else x.negate) :: r

/-- FNINT (R200). -/
def execFnint (f : G64) (s : State) : Host.Outcome State Fault Refusal :=
  ok (fnUnary (.fnint f) f s (· + 1)
    (fun w a L => fnIntCoef (rne (a.span.mul (.num false 1 (-1)))) (w.fnVals a L)) fun _ _ => [])

/-- The coefficients of FNDER (R200). -/
def fnDerCoef (g : FV) (a : List FV) : List FV :=
  if a.length ≤ 1 then [.num false 0 0]
  else
    (List.range (a.length - 1)).map fun j =>
      let t := a.zipIdx.filterMap fun (x, k) =>
        if j < k && (k - j) % 2 == 1 then some ((fint (2 * k)).mul x) else none
      let y := g.mul (FV.sum false t)
      if j = 0 then y.mul (.num false 1 (-1)) else y

/-- FNDER (R200). -/
def execFnder (f : G64) (s : State) : Host.Outcome State Fault Refusal :=
  ok (fnUnary (.fnder f) f s (fun n => max 1 (n - 1))
    (fun w a L => fnDerCoef (rne (FV.div 64 (fint 2) a.span)) (w.fnVals a L)) fun _ _ => [])

/-- FNRESTR (R201). -/
def execFnrestr (f : G64) (s : State) : Host.Outcome State Fault Refusal :=
  ok (run (.fnrestr f) s fun s =>
    let w := s.wave
    let a := w.fnHead f.a.toNat
    let pb := w.fscalar f.b
    let qb := w.fscalar f.c
    let p := fval pb
    let q := fval qb
    if w.act == 0 then .wave w
    else if !a.defd then w.fnDomain 4
    else if !p.finite || !q.finite || decide (0 ≤ p.cmp q) || decide (p.cmp (fval a.lo) < 0) ||
        decide (0 < q.cmp (fval a.hi)) then w.fnDomain 3
    else
      let n := a.len
      let ts := (List.range n).map fun j =>
        let x := rne ((FV.sum false [p, q, (FV.sum false [q, p.negate]).mul (cosTab (2 * j + 1) (2 * n))]).mul
          (.num false 1 (-1)))
        fnNorm x (fval a.lo) (fval a.hi)
      s.fnFinish (cfCounter f.cf) f.d.toNat
        { lo := pb, hi := qb, te := a.te, lossy := a.lossy, n := n,
          coef := fun L => let h := ts.map (clenshaw (w.fnVals a L)); (List.range n).map (nodeCoef h),
          nan := fun L => (w.fnVals a L).any FV.isNan })

/-! ### Evaluation, roots, extrema (R202 to R204) -/

/-- FNEVAL's value in a lane (R202). -/
def Wave.fnEval (w : Wave) (h : FnHead) (x : FV) (L : Nat) : FV :=
  let lo := fval h.lo
  let hi := fval h.hi
  let x' := if w.fnctl.getLsbD 1 then x else if x.cmp lo < 0 then lo else if 0 < x.cmp hi then hi else x
  if x.isNan then .nan else clenshaw (w.fnVals h L) (fnNorm x' lo hi)

/-- FNEVAL (R202). -/
def execFneval (f : G64) (s : State) : Host.Outcome State Fault Refusal :=
  ok (run (.fneval f) s fun s =>
    let w := s.wave
    let h := w.fnHead f.a.toNat
    let x (L : Nat) : FV := fval (w.fb0 f L)
    if !h.defd then w.fnDomain 4
    else
      s.fnVector (cfCounter f.cf) f.d.toNat (fun L => fround 0 (w.fnEval h (x L) L)) fun L =>
        (w.fnEval h (x L) L).isNan && !((x L).isNan || (w.fnVals h L).any FV.isNan))

/-- FNROOT's value for the k-th root (R203, R403). -/
def fnRootOf (lo hi : Word) (c : List Word) (k : Nat) : Word :=
  let nan := fround 0 .nan
  match finiteRats (c.map fval) with
  | none => nan
  | some cs =>
    if cs.all (· == 0) then (if k = 1 then lo else nan)
    else
      let l := (fval lo).rat
      let h := (fval hi).rat
      if (cs.drop 2).all (· == 0) && cs.getD 1 0 != 0 then
        let x := (-(cs.getD 0 0) / cs.getD 1 0 * (h - l) + l + h) / 2
        if k = 1 && decide (l ≤ x) && decide (x ≤ h) then fround 0 (ratVal 64 x) else nan
      else
        let r := rootCount (chebPoly cs l h) l
        if k = 0 || r.upTo h < k then nan
        else
          let g := r.ceil k (fpIndex lo) (fpIndex hi)
          let x := Config.fnRoot lo hi c k
          if r.near k g x && decide (l ≤ (fval x).rat) && decide ((fval x).rat ≤ h) then x else fpAt g

/-- FNROOT: the NaN of a missing root raises nothing (R189, R203). -/
def execFnroot (f : G64) (s : State) : Host.Outcome State Fault Refusal :=
  ok (run (.fnroot f) s fun s =>
    let w := s.wave
    let h := w.fnHead f.a.toNat
    if !h.defd then w.fnDomain 4
    else
      s.fnVector (cfCounter f.cf) f.d.toNat
        (fun L => fnRootOf h.lo h.hi (w.fnCoef h L) (w.opB f L).toNat) fun L =>
          let cs := w.fnVals h L
          !cs.any FV.isNan && !cs.all FV.finite)

/-- The point at which FNEXT evaluates (R204): X where it is an end; otherwise one within 2 ulp of it. With a
coefficient that is not finite there is no X, and the point is any of the interval. -/
def fnPointOf (least : Bool) (lo hi : Word) (c : List Word) : Word :=
  let l := (fval lo).rat
  let h := (fval hi).rat
  let x := Config.fnPoint least lo hi c
  let inside := (fval x).finite && decide (l ≤ (fval x).rat) && decide ((fval x).rat ≤ h)
  match finiteRats (c.map fval) with
  | none => if inside then x else lo
  | some cs =>
    match greatestAt (chebPoly (if least then cs.map (-·) else cs) l h) l h with
    | .left => lo
    | .right => hi
    | .root r k =>
      let g := r.ceil k (fpIndex lo) (fpIndex hi)
      if r.near k g x && decide (l < (fval x).rat) && decide ((fval x).rat < h) then x
      else if g < fpIndex hi then fpAt g else fpAt (g - 1)

/-- FNEXT's value in a lane (R204). -/
def Wave.fnExt (w : Wave) (h : FnHead) (sub L : Nat) : FV :=
  let cs := w.fnVals h L
  match sub with
  | 2 => (rangeBound cs).2
  | 3 => (rangeBound cs).1
  | _ => clenshaw cs (fnNorm (fval (fnPointOf (sub == 1) h.lo h.hi (w.fnCoef h L))) (fval h.lo) (fval h.hi))

/-- FNEXT (R204). -/
def execFnext (f : G64) (s : State) : Host.Outcome State Fault Refusal :=
  ok (run (.fnext f) s fun s =>
    let w := s.wave
    let h := w.fnHead f.a.toNat
    if !h.defd then w.fnDomain 4
    else
      s.fnVector (cfCounter f.cf) f.d.toNat (fun L => fround 0 (w.fnExt h f.sub.toNat L)) fun L =>
        (w.fnExt h f.sub.toNat L).isNan && !(w.fnVals h L).any FV.isNan)

/-! ### Single coefficients (R205) -/

/-- FNCOEF (R205). -/
def execFncoef (f : G64) (s : State) : Host.Outcome State Fault Refusal :=
  ok (run (.fncoef f) s fun s =>
    let w := s.wave
    let k := (w.sop f.b).toNat
    match f.sub.toNat with
    | 0 =>
      let h := w.fnHead f.a.toNat
      if !h.defd then w.fnDomain 4
      else
        s.fnVector (cfCounter f.cf) f.d.toNat
          (fun L => if k < h.len then cget w.pool (64 * (h.off + k) + L) else 0) fun _ => false
    | 1 =>
      let h := w.fnHead f.d.toNat
      if w.act == 0 then .wave w
      else if !h.defd then w.fnDomain 4
      else if h.len ≤ k then w.illegal
      else s.fnAct (cfCounter f.cf) [.pool (h.off + k) w.act (w.perLane (w.fa0 f))] []
    | _ =>
      let h := w.fnHead f.a.toNat
      s.fnAct (cfCounter f.cf) []
        [.sreg f.d.toNat (if h.defd then BitVec.ofNat 32 h.len else 0), .scc h.lossy])

end Sys2Proof.Machine
end

