-- ==== Sys2Proof/Machine/Micropoly.lean ====
section
/-! DEFINITION. Dicing and shading: the frame table, bucket and patch records, Geodes and their grids, Garnet, spilling,
and DICE, GRIDACQ, GRIDREL, SPILL and BKT (R314 to R329, R334 to R340, R342 to R344, R438). -/

namespace Sys2Proof.Machine

/-! ### The device's accesses for a wave (R315, R438) -/

/-- A missing permission or another error of such an access reaches the wave as a deferred report, once for a page. -/
def State.gReport (s : State) (code detail va : Nat) : State :=
  if s.wave.reports.any fun r => r.code == code && r.detail == detail && r.addr.toNat / 4096 == va / 4096 then s
  else s.deferErr code detail va

/-- Reads bytes word by word; a page that the driver has declined, or that refuses the access, reads as 0, which the flag
says. -/
def State.greadGo (s : State) (va n : Nat) : Nat → Try (List Byte × Bool)
  | 0 => .ok s ([], false)
  | fuel + 1 =>
    if n = 0 then .ok s ([], false)
    else
      let k := min n (4 - va % 4)
      let piece : Try (List Byte × Bool) :=
        if s.wave.dropped.contains (va / 4096) then .ok s (List.replicate k 0, true)
        else
          match s.eio va k false How.load id with
          | .ok s bs => .ok s (bs, false)
          | .err c d a => .ok (s.gReport c d a) (List.replicate k 0, true)
          | .wait t => .wait t
          | .fault t a => .fault t a
      piece.andThen fun s x =>
        (s.greadGo (va + k) (n - k) fuel).andThen fun s y => .ok s (x.1 ++ y.1, x.2 || y.2)

/-- Reads bytes. [DEDUCED, log 151] -/
def State.gread (s : State) (va n : Nat) : Try (List Byte × Bool) := s.greadGo va n n

/-- Reads a number. -/
def State.gnum (s : State) (va n : Nat) : Try Nat := (s.gread va n).andThen fun s x => .ok s (ofBytes x.1)

/-- Writes bytes word by word; a write that is refused is not made. -/
def State.gwriteGo (s : State) (va : Nat) (bs : List Byte) : Nat → Try Bool
  | 0 => .ok s true
  | fuel + 1 =>
    if bs.isEmpty then .ok s true
    else
      let k := min bs.length (4 - va % 4)
      let piece : Try Bool :=
        if s.wave.dropped.contains (va / 4096) then .ok s false
        else
          match s.eio va k false How.store fun _ => bs.take k with
          | .ok s _ => .ok s true
          | .err c d a => .ok (s.gReport c d a) false
          | .wait t => .wait t
          | .fault t a => .fault t a
      piece.andThen fun s _ => s.gwriteGo (va + k) (bs.drop k) fuel

/-- Writes bytes. -/
def State.gwrite (s : State) (va : Nat) (bs : List Byte) : Try Bool := s.gwriteGo va bs bs.length

/-- Writes a number. -/
def State.gput (s : State) (va n x : Nat) : Try Bool := s.gwrite va (toBytes x n)

/-- A write of the device for the wave in focus is a release at module scope of what `vc` says (R326, R330, R335). -/
def State.relAt (s : State) (va n : Nat) (vc : Vec) : State :=
  match s.peek TransReg.reset va with
  | some (t, o) => s.writeRel (s.accKey t o) n true [(4, vc)]
  | none => s

/-- The write of BKT.close is one that every read of BSTATE that sees it takes (R352). -/
def State.relEvery (s : State) (va n : Nat) (vc : Vec) : State :=
  match s.peek TransReg.reset va with
  | some (t, o) =>
    let w := s.wave
    let m : RelMsg := { core := w.core, slot := w.slot, launch := w.launch, uid := w.uid, scope := 4, vc := vc, every := true }
    { s with rel := (relUnits (s.accKey t o) n).foldl (fun l u => tset l u (addMsg (tget [] l u) m)) s.rel }
  | none => s

/-- A read of the device for the wave in focus is an acquire at module scope (R335). -/
def State.acqAt (s : State) (va n : Nat) : State :=
  s.acqVa va n 4

/-- A held instruction of these units: done, or tested again; a translation fault is reported with KIND 3 and answered
before it goes on (R342, R438). [DEDUCED, log 86] -/
def State.heldDev {α : Type} (s : State) (t : Try α) (k : State → α → Act) : Act :=
  match t with
  | .ok s a => k s a
  | .wait t => (s.asks t).hold
  | .fault _ va =>
    let (s, tag) := s.reportFault s.wave.core va 3
    .stay { s with wave := { s.wave with hold := .fault (bv va) tag 8 } }
  | .err c d a => .trap c d (bv a)

/-- The first of a list for which a step answers. -/
def firstTry {α β : Type} (s : State) (f : State → α → Try (Option β)) : List α → Try (Option β)
  | [] => .ok s none
  | x :: l => (f s x).andThen fun s r => match r with
    | some b => .ok s (some b)
    | none => firstTry s f l

/-- A step for each of a list, in order. -/
def eachTry {α : Type} (s : State) (f : State → α → Try Bool) : List α → Try Bool
  | [] => .ok s true
  | x :: l => (f s x).andThen fun s _ => eachTry s f l

/-! ### Frames and buckets (R314, R315) -/

/-- The number that an FP32 word is; one that is not finite counts as 0. -/
def fnum (x : Word) : Rat := (fval x).rat

/-- A frame header. -/
structure Frame where
  at_ : Nat
  fx : Word
  fy : Word
  cx : Word
  cy : Word
  aper : Word
  focus : Word
  near : Word
  spp : Nat
  seed : Word
  width : Nat
  height : Nat
  psbase : Nat
  deriving DecidableEq, Repr

/-- The header in its first 48 bytes. -/
def frameOf (at_ : Nat) (h : List Byte) : Frame :=
  let num (i n : Nat) : Nat := ofBytes ((h.drop i).take n)
  let word (i : Nat) : Word := BitVec.ofNat 32 (num i 4)
  { at_ := at_, fx := word 0, fy := word 4, cx := word 8, cy := word 12, aper := word 16, focus := word 20, near := word 24,
    spp := num 28 1, seed := word 32, width := num 36 2, height := num 38 2, psbase := num 40 8 }

/-- Reads a frame header. -/
def State.gframe (s : State) (at_ : Nat) : Try Frame := (s.gread at_ 48).andThen fun s h => .ok s (frameOf at_ h.1)

def Frame.cols (f : Frame) : Nat := (f.width + 31) / 32
def Frame.rows (f : Frame) : Nat := (f.height + 31) / 32
/-- Samples of a pixel. -/
def Frame.samples (f : Frame) : Nat := match f.spp with
  | 0 => 1
  | 1 => 4
  | 2 => 16
  | 3 => 32
  | _ => 64
/-- Record of a bucket. -/
def Frame.rec_ (f : Frame) (b : Nat) : Nat := f.at_ + 256 + 64 * b
/-- Bucket of a column and row, in serpentine order. -/
def Frame.bucket (f : Frame) (c r : Nat) : Nat := r * f.cols + if r % 2 = 0 then c else f.cols - 1 - c
/-- First pixel of a bucket. -/
def Frame.origin (f : Frame) (b : Nat) : Nat × Nat :=
  let r := b / f.cols
  let k := b % f.cols
  (32 * (if r % 2 = 0 then k else f.cols - 1 - k), 32 * r)

/-- Does the header hold a reserved value (R314, R334)? `h` is its 256 bytes. -/
def Frame.bad (f : Frame) (h : List Byte) : Bool :=
  let pos (x : Word) : Bool := decide (0 < fnum x)
  let zeros (i n : Nat) : Bool := ((h.drop i).take n).all (· == 0)
  4 < f.spp || !zeros 29 3 || !zeros 56 200 || 16384 < f.cols * f.rows ||
    !([f.fx, f.fy, f.cx, f.cy, f.aper, f.focus, f.near].all fun x => (fval x).finite) ||
    decide (fnum f.aper < 0) || !pos f.focus || !pos f.near

/-- Buckets of a rectangle of columns and rows, in serpentine order, within the frame. -/
def Frame.bucketsIn (f : Frame) (c0 r0 c1 r1 : Nat) : List Nat :=
  (List.range f.rows).flatMap fun r =>
    if r0 ≤ r && r ≤ r1 then
      let cs := (List.range f.cols).filter fun c => c0 ≤ c && c ≤ c1
      (if r % 2 = 0 then cs else cs.reverse).map fun c => f.bucket c r
    else []

/-! ### Handles (R318, R334) -/

def handleDie (h : Word) : Nat := bits h 31 30
def handleGeode (h : Word) : Nat := bits h 29 26
def gridSlot (h : Word) : Nat := bits h 25 19
/-- A bucket handle. -/
def bucketHandle (d g b : Nat) : Word := BitVec.ofNat 32 (d * 2 ^ 30 + g * 2 ^ 26 + b)

/-- A Geode of a die. -/
def State.geode (s : State) (d g : Nat) : Geode := tget Geode.reset (s.die d).geodes g
def State.setGeode (s : State) (d g : Nat) (x : Geode) : State :=
  let di := s.die d
  s.setDie d { di with geodes := tset di.geodes g x }

/-- A slot of a Geode. -/
def Geode.slot (x : Geode) (n : Nat) : GridSlot := tget { serial := 0, grid := none, vc := [] } x.slots n

/-- Frame table address and bucket index of an open bucket; `own` asks that it be open on this die (R334). -/
def State.openBucket (s : State) (h : Word) (own : Bool) : Option (Nat × Nat) :=
  let d := handleDie h
  match (s.geode d (handleGeode h)).open_ with
  | some (ft, b) =>
    if bits h 25 14 == 0 && bits h 13 0 == b && (!own || d == dieOf s.wave.core) then some (ft, b) else none
  | none => none

/-- ILLEGAL_OPERAND with a detail of R334. -/
def Wave.gridBad (w : Wave) (d : Nat) : Act := w.trapHere 2 (0x0B00 + d)

/-- A live grid. -/
def State.grid (s : State) (h : Word) : Option Grid := tfind (s.die (handleDie h)).grids h.toNat

/-- Byte of its Geode at which a grid's slot begins. -/
def State.slotAt (s : State) (h : Word) : Nat := gridSlot h * slotBytes (s.die (handleDie h)).gcfg

/-- Replaces a grid, and the bytes of its header that the device keeps while it holds its slot (R319, R344). -/
def State.putGrid (s : State) (g : Grid) : State :=
  let d := handleDie g.handle
  let di := s.die d
  let s := s.setDie d { di with grids := tset di.grids g.handle.toNat g }
  if g.inSlot then
    let x := s.geode d (handleGeode g.handle)
    let a := s.slotAt g.handle
    let c := csetList x.bytes (a + 4) (toBytes g.state 1)
    let c := csetList c (a + 6) (toBytes g.refs 2)
    let c := csetList c (a + 18) (toBytes g.infl 2)
    let c := csetList c (a + 48) (toBytes g.spaddr 8)
    s.setGeode d (handleGeode g.handle) { x with bytes := c }
  else s

/-- A grid leaves its slot, which another will take (R318). -/
def State.unslot (s : State) (g : Grid) : State :=
  let d := handleDie g.handle
  let x := s.geode d (handleGeode g.handle)
  let n := gridSlot g.handle
  s.setGeode d (handleGeode g.handle) { x with slots := tset x.slots n { x.slot n with grid := none } }

/-- The lines of a unit of frame space lose their counted copies and its seal (R251, R329). [DEDUCED, log 93] -/
def State.unsealUnit (s : State) (pa : Nat) : State :=
  let lines := (List.range 32).map fun i => (s.devAt (pa + 128 * i)).2 / 128
  let s := lines.foldl (fun s i => s.callBack i) s
  let drop (c : Core) : Core := { c with counted := c.counted.filter fun i => !lines.contains i }
  { s with seals := cset s.seals (s.sealFrame pa) 0, cores := s.cores.map fun c => (c.1, drop c.2) }

/-- A grid is freed: its handle is dead, its slot FREE, its spill units unsealed and returned (R318, R329). -/
def State.freeGrid (s : State) (g : Grid) : State :=
  let d := handleDie g.handle
  let s := if g.inSlot then (s.putGrid { g with state := 0 }).unslot g else s
  let di := s.die d
  let mine := di.spillUsed.filter fun u => u.2.1 == g.handle.toNat
  let s := s.setDie d { di with
    grids := tdel di.grids g.handle.toNat, spillUsed := di.spillUsed.filter fun u => u.2.1 != g.handle.toNat }
  mine.foldl (fun s u => s.unsealUnit u.2.2) s

/-! ### Spilling (R329) -/

/-- The physical address of a spill unit that can be used, if it can. -/
def State.spillUnit (s : State) (d u : Nat) : Option Nat :=
  if (s.die d).spillUsed.any fun x => x.1 == u then none
  else
    match s.walk (4096 * u) with
    | .leaf t => if t.kind == 1 && t.perm.getLsbD 0 && t.perm.getLsbD 1 then some t.pbase.toNat else none
    | _ => none

/-- Is a unit unusable as a page: not mapped, or not write-once with READ and W? -/
def State.spillBad (s : State) (u : Nat) : Bool :=
  match s.walk (4096 * u) with
  | .leaf t => !(t.kind == 1 && t.perm.getLsbD 0 && t.perm.getLsbD 1)
  | _ => true

/-- Reports each unusable unit once (R329). -/
def State.noteBad (s : State) (d : Nat) (us : List Nat) : State :=
  us.foldl (fun s u =>
    let di := s.die d
    if s.spillBad u && !di.badUnits.contains u then
      (s.setDie d { di with badUnits := di.badUnits ++ [u] }).boxRecord d (unitRecord 14 0 0 s.clock (bv (4096 * u)))
    else s) s

/-- First unit and number of units of a die's spill area (R317). -/
def Die.spillArea (d : Die) : Nat × Nat := (bits d.gsp 51 21 * 512, bits d.gsp 11 0 * 512)

/-- The first unit of the lowest run of `k` free units. -/
def State.spillRun (s : State) (d k : Nat) : Option Nat :=
  let (base, n) := (s.die d).spillArea
  ((List.range (n + 1 - k)).find? fun i => decide (k ≤ n) && (List.range k).all fun j => (s.spillUnit d (base + i + j)).isSome).map
    fun i => base + i

/-- Spills a grid that holds its slot and has INFL 0: copies the slot, seals its units, and moves the grid on; false: there
is no room. -/
def State.spill (s : State) (g : Grid) : Try Bool :=
  let d := handleDie g.handle
  let k := slotBytes (s.die d).gcfg / 4096
  let (base, n) := (s.die d).spillArea
  match s.spillRun d k with
  | none => .ok (s.noteBad d ((List.range n).map fun i => base + i)) false
  | some u =>
    let s := s.noteBad d ((List.range (u - base)).map fun i => base + i)
    let bs := cgetList (s.geode d (handleGeode g.handle)).bytes (s.slotAt g.handle) (4096 * k)
    (eachTry s (fun s i => s.gwrite (4096 * u + 4 * i) ((bs.drop (4 * i)).take 4)) (List.range (1024 * k))).andThen fun s _ =>
      let us := (List.range k).filterMap fun j => (s.spillUnit d (u + j)).map fun pa => (u + j, g.handle.toNat, pa)
      let di := s.die d
      let s := s.setDie d { di with spillUsed := di.spillUsed ++ us }
      let sealed := us.foldl (fun c (x : Nat × Nat × Nat) => cset c (s.sealFrame x.2.2) 1) s.seals
      let s := { s with seals := sealed, fresh := s.fresh + 1 }
      .ok (s.putGrid { g with state := 4, spaddr := 4096 * u, spilled := s.fresh }) true

/-! ### Patches (R316) -/

/-- A patch: control points as coefficient lists of each coordinate. -/
structure Patch where
  kind : Nat
  mlen : Nat
  aux : Nat
  dbound : Word
  user : List Byte
  c0 : Nat
  r0 : Nat
  c1 : Nat
  r1 : Nat
  pts : List (List (List Word))
  deriving DecidableEq, Repr

/-- Bytes of a vertex record (R319). -/
def Patch.stride (p : Patch) : Nat := up16 (12 * p.mlen + 16 + 4 * p.aux)

/-- Bytes of a grid of n by m micropolygons. -/
def Patch.gridBytes (p : Patch) (n m : Nat) : Nat := 256 + (n + 1) * (m + 1) * p.stride

/-- Number of control points of a kind. -/
def patchPoints (kind : Nat) : Nat := match kind with
  | 0 => 16
  | 1 => 4
  | _ => 3

/-- The bucket rectangle in a patch header: first column and row, last column and row. -/
def rectOf (h : List Byte) : Nat × Nat × Nat × Nat :=
  let num (i : Nat) : Nat := ofBytes ((h.drop i).take 2)
  (num 16, num 18, num 20, num 22)

/-- A patch from its header and the words of its points, unless its checks drop it (R322 step 1). -/
def patchOf (f : Frame) (h : List Byte) (ws : List Word) : Option Patch :=
  let num (i n : Nat) : Nat := ofBytes ((h.drop i).take n)
  let (c0, r0, c1, r1) := rectOf h
  let ml := num 2 1
  let db : Word := BitVec.ofNat 32 (num 4 4)
  let p : Patch :=
    { kind := num 0 1, mlen := ml, aux := num 3 1, dbound := db, user := (h.drop 8).take 8, c0 := c0, r0 := r0, c1 := c1,
      r1 := r1,
      pts := (List.range (patchPoints (num 0 1))).map fun i => (List.range 3).map fun c => (ws.drop ((3 * i + c) * ml)).take ml }
  let ok := p.kind ≤ 2 && num 1 1 ≤ 1 && 1 ≤ ml && ml ≤ 4 && (ml == 1 || num 1 1 == 1) && p.aux ≤ 16 && (fval db).finite &&
    decide (0 ≤ fnum db) && (h.drop 24).all (· == 0) && c0 ≤ c1 && c1 < f.cols && r0 ≤ r1 && r1 < f.rows &&
    ws.all fun x => (fval x).finite
  if ok then some p else none

/-- Reads a patch; what cannot be read drops it (R438). -/
def State.gpatch (s : State) (f : Frame) (va : Nat) : Try (Option Patch) :=
  (s.gread va 128).andThen fun s h =>
    let n := 12 * patchPoints (ofBytes (h.1.take 1)) * (ofBytes ((h.1.drop 2).take 1))
    if h.2 || 768 < n then .ok s none
    else (s.gread (va + 128) n).andThen fun s w => .ok s (if w.2 then none else patchOf f h.1 (wordsOf w.1))

/-- Cubic Bernstein polynomials. -/
def bernstein (t : Rat) : List Rat :=
  let u := 1 - t
  [u * u * u, 3 * t * u * u, 3 * t * t * u, t * t * t]

/-- Weights of the control points at (u, v). -/
def Patch.weights (p : Patch) (u v : Rat) : List (Nat × Rat) :=
  if p.kind = 0 then
    let a := bernstein u
    let b := bernstein v
    (List.range 16).map fun n => (n, a.getD (n % 4) 0 * b.getD (n / 4) 0)
  else [(0, (1 - u) * (1 - v)), (1, u * (1 - v)), (2, (1 - u) * v), (if p.kind = 1 then 3 else 2, u * v)]

/-- The coefficients of a vertex: each basis sum exact, rounded once (R316). -/
def Patch.vertex (p : Patch) (u v : Rat) : List (List Word) :=
  let ws := p.weights u v
  (List.range 3).map fun c => (List.range p.mlen).map fun k =>
    fround 0 (ratVal 64 ((ws.map fun x => x.2 * fnum (((p.pts.getD x.1 []).getD c []).getD k 0)).sum))

/-! ### The estimate (R322 step 2) -/

/-- The point where the pinhole projects a vertex at shutter time 0.5; none: at or before NEAR, or not finite. -/
def Frame.pinhole (f : Frame) (cs : List (List Word)) : Option (Rat × Rat) :=
  match cs.map fun c => clenshaw (c.map fval) (.num false 0 0) with
  | [x, y, z] =>
    if !(x.finite && y.finite && z.finite) || decide (z.rat ≤ fnum f.near) then none
    else
      let sx := fnum f.cx + fnum f.fx * x.rat / z.rat
      let sy := fnum f.cy + fnum f.fy * y.rat / z.rat
      if (fp32.val (fp32.round 0 (ratVal 64 sx))).finite && (fp32.val (fp32.round 0 (ratVal 64 sy))).finite then some (sx, sy)
      else none
  | _ => none

/-- Squared distance. -/
def dist2 (a b : Rat × Rat) : Rat := (a.1 - b.1) * (a.1 - b.1) + (a.2 - b.2) * (a.2 - b.2)

/-- max(1, ⌈(√a + √b) / r⌉), with 33 for all that is above 32. -/
def edgeCount (a b r : Rat) : Nat :=
  (((List.range 32).map fun (n : Nat) => n + 1).find? (fun (n : Nat) =>
    let x := (n : Rat) * r * ((n : Rat) * r) - a - b
    decide (0 ≤ x) && decide (4 * a * b ≤ x * x))).getD 33

/-- nu and nv of a range. [DEDUCED, log 85] -/
def Frame.estimate (f : Frame) (p : Patch) (rate : Rat) (u0 u1 v0 v1 : Rat) : Nat × Nat :=
  let us := [u0, (u0 + u1) / 2, u1]
  let vs := [v0, (v0 + v1) / 2, v1]
  let pts := vs.map fun v => us.map fun u => f.pinhole (p.vertex u v)
  if pts.any fun row => row.any Option.isNone then (33, 33)
  else
    let at_ (j i : Nat) : Rat × Rat := ((pts.getD j []).getD i none).getD (0, 0)
    let nu := [0, 1, 2].map fun j => edgeCount (dist2 (at_ j 0) (at_ j 1)) (dist2 (at_ j 1) (at_ j 2)) rate
    let nv := [0, 1, 2].map fun i => edgeCount (dist2 (at_ 0 i) (at_ 1 i)) (dist2 (at_ 1 i) (at_ 2 i)) rate
    (nu.foldl max 1, nv.foldl max 1)

/-! ### Bounds and registration (R324, R325) -/

/-- The whole frame. -/
def Frame.whole (f : Frame) : List Word :=
  [0, 0, fround 0 (FV.ofInt (f.width : Nat)), fround 0 (FV.ofInt (f.height : Nat))]

/-- Least and greatest of a list that is not empty. -/
def ratMin (l : List Rat) : Rat := l.foldl min (l.headD 0)
def ratMax (l : List Rat) : Rat := l.foldl max (l.headD 0)

/-- Absolute value of a rational. -/
def ratAbs (x : Rat) : Rat := if x < 0 then -x else x

/-- Is an interval finite when its ends are rounded outward to FP32 (R324)? -/
def spanFinite (p : Rat × Rat) : Bool := (fval (fround 2 (ratVal 64 p.1))).finite && (fval (fround 3 (ratVal 64 p.2))).finite

/-- The box of a vertex: the series bound of each coordinate, widened by `db`; none: a coefficient or an end is not finite. -/
def vertexBox (cs : List (List Word)) (db : Rat) : Option (List (Rat × Rat)) :=
  if cs.any fun c => c.any fun x => !(fval x).finite then none
  else
    let box := cs.map fun c =>
      let r := ((c.drop 1).map fun x => ratAbs (fnum x)).sum + db
      (fnum (c.headD 0) - r, fnum (c.headD 0) + r)
    if box.all spanFinite then some box else none

/-- A grid's bound: xmin, ymin, xmax, ymax (R324). -/
def Frame.bound (f : Frame) (vs : List (List (List Word))) (db : Rat) : List Word :=
  let boxes := vs.map fun v => vertexBox v db
  if boxes.any Option.isNone then f.whole
  else
    let bs := boxes.filterMap id
    let side (b : List (Rat × Rat)) (i : Nat) : Rat × Rat := b.getD i (0, 0)
    if bs.any fun b => decide ((side b 2).1 ≤ fnum f.near) then f.whole
    else
      let ends (p : Rat × Rat) : List Rat := [p.1, p.2]
      let inv := 1 / fnum f.focus
      let rect (c k : Word) (i : Nat) (b : List (Rat × Rat)) : (Rat × Rat) × (Rat × Rat) :=
        let ps := (ends (side b 2)).flatMap fun z => (ends (side b i)).map fun x => fnum c + fnum k * x / z
        let w := ratAbs (fnum k) * fnum f.aper * ratMax ((ends (side b 2)).map fun z => ratAbs (inv - 1 / z))
        ((ratMin ps, ratMax ps), (ratMin ps - w, ratMax ps + w))
      let xs := bs.map (rect f.cx f.fx 0)
      let ys := bs.map (rect f.cy f.fy 1)
      if !(xs ++ ys).all fun x => spanFinite x.1 && spanFinite x.2 then f.whole
      else
        [fround 2 (ratVal 64 (ratMin (xs.map (·.2.1)))), fround 2 (ratVal 64 (ratMin (ys.map (·.2.1)))),
          fround 3 (ratVal 64 (ratMax (xs.map (·.2.2)))), fround 3 (ratVal 64 (ratMax (ys.map (·.2.2))))]

/-- Buckets that a bound covers, clipped to a rectangle. -/
def Frame.covers (f : Frame) (b : List Word) (c0 r0 c1 r1 : Nat) : List Nat :=
  let lo (i : Nat) : Int := (fnum (b.getD i 0) / 32).floor
  let hi (i : Nat) : Int := (fnum (b.getD i 0) / 32).ceil - 1
  (f.bucketsIn c0 r0 c1 r1).filter fun n =>
    let (x, y) := f.origin n
    decide (lo 0 ≤ (x / 32 : Nat)) && decide (((x / 32 : Nat) : Int) ≤ hi 2) && decide (lo 1 ≤ (y / 32 : Nat)) &&
      decide (((y / 32 : Nat) : Int) ≤ hi 3)

/-- The entries of a bucket's grid list: handle, flags, address. -/
def State.gentries (s : State) (glist n : Nat) : Try (List (Nat × Nat × Nat)) :=
  (s.gread glist (8 * n)).andThen fun s x =>
    .ok s ((List.range n).map fun k =>
      (ofBytes ((x.1.drop (8 * k)).take 4), ofBytes ((x.1.drop (8 * k + 4)).take 4), glist + 8 * k))

/-- Registers a grid in one bucket (R325); GRIDREL passes over a bucket whose list holds it. True when REFS rises. -/
def State.register (s : State) (f : Frame) (g : Grid) (dice : Bool) (b : Nat) : Try Bool :=
  let r := f.rec_ b
  (s.gread r 64).andThen fun s x =>
    let num (i n : Nat) : Nat := ofBytes ((x.1.drop i).take n)
    let glist := num 24 8
    let count := num 36 4
    (if dice then Try.ok s [] else s.gentries glist count).andThen fun s es =>
      if es.any fun e => e.1 == g.handle.toNat then .ok s false
      else if num 40 4 % 4 == 2 || num 32 4 ≤ count then
        (s.gnum (f.at_ + 48) 4).andThen fun s n => (s.gput (f.at_ + 48) 4 (n + 1)).andThen fun s _ => .ok s false
      else
        (s.gput (glist + 8 * count) 8 g.handle.toNat).andThen fun s _ =>
          (s.gput (r + 36) 4 (count + 1)).andThen fun s _ => .ok s true

/-- Registers a grid in these buckets; the number by which REFS rises. -/
def State.registerAll (s : State) (f : Frame) (g : Grid) (dice : Bool) : List Nat → Try Nat
  | [] => .ok s 0
  | b :: l => (s.register f g dice b).andThen fun s x =>
    (s.registerAll f g dice l).andThen fun s n => .ok s (n + if x then 1 else 0)

/-- PEND of the buckets of a patch but its home goes down, in one release (R326). [DEDUCED, log 92] -/
def State.releasePatch (s : State) (f : Frame) (prec home : Nat) : Try Bool :=
  (s.gread prec 24).andThen fun s h =>
    if h.2 then .ok s false
    else
      let (c0, r0, c1, r1) := rectOf h.1
      let vc := s.wave.hb
      eachTry s (fun s b =>
        if b = home then .ok s true
        else
          let a := f.rec_ b + 12
          (s.gnum a 4).andThen fun s n => (s.gput a 4 (n + 2 ^ 32 - 1)).andThen fun s x =>
            .ok (s.relAt a 4 vc) x) (f.bucketsIn c0 r0 c1 r1)

/-! ### Garnet (R321 to R323, R343) -/

/-- What a DICE will do to the OUT word of a patch at its end: its number, its record, whether the patch was begun here, and
the change. -/
structure OutChange where
  num : Nat
  prec : Nat
  begun : Bool
  delta : Int
  deriving DecidableEq, Repr

/-- Notes a change of OUT. -/
def noteOut (l : List OutChange) (n prec : Nat) (begun : Bool) (d : Int) : List OutChange :=
  if l.any fun c => c.num == n then
    l.map fun c => if c.num == n then (if begun then { c with begun := true, delta := d } else { c with delta := c.delta + d }) else c
  else l ++ [{ num := n, prec := prec, begun := begun, delta := d }]

/-- Applies the changes; a patch whose OUT reaches 0 releases its buckets (R326, R343). -/
def State.applyOut (s : State) (f : Frame) (home : Nat) (l : List OutChange) : Try Bool :=
  eachTry s (fun s c =>
    let a := f.psbase + 4 * c.num
    (if c.begun then Try.ok s 0 else s.gnum a 4).andThen fun s n =>
      let x := wrap 32 ((n : Int) + c.delta)
      (s.gput a 4 x).andThen fun s r => if x = 0 then s.releasePatch f c.prec home else .ok s r) l

/-- The range to work on next: the top of the split stack, or the next patch (R321). -/
def State.nextRange (s : State) (f : Frame) (d g b : Nat) : Try (Option (Range × Bool)) :=
  let x := s.geode d g
  match x.stack with
  | r :: l => .ok (s.setGeode d g { x with stack := l }) (some (r, false))
  | [] =>
    (s.gread (f.rec_ b) 12).andThen fun s h =>
      if ofBytes ((h.1.drop 8).take 4) ≤ x.next then .ok s none
      else
        (s.gread (ofBytes (h.1.take 8) + 16 * x.next) 16).andThen fun s e =>
          let x := s.geode d g
          let r : Range :=
            { patch := BitVec.ofNat 64 (ofBytes (e.1.take 8)), pnum := BitVec.ofNat 32 (ofBytes ((e.1.drop 8).take 4)),
              u0 := 0, u1 := 0x3F800000, v0 := 0, v1 := 0x3F800000, depth := 0 }
          .ok (s.setGeode d g { x with next := x.next + 1 }) (some (r, true))

/-- The pieces of a range that is split, the first to be popped first (R322 step 3). -/
def Range.split (r : Range) (nu nv : Nat) : List Range :=
  let mid (a b : Word) : Word := fround 0 (ratVal 64 ((fnum a + fnum b) / 2))
  let um := mid r.u0 r.u1
  let vm := mid r.v0 r.v1
  let r := { r with depth := r.depth + 1 }
  if 32 < nu && 32 < nv then
    [{ r with u1 := um, v1 := vm }, { r with u1 := um, v0 := vm }, { r with u0 := um, v1 := vm }, { r with u0 := um, v0 := vm }]
  else if 32 < nu || (nv ≤ 32 && nv ≤ nu) then [{ r with u1 := um }, { r with u0 := um }]
  else [{ r with v1 := vm }, { r with v0 := vm }]

/-- Grids that hold a slot of a Geode, in slot order. -/
def State.slotGrids (s : State) (d g : Nat) : List (Nat × Grid) :=
  (List.range (bits (s.die d).gcfg 16 10)).filterMap fun n =>
    ((s.geode d g).slot n).grid.bind fun h => (tfind (s.die d).grids h).map fun x => (n, x)

/-- Puts an item in the order of a key. -/
def insertBy {α : Type} (key : α → Nat) (x : α) : List α → List α
  | [] => [x]
  | y :: l => if key x < key y then x :: y :: l else y :: insertBy key x l

/-- A list in the order of a key, the first of equals first. -/
def sortBy {α : Type} (key : α → Nat) (l : List α) : List α := l.foldl (fun a x => insertBy key x a) []

/-- A slot for the next grid: FREE, SPILLED, or spilled now (R322 step 5); none: Garnet stalls. -/
def State.slotFor (s : State) (d g : Nat) : Try (Option Nat) :=
  let gs := s.slotGrids d g
  match (List.range (bits (s.die d).gcfg 16 10)).find? fun n => !gs.any fun x => x.1 == n with
  | some n => .ok s (some n)
  | none =>
    let leave (s : State) (x : Nat × Grid) : State := (s.putGrid { x.2 with inSlot := false }).unslot x.2
    match sortBy (fun (x : Nat × Grid) => x.2.spilled) (gs.filter fun x => x.2.state == 4) with
    | x :: _ => .ok (leave s x) (some x.1)
    | [] =>
      firstTry s (fun s x => (s.spill x.2).andThen fun s ok =>
        match (if ok then s.grid x.2.handle else none) with
        | some y => .ok (leave s (x.1, y)) (some x.1)
        | none => .ok s none)
        (sortBy (fun (x : Nat × Grid) => x.2.released) (gs.filter fun x => x.2.state == 3 && x.2.infl == 0))

/-- The bytes of a vertex record (R319). -/
def vertexBytes (cs : List (List Word)) (u v : Word) (stride : Nat) : List Byte :=
  let b := cs.flatten.flatMap (fun x => toBytes x.toNat 4) ++ toBytes u.toNat 4 ++ toBytes v.toNat 4
  b ++ List.replicate (stride - b.length) 0

/-- Dices a range into a slot and registers the grid (R322 step 6, R324, R325, R344): its handle. The wave takes what the RASTs of
the slot's earlier grids had before their end (R352). -/
def State.placeGrid (s : State) (f : Frame) (d g b n : Nat) (r : Range) (p : Patch) (nu nv : Nat) : Try Word :=
  let x := s.geode d g
  let serial := (x.slot n).serial + 1
  let h : Word := BitVec.ofNat 32 (d * 2 ^ 30 + g * 2 ^ 26 + n * 2 ^ 19 + serial.toNat)
  let at_ (a b : Word) (i k : Nat) : Word := fround 0 (ratVal 64 (fnum a + (fnum b - fnum a) * i / k))
  let pts := (cellsOf (nv + 1) (nu + 1)).map fun q => (at_ r.u0 r.u1 q.2 nu, at_ r.v0 r.v1 q.1 nv)
  let vs := pts.map fun q => (p.vertex (fnum q.1) (fnum q.2), q)
  let bound := f.bound (vs.map (·.1)) (fnum p.dbound)
  let head := toBytes h.toNat 4 ++ toBytes 1 1 ++ toBytes p.mlen 1 ++ toBytes 0 2 ++ toBytes r.pnum.toNat 4 ++ toBytes nu 1 ++
    toBytes nv 1 ++ toBytes p.aux 1 ++ [0] ++ toBytes p.stride 2 ++ toBytes 0 6 ++ toBytes r.patch.toNat 8 ++
    bound.flatMap (fun w => toBytes w.toNat 4) ++ toBytes 0 8 ++ p.user ++ List.replicate 192 0
  let body := vs.flatMap fun v => vertexBytes v.1 v.2.1 v.2.2 p.stride
  let bytes := csetList x.bytes (n * slotBytes (s.die d).gcfg) (head ++ body)
  let s := s.setGeode d g { x with slots := tset x.slots n { serial := serial, grid := some h.toNat, vc := [] }, bytes := bytes }
  let s := { s with wave := s.wave.joinHb (x.slot n).vc }
  let gr : Grid :=
    { handle := h, inSlot := true, state := 1, refs := 0, infl := 0, patch := r.pnum, prec := r.patch, nu := nu, nv := nv,
      mlen := p.mlen, stride := p.stride, frame := f.at_, home := b, spaddr := 0, diced := s.fresh, released := 0, spilled := 0,
      vc := [] }
  let s := State.putGrid { s with fresh := s.fresh + 1 } gr
  (s.registerAll f gr true (f.covers bound p.c0 p.r0 p.c1 p.r1)).andThen fun s k => .ok (s.putGrid { gr with refs := k }) h

/-- What a DICE comes to. [DEDUCED, log 84] -/
inductive Diced where
  /-- A grid has been placed. -/
  | grid (h : Word)
  /-- The work is empty. -/
  | empty
  /-- Garnet stalls for a slot. -/
  | stall
  deriving DecidableEq, Repr

/-- A patch, or a range of it, is dropped: DROP goes up (R322 steps 1 and 4). -/
def State.dropRange (s : State) (f : Frame) : Try Bool :=
  (s.gnum (f.at_ + 52) 4).andThen fun s n => s.gput (f.at_ + 52) 4 (n + 1)

/-- Garnet's work on a bucket until a grid is placed, in at most so many ranges (R321, R322). -/
def State.garnet (s : State) (f : Frame) (d g b : Nat) : Nat → List OutChange → Try (Diced × List OutChange)
  | 0, out => .ok s (.stall, out)
  | fuel + 1, out =>
    (s.nextRange f d g b).andThen fun s x =>
      match x with
      | none => .ok s (.empty, out)
      | some (r, begun) =>
        let n := r.pnum.toNat
        let va := r.patch.toNat
        let out := if begun then noteOut out n va true 1 else out
        (s.gpatch f va).andThen fun s p =>
          match p with
          | none => (s.dropRange f).andThen fun s _ => s.garnet f d g b fuel (noteOut out n va false (-1))
          | some p =>
            let (nu, nv) := f.estimate p (fnum (s.die d).grate) (fnum r.u0) (fnum r.u1) (fnum r.v0) (fnum r.v1)
            let sz := slotBytes (s.die d).gcfg
            let mu := min nu 32
            let mv := min nv 32
            if r.depth < 12 && (32 < nu || 32 < nv || sz < p.gridBytes mu mv) then
              let ps := r.split nu nv
              let y := s.geode d g
              State.garnet (s.setGeode d g { y with stack := ps ++ y.stack }) f d g b fuel
                (noteOut out n va false ((ps.length : Int) - 1))
            else if sz < p.gridBytes mu mv then
              (s.dropRange f).andThen fun s _ => s.garnet f d g b fuel (noteOut out n va false (-1))
            else
              (s.slotFor d g).andThen fun s t =>
                match t with
                | none => .ok s (.stall, out)
                | some k => (s.placeGrid f d g b k r p mu mv).andThen fun s h => .ok s (.grid h, out)

/-- A count in memory, as it stands. -/
def State.countAt (s : State) (va : Nat) : Nat :=
  match s.peek TransReg.reset va with
  | some (t, o) => s.devNat (t.ppage + o) 4
  | none => 0

/-- Ranges that a DICE can meet at most: those on the stack and every patch still to come, each with every split of it. -/
def State.garnetFuel (s : State) (f : Frame) (d g b : Nat) : Nat :=
  ((s.geode d g).stack.length + s.countAt (f.rec_ b + 8) + 1) * 4 ^ 13

/-- Does the wave hold a DICE on a Geode that issued before this number (R323)? -/
def Wave.dicesBefore (w : Wave) (d g since : Nat) : Bool :=
  match w.held with
  | some h =>
    match h.ins with
    | .dice f =>
      let x := (w.asHeld h).sop f.a
      handleDie x == d && handleGeode x == g && decide (h.since < since)
    | _ => false
  | none => false

/-- What a DICE that stalls keeps of its attempt: the spill-area units that it has found unusable, with their records (R329). -/
def State.keepBad (s t : State) (d : Nat) : State :=
  let x := t.die d
  s.setDie d { s.die d with badUnits := x.badUnits, box := x.box, wcount := x.wcount }

/-- DICE (R321 to R323, R336, R343). -/
def execDice (f : G64) (s : State) : Host.Outcome State Fault Refusal :=
  ok (run (.dice f) s fun s =>
    let w := s.wave
    let h := w.sop f.a
    let d := handleDie h
    let g := handleGeode h
    let since := (w.held.map Held.since).getD s.fresh
    let first := !s.waves.any fun v => v.dicesBefore d g since
    let held (s : State) : Act :=
      .stay { s with wave := { s.wave with hold := if s.wave.dropped.isEmpty then .dice d g since else .issued } }
    match s.openBucket h true with
    | none => w.gridBad 4
    | some (ft, b) =>
      if !first then held s
      else
        let t := (s.asGarnet.gframe ft).andThen fun s fr =>
          (s.garnet fr d g b (s.garnetFuel fr d g b) []).andThen fun s r =>
            match r.1 with
            | .stall => .ok s r.1
            | .grid _ => (s.applyOut fr b r.2).andThen fun s _ => .ok s r.1
            | .empty =>
              (s.applyOut fr b r.2).andThen fun s _ =>
                (s.gnum (fr.rec_ b + 40) 4).andThen fun s n => (s.gput (fr.rec_ b + 40) 4 (n ||| 256)).andThen fun s _ => .ok s r.1
        match t with
        | .ok t .stall => held (s.keepBad t d)
        | .ok s (.grid x) => .state (s.notGarnet.give [.sreg f.d.toNat x, .scc true])
        | .ok s .empty => .state (s.notGarnet.give [.scc false])
        | t => s.heldDev t fun s _ => .state s)

end Sys2Proof.Machine
end

