-- ==== Sys2Proof/Machine/Grids.lean ====
section
/-! DEFINITION. Grids and buckets as waves reach them: GRIDACQ, GRIDREL, SPILL and BKT (R331, R335, R337, R338, R340). -/

namespace Sys2Proof.Machine

/-- The wave's accesses are performed before it goes on; otherwise the instruction is tested again (R338, R352). [DEDUCED, log 88] -/
def State.afterAccesses (s : State) (a : State → Act) : Act := if s.accessesDone s.fresh then a s else s.hold

/-- The wave in focus with scc. -/
def State.sccAct (s : State) (b : Bool) : Act := .state (s.give [.scc b])

/-- The wave in focus with a scalar register and scc. -/
def State.retAct (s : State) (d : Nat) (x : Word) : Act := .state (s.give [.sreg d x, .scc true])

/-! ### GRIDACQ (R337) -/

/-- Address of a grid's slot in the aperture (R317). -/
def State.aperture (s : State) (h : Word) : Nat :=
  bits (s.die (handleDie h)).gap 51 0 + handleDie h * 2 ^ 25 + handleGeode h * 2 ^ 21 + s.slotAt h

/-- Moves a grid to SHADING and tells the wave where it is. -/
def State.acquireGrid (s : State) (d : Nat) (g : Grid) : Act :=
  let at_ := s.aperture g.handle
  let s := s.putGrid { g with state := 2 }
  let w := ((s.wave.joinHb g.vc).setSpair d (BitVec.ofNat 64 at_)).setS (d + 2) g.handle
  .state { s with wave := { w with scc := true } }

/-- GRIDACQ. -/
def execGridacq (f : G64) (s : State) : Host.Outcome State Fault Refusal :=
  ok (run (.gridacq f) s fun s =>
    let w := s.wave
    let h := w.sop f.a
    if f.sub = 0 then
      match s.grid h with
      | none => w.gridBad 1
      | some g => if g.state != 1 then w.gridBad 2 else s.acquireGrid f.d.toNat g
    else
      match s.openBucket h true with
      | none => w.gridBad 4
      | some _ =>
        let gs := (s.slotGrids (handleDie h) (handleGeode h)).filter fun x => x.2.state == 1
        match sortBy (fun (x : Nat × Grid) => x.2.diced) gs with
        | x :: _ => s.acquireGrid f.d.toNat x.2
        | [] => s.sccAct false)

/-! ### GRIDREL (R338) -/

/-- The coefficients of a vertex of a grid that holds its slot. -/
def State.slotVertex (s : State) (g : Grid) (q : Nat) : List (List Word) :=
  let x := s.geode (handleDie g.handle) (handleGeode g.handle)
  let ws := wordsOf (cgetList x.bytes (s.slotAt g.handle + 256 + q * g.stride) (12 * g.mlen))
  rowsOf g.mlen 3 ws

/-- Writes a grid's bound into its header (R319). -/
def State.putBound (s : State) (g : Grid) (b : List Word) : State :=
  let d := handleDie g.handle
  let x := s.geode d (handleGeode g.handle)
  let bs := csetList x.bytes (s.slotAt g.handle + 32) (b.flatMap fun w => toBytes w.toNat 4)
  s.setGeode d (handleGeode g.handle) { x with bytes := bs }

/-- The release itself: bounds, registration, the grid's next state, its patch's OUT; the answer is REFS. -/
def State.releaseGrid (s : State) (g : Grid) : Try Nat :=
  (s.gframe g.frame).andThen fun s fr =>
    (s.gread g.prec.toNat 24).andThen fun s hd =>
      let (c0, r0, c1, r1) := rectOf hd.1
      let bound := fr.bound ((List.range ((g.nu + 1) * (g.nv + 1))).map fun q => s.slotVertex g q) 0
      ((s.putBound g bound).registerAll fr g false (fr.covers bound c0 r0 c1 r1)).andThen fun s k =>
        let refs := g.refs + k
        let g' : Grid := { g with state := 3, refs := refs, released := s.fresh, vc := s.wave.hb }
        let s := if refs = 0 then s.freeGrid g else s.putGrid g'
        let out : OutChange := { num := g.patch.toNat, prec := g.prec.toNat, begun := false, delta := -1 }
        (State.applyOut { s with fresh := s.fresh + 1 } fr g.home [out]).andThen fun s _ => .ok s refs

/-- GRIDREL. -/
def execGridrel (f : G64) (s : State) : Host.Outcome State Fault Refusal :=
  ok (run (.gridrel f) s fun s =>
    let w := s.wave
    match s.grid (w.sop f.a) with
    | none => w.gridBad 1
    | some g =>
      if g.state != 2 then w.gridBad 2
      else
        s.afterAccesses fun s =>
          s.heldDev (s.releaseGrid g) fun s refs =>
            .state (State.give { s with wave := s.wave.tick } [.sreg f.d.toNat (BitVec.ofNat 32 refs)]))

/-! ### SPILL (R340) -/

/-- SPILL. -/
def execSpill (f : G64) (s : State) : Host.Outcome State Fault Refusal :=
  ok (run (.spill f) s fun s =>
    let w := s.wave
    match s.grid (w.sop f.a) with
    | none => w.gridBad 1
    | some g =>
      if g.state == 4 then s.sccAct true
      else if g.state != 3 then w.gridBad 2
      else if g.infl != 0 then s.sccAct false
      else s.heldDev (s.spill g) fun s b => s.sccAct b)

/-! ### BKT (R331, R335) -/

/-- Lowest Geode of a die with no open bucket and every slot FREE. -/
def State.freeGeode (s : State) (d : Nat) : Option Nat :=
  (List.range 16).find? fun g => (s.geode d g).open_.isNone && (s.slotGrids d g).isEmpty

/-- Writes every sample of a bucket that lies in the frame as empty, row by row of pixels. -/
def State.clearSamples (s : State) (f : Frame) (b sbuf : Nat) : Try Bool :=
  let (x0, y0) := f.origin b
  let n := f.samples
  let across := min 32 (f.width - x0)
  let one : List Byte := List.replicate 8 0 ++ toBytes 0x7F800000 4 ++ List.replicate 4 0
  eachTry s (fun s y => s.gwrite (sbuf + 32 * y * n * 16) (List.replicate (across * n) one).flatten)
    (List.range (min 32 (f.height - y0)))

/-- BKT.open on a bucket entry of eight words. -/
def State.openBkt (s : State) (d : Nat) (ws : List Word) : Act :=
  let w := s.wave
  let die := dieOf w.core
  let word (i : Nat) : Nat := (ws.getD i 0).toNat
  let ft := word 2 + 2 ^ 32 * word 3
  let b := word 1 % 2 ^ 14
  let bad := !(s.die die).gcfg.getLsbD 31 || word 1 / 2 ^ 14 != 0 || (ws.drop 4).any (· != 0)
  if bad then w.gridBad 6
  else
    let t : Try (Option Act) := (s.gread ft 256).andThen fun s h =>
      let f := frameOf ft h.1
      if f.bad h.1 || f.cols * f.rows ≤ b then .ok s (some (w.gridBad 6))
      else
        let r := f.rec_ b
        (s.gread r 64).andThen fun s x =>
          let s := s.acqAt (r + 40) 4
          let st := ofBytes ((x.1.drop 40).take 4)
          if st % 4 != 0 then .ok s none
          else
            match s.freeGeode die with
            | none => .ok s (some s.hold)
            | some g =>
              (s.gput (r + 40) 4 (1 + 16 * die)).andThen fun s _ =>
                (s.clearSamples f b (ofBytes ((x.1.drop 16).take 8))).andThen fun s _ =>
                  let y := s.geode die g
                  let s := s.setGeode die g { y with open_ := some (ft, b), stack := [], next := 0, rasts := 0, vc := [] }
                  .ok s (some (s.retAct d (bucketHandle die g b)))
    s.heldDev t fun s a => match a with
      | none => s.sccAct false
      | some a => a

/-- BKT.grid: the lowest listed grid that has not been returned and is SHADED or SPILLED. -/
def State.nextGrid (s : State) (d ft b : Nat) : Act :=
  let t : Try (Option (Option Grid)) := (s.gframe ft).andThen fun s f =>
    (s.gread (f.rec_ b) 64).andThen fun s x =>
      let num (i n : Nat) : Nat := ofBytes ((x.1.drop i).take n)
      (s.gentries (num 24 8) (num 36 4)).andThen fun s es =>
        let ready (e : Nat × Nat × Nat) : Option (Grid × Nat × Nat) :=
          if nbit e.2.1 0 then none
          else (s.grid (BitVec.ofNat 32 e.1)).bind fun g => if g.state == 3 || g.state == 4 then some (g, e.2) else none
        match es.findSome? ready with
        | some (g, fl, at_) =>
          (s.gput (at_ + 4) 4 (fl ||| 1)).andThen fun s _ => .ok { s with wave := s.wave.joinHb g.vc } (some (some g))
        | none =>
          if nbit (num 40 4) 8 && num 12 4 == 0 && es.all fun e => nbit e.2.1 0 then
            .ok (s.acqAt (f.rec_ b + 12) 4) (some none)
          else .ok s none
  s.heldDev t fun s r => match r with
    | none => s.hold
    | some none => s.sccAct false
    | some (some g) => s.retAct d g.handle

/-- BKT.close. Ranges left on the split stack are not diced: they leave their patches' OUT (R343). -/
def State.closeBkt (s : State) (h : Word) (ft b : Nat) : Act :=
  let d := handleDie h
  let g := handleGeode h
  let t : Try Bool := (s.gframe ft).andThen fun s f =>
    let r := f.rec_ b
    (s.gread r 64).andThen fun s x =>
      let num (i n : Nat) : Nat := ofBytes ((x.1.drop i).take n)
      (s.gentries (num 24 8) (num 36 4)).andThen fun s es =>
        if (s.geode d g).rasts != 0 || es.any fun e => !nbit e.2.1 1 then .ok s false
        else
          let left := (s.geode d g).stack.foldl (fun l x => noteOut l x.pnum.toNat x.patch.toNat false (-1)) []
          (s.applyOut f b left).andThen fun s _ =>
            (s.gput (r + 40) 4 (num 40 4 / 4 * 4 + 2)).andThen fun s _ =>
              let y := s.geode d g
              let s := { s with wave := s.wave.joinHb y.vc }
              let s := s.relEvery (r + 40) 4 s.wave.hb
              .ok (s.setGeode d g { y with open_ := none, stack := [] }) true
  s.heldDev t fun s done => if done then .state { s with wave := s.wave.tick } else s.hold

/-- BKT. [DEDUCED, log 87] -/
def execBkt (f : G64) (s : State) : Host.Outcome State Fault Refusal :=
  ok (run (.bkt f) s fun s =>
    let w := s.wave
    if f.sub = 0 then s.openBkt f.d.toNat ((List.range 8).map fun i => w.sreg (f.a.toNat + i))
    else
      let h := w.sop f.a
      match s.openBucket h true with
      | none => w.gridBad 4
      | some (ft, b) =>
        if f.sub = 1 then s.nextGrid f.d.toNat ft b else s.afterAccesses fun s => s.closeBkt h ft b)

end Sys2Proof.Machine
end

