-- ==== Sys2Proof/Machine/Raster.lean ====
section
/-! DEFINITION. Rasterisation: the samples of a bucket, coverage and interpolation, the update of a stored sample, RAST and
its completion (R328, R330, R331, R339, R345, R438). -/

namespace Sys2Proof.Machine

/-! ### Arithmetic of Obsidian: each operation rounded once to FP32 nearest-even -/

def rAdd (a b : Word) : Word := fround 0 (FV.sum false [fval a, fval b])
def rSub (a b : Word) : Word := fround 0 (FV.sum false [fval a, (fval b).negate])
def rMul (a b : Word) : Word := fround 0 ((fval a).mul (fval b))
def rDiv (a b : Word) : Word := fdivOp 0 a b

/-! ### Samples (R328) -/

/-- A sample: its pixel and number, its point, the lens point, 2t − 1 for its shutter time. -/
structure Sample where
  x : Nat
  y : Nat
  i : Nat
  px : Rat
  py : Rat
  lu : Word
  lv : Word
  time : FV
  deriving DecidableEq, Repr

/-- Sample i of a pixel. -/
def Frame.sample (f : Frame) (x y i : Nat) : Sample :=
  let h := mix32 f.seed (BitVec.ofNat 32 (65536 * y + x))
  let xi (d : Nat) : Word := unitFloat (sobolRaw (BitVec.ofNat 32 i) d ^^^ mix32 h (BitVec.ofNat 32 d))
  let q := rMul f.aper (sfuOp 0x44 0 0 (xi 2))
  { x := x, y := y, i := i, px := x + fnum (xi 0), py := y + fnum (xi 1), lu := rMul q (sfuOp 0x48 1 0 (xi 3)),
    lv := rMul q (sfuOp 0x47 1 0 (xi 3)), time := FV.sum false [(FV.ofInt 2).mul (fval (xi 4)), FV.ofInt (-1)] }

/-- The samples of the pixels of a bucket that lie in the frame. -/
def Frame.samplesOf (f : Frame) (b : Nat) : List Sample :=
  let (x0, y0) := f.origin b
  (cellsOf (min 32 (f.height - y0)) (min 32 (f.width - x0))).flatMap fun p =>
    (List.range f.samples).map fun i => f.sample (x0 + p.2) (y0 + p.1) i

/-- Address of a sample in the sample buffer (R331). -/
def Frame.sampleAt (f : Frame) (b sbuf : Nat) (p : Sample) : Nat :=
  let (x0, y0) := f.origin b
  sbuf + ((32 * (p.y - y0) + (p.x - x0)) * f.samples + p.i) * 16

/-! ### Vertices and coverage (R330 steps 2 and 3, R345) -/

/-- A vertex as Obsidian reads it: coordinates and colour. -/
structure Vertex where
  pos : List (List Word)
  col : List Word
  deriving DecidableEq, Repr

/-- A vertex from the bytes of its record. -/
def vertexOf (mlen : Nat) (bs : List Byte) : Vertex :=
  let half (k : Nat) : Word := fround 0 (fp16.val (ofBytes ((bs.drop (12 * mlen + 8 + 2 * k)).take 2)))
  { pos := rowsOf mlen 3 (wordsOf (bs.take (12 * mlen))), col := (List.range 4).map half }

/-- Screen position and depth of a vertex for a sample; none: its micropolygon covers nothing. -/
def Frame.project (f : Frame) (v : Vertex) (p : Sample) : Option (Rat × Rat × Word) :=
  let at_ (c : Nat) : Word := fround 0 (clenshaw ((v.pos.getD c []).map fval) p.time)
  let z := at_ 2
  let side (x lens fx cx : Word) : Word := rAdd (rAdd cx (rMul fx (rDiv (rSub x lens) z))) (rMul fx (rDiv lens f.focus))
  let sx := side (at_ 0) p.lu f.fx f.cx
  let sy := side (at_ 1) p.lv f.fy f.cy
  if !(fval sx).finite || !(fval sy).finite || decide ((fval z).cmp (fval f.near) ≤ 0) then none
  else some (fnum sx, fnum sy, z)

/-- The weights of b and c at a point that a triangle covers. -/
def cover (p a b c : Rat × Rat) : Option (Word × Word) :=
  let cross (u v w : Rat × Rat) : Rat := (v.1 - u.1) * (w.2 - u.2) - (v.2 - u.2) * (w.1 - u.1)
  let area := cross a b c
  if area = 0 then none
  else
    let sg : Rat := if 0 < area then 1 else -1
    let inside (e : (Rat × Rat) × (Rat × Rat)) : Bool :=
      let w := sg * cross e.1 e.2 p
      let dx := sg * (e.2.1 - e.1.1)
      let dy := sg * (e.2.2 - e.1.2)
      decide (0 < w) || (decide (w = 0) && (decide (dy < 0) || (decide (dy = 0) && decide (0 < dx))))
    if [(a, b), (b, c), (c, a)].all inside then
      let weight (x : Rat) : Word := fround 0 (ratVal 64 (x / area))
      some (weight (cross a p c), weight (cross a b p))
    else none

/-- Interpolation of one quantity. -/
def interp (qa qb qc : Word) (w : Word × Word) : Word :=
  rAdd (rAdd qa (rMul w.1 (rSub qb qa))) (rMul w.2 (rSub qc qa))

/-- What the triangles of a micropolygon give a sample: depth, then R, G, B, A, for each that covers it. -/
def Frame.hits (f : Frame) (vs : List Vertex) (p : Sample) : List (List Word) :=
  let ps := vs.map fun v => f.project v p
  if ps.any Option.isNone then []
  else
    let at_ (k : Nat) : Rat × Rat × Word := (ps.getD k none).getD (0, 0, 0)
    let qs (k : Nat) : List Word := (at_ k).2.2 :: (vs.getD k { pos := [], col := [] }).col
    let xy (k : Nat) : Rat × Rat := ((at_ k).1, (at_ k).2.1)
    [(1, 2), (2, 3)].filterMap fun (t : Nat × Nat) =>
      (cover (p.px, p.py) (xy 0) (xy t.1) (xy t.2)).map fun w =>
        (List.range 5).map fun m => interp ((qs 0).getD m 0) ((qs t.1).getD m 0) ((qs t.2).getD m 0) w

/-! ### The stored sample (R330 step 4, R331) -/

/-- A colour as FP16: nearest-even, saturating (R139). -/
def toHalf (v : FV) : List Byte := toBytes (fp16.convert 0 0 true v) 2

/-- What a covering sample writes into its stored 16 bytes: pieces by offset. Each operation rounds to FP32 nearest-even (R6). -/
def updateSample (old : List Byte) (patch : Word) (q : List Word) : List (Nat × List Byte) :=
  let num (i n : Nat) : Nat := ofBytes ((old.drop i).take n)
  let z := fval (q.headD 0)
  let rgb := (q.drop 1).take 3 |>.map fval
  let alpha := fval (q.getD 4 0)
  let depth := fp32.val (num 8 4)
  let name (top : Nat) : List Byte := toBytes (top * 2 ^ 30 + patch.toNat % 2 ^ 30) 4
  if z.isNan || alpha.isNan || (!depth.isNan && decide (0 ≤ z.cmp depth)) then []
  else if 0 ≤ alpha.cmp (FV.ofInt 1) then
    [(0, rgb.flatMap toHalf ++ toHalf (FV.ofInt 1)), (8, toBytes (q.headD 0).toNat 4), (12, name 1)]
  else if 0 < alpha.cmp (FV.ofInt 0) then
    let al := q.getD 4 0
    let rest := rSub 0x3F800000 al
    let was (k : Nat) : Word := fround 0 (fp16.val (num (2 * k) 2))
    let mixed := ((q.drop 1).take 3).zipIdx.map fun x => fval (rAdd (rMul al x.1) (rMul rest (was x.2)))
    let a := fval (rAdd al (rMul rest (was 3)))
    (0, (mixed ++ [a]).flatMap toHalf) :: (if num 12 4 / 2 ^ 30 = 0 then [(12, name 2)] else [])
  else []

/-- One sample takes what covers it, in one step. -/
def State.shadeSample (s : State) (patch : Word) (x : Nat × List Word) : Try Bool :=
  (s.gread x.1 16).andThen fun s old =>
    eachTry s (fun s p => s.gwrite (x.1 + p.1) p.2) (updateSample old.1 patch x.2)

/-! ### RAST (R330, R339) -/

/-- The bytes of a grid's vertices: of its slot, or of its spill copy (R345). -/
def State.vertexBytesOf (s : State) (g : Grid) : Try (List Byte) :=
  let n := (g.nu + 1) * (g.nv + 1) * g.stride
  if g.state == 4 then (s.gread (g.spaddr + 256) n).andThen fun s x => .ok s x.1
  else .ok s (cgetList (s.geode (handleDie g.handle) (handleGeode g.handle)).bytes (s.slotAt g.handle + 256) n)

/-- Draws a grid into a bucket: every micropolygon, in an order that is open, on every sample. -/
def State.draw (s : State) (f : Frame) (b : Nat) (g : Grid) : Try Bool :=
  (s.gread (f.rec_ b + 16) 8).andThen fun s x =>
    (s.vertexBytesOf g).andThen fun s bs =>
      let vs := (rowsOf g.stride ((g.nu + 1) * (g.nv + 1)) bs).map (vertexOf g.mlen)
      let at_ (i j : Nat) : Vertex := vs.getD (j * (g.nu + 1) + i) { pos := [], col := [] }
      let ups := (sortBy (fun q => Config.cellKey g.nu g.nv q.2 q.1) (cellsOf g.nv g.nu)).flatMap fun q =>
        let quad := [at_ q.2 q.1, at_ (q.2 + 1) q.1, at_ (q.2 + 1) (q.1 + 1), at_ q.2 (q.1 + 1)]
        (f.samplesOf b).flatMap fun p => (f.hits quad p).map fun h => (f.sampleAt b (ofBytes x.1) p, h)
      eachTry s (fun s u => s.shadeSample g.patch u) ups

/-- The entry of a bucket's list that names a grid: flags and address. -/
def State.entryOf (s : State) (r : Nat) (h : Word) : Try (Option (Nat × Nat)) :=
  (s.gread r 64).andThen fun s x =>
    let num (i n : Nat) : Nat := ofBytes ((x.1.drop i).take n)
    (s.gentries (num 24 8) (num 36 4)).andThen fun s es => .ok s ((es.find? fun e => e.1 == h.toNat).map (·.2))

/-- RASTs of a bucket that have issued and not completed: one more, or one less. -/
def State.countRast (s : State) (bh : Word) (up : Bool) : State :=
  let x := s.geode (handleDie bh) (handleGeode bh)
  s.setGeode (handleDie bh) (handleGeode bh) { x with rasts := if up then x.rasts + 1 else x.rasts - 1 }

/-- RAST; where the bucket's list does not translate, it issues, keeps its counter, and is checked against the list at its
completion (R438). [DEDUCED, log 89] -/
def execRast (f : G64) (s : State) : Host.Outcome State Fault Refusal :=
  ok (run (.rast f) s fun s =>
    let w := s.wave
    let bh := w.sop f.a
    let h := w.sop f.b
    match s.openBucket bh false, s.grid h with
    | none, _ => w.gridBad 4
    | _, none => w.gridBad 1
    | some (ft, b), some g =>
      if g.state != 3 && g.state != 4 then w.gridBad 2
      else
        let go (s : State) (listed : Bool) : Act :=
          let s := (s.putGrid { g with infl := g.infl + 1 }).countRast bh true
          let vc := s.wave.hb
          State.outAct { s with wave := s.wave.tick } none (cfCounter f.cf) (.rast bh h [] vc listed)
        match (s.gframe ft).andThen fun s fr => s.entryOf (fr.rec_ b) h with
        | .ok _ none => w.gridBad 3
        | .ok s (some (fl, _)) => if nbit fl 1 then w.gridBad 5 else go s true
        | .wait t => (s.asks t).unissued
        | .fault _ _ => go s false
        | .err c d a => .trap c d (bv a))

/-- A RAST of the bucket has ended: BKT.close takes what was before it (R352). -/
def State.rastEnded (s : State) (bh : Word) (vc : Vec) : State :=
  let x := s.geode (handleDie bh) (handleGeode bh)
  s.setGeode (handleDie bh) (handleGeode bh) { x with vc := vecJoin x.vc vc }

/-- A RAST of a grid in its slot has ended: the DICE that reuses the slot takes what was before it (R352). -/
def State.slotEnded (s : State) (h : Word) (vc : Vec) : State :=
  let x := s.geode (handleDie h) (handleGeode h)
  let n := gridSlot h
  s.setGeode (handleDie h) (handleGeode h) { x with slots := tset x.slots n { x.slot n with vc := vecJoin (x.slot n).vc vc } }

/-- What a RAST does at its end (R330 step 5). -/
def State.endRast (s : State) (f : Frame) (b : Nat) (bh h : Word) (vc : Vec) : Try Bool :=
  (s.entryOf (f.rec_ b) h).andThen fun s e =>
    let mark : Try Bool := match e with
      | none => .ok s false
      | some (fl, at_) => (s.gput (at_ + 4) 4 (fl ||| 2)).andThen fun s x => .ok (s.relAt (at_ + 4) 4 vc) x
    mark.andThen fun s x =>
      let s := (s.countRast bh false).rastEnded bh vc
      match s.grid h with
      | none => .ok s x
      | some g =>
        let s := if g.inSlot then s.slotEnded h vc else s
        let g := { g with infl := g.infl - 1, refs := g.refs - 1 }
        .ok (if g.refs = 0 then s.freeGrid g else s.putGrid g) x

/-- A RAST that its bucket's list rules out ends with nothing drawn, and its wave takes ILLEGAL_OPERAND at its next boundary. -/
def State.refuseRast (s : State) (bh h : Word) (detail : Nat) (pc : DWord) : State :=
  let s := match s.grid h with
    | none => s
    | some g => s.putGrid { g with infl := g.infl - 1 }
  (s.countRast bh false).report s.wave.core s.wave.slot { code := 2, detail := 0x0B00 + detail, addr := pc }

/-- All of a RAST that has issued; `listed` says that its bucket's list has been found to name the grid. [DEDUCED, log 91] -/
def State.doRast (s : State) (bh h : Word) (vc : Vec) (listed : Bool) (pc : DWord) : Try Bool :=
  match s.openBucket bh false with
  | none => .ok s false
  | some (ft, b) =>
    (s.gframe ft).andThen fun s f =>
    (if listed then Try.ok s (some (0, 0)) else s.entryOf (f.rec_ b) h).andThen fun s e =>
    if e.isNone then .ok (s.refuseRast bh h 3 pc) false
    else if e.any fun x => nbit x.1 1 then .ok (s.refuseRast bh h 5 pc) false
    else
      let drawn : Try Bool := match s.grid h with
        | none => .ok s false
        | some g => s.draw f b g
      drawn.andThen fun s _ => s.endRast f b bh h vc

/-- Bucket of a RAST that is outstanding. -/
def Effect.bucket : Effect → Option Word
  | .rast b _ _ _ _ => some b
  | _ => Option.none

/-- Is this the RAST of its bucket that reached Obsidian first? -/
def State.firstRast (s : State) (bh : Word) (id : Nat) : Bool :=
  !s.allWaves.any fun w => w.outst.any fun o => o.eff.bucket == some bh && decide (o.id < id)

/-- An outstanding instruction of the wave in focus has completed; a wave that it holds goes on (R93). -/
def State.complete (s : State) (o : Outst) : State :=
  let s := s.finish o
  { s with wave := { s.wave with hold := if s.wave.hold == .outst o.id then .none else s.wave.hold } }

/-- RAST_COMPLETE: the RAST is performed as a whole and completes; its translation faults are reported with KIND 3 and
answered first (R438). -/
def execRastComplete (core slot id : Nat) (s : State) : Host.Outcome State Fault Refusal :=
  let t := s.focus core slot
  let o? := if t.wave.at_ core slot then t.wave.outst.find? fun o => o.id == id else none
  match o? with
  | none => ok s
  | some o =>
    match o.eff with
    | .rast bh h dr vc listed =>
      if !o.due t.clock || !t.firstRast bh id then ok s
      else
        let old := t.wave.dropped
        let e := t.engineOn o.id o.vc
        match State.doRast { e with wave := { e.wave with dropped := dr } } bh h (vecJoin vc (engWrites o.id)) listed o.pc with
        | .ok u _ =>
          let t := u.engineOff t
          ok (State.complete { t with wave := { t.wave with dropped := old } } o)
        | .wait u => ok (t.asks u)
        | .fault u va =>
          let (t, tag) := State.reportFault (t.asks u) core va 3
          ok (t.putOutst core slot { o with wait := .fault (bv va) tag })
        | .err c d a => ok (State.complete (t.deferErr c d a) o)
    | _ => ok s

end Sys2Proof.Machine
end

