-- ==== Sys2Proof/Machine/Rays.lean ====
section
/-! DEFINITION. Rays: the structures Galena reads, the traversal and the hit it reports, RAYQ with its completion, and RAYRD
(R332, R333, R341). Every intersection is decided in exact arithmetic on the FP32 inputs. -/

namespace Sys2Proof.Machine

/-! ### Rays and boxes -/

/-- A ray: origin, direction, and the range of t; a missing end is infinite. -/
structure Ray where
  org : List Rat
  dir : List Rat
  tmin : Option Rat
  tmax : Option Rat
  deriving DecidableEq, Repr

/-- What a query says of the eight words of a lane before it traverses: a miss, a ray, or an infinite origin or direction, for
which the spec states no result. -/
inductive RayIn where
  | miss
  | ray (r : Ray)
  | odd
  deriving DecidableEq, Repr

/-- Takes a lane's words (R333). -/
def rayIn (ws : List Word) : RayIn :=
  let vs := ws.map fval
  let t0 := vs.getD 6 .nan
  let t1 := vs.getD 7 .nan
  if vs.any FV.isNan || decide (0 < t0.cmp t1) || t0 == .inf false || t1 == .inf true then .miss
  else if !(vs.take 6).all FV.finite then .odd
  else
    let fin (v : FV) : Option Rat := if v.finite then some v.rat else none
    .ray { org := (vs.take 3).map FV.rat, dir := ((vs.drop 3).take 3).map FV.rat, tmin := fin t0, tmax := fin t1 }

/-- Is t in the range? -/
def Ray.inRange (r : Ray) (t : Rat) : Bool :=
  (match r.tmin with
    | some a => decide (a ≤ t)
    | none => true) &&
  (match r.tmax with
    | some b => decide (t ≤ b)
    | none => true)

/-- An interval of t: absent ends are infinite. -/
abbrev Span := Option Rat × Option Rat

/-- The part of a span at or after, and at or before, a value. -/
def Span.from_ (x : Span) (a : Rat) : Span := (some (match x.1 with
  | some b => max a b
  | none => a), x.2)
def Span.upTo (x : Span) (a : Rat) : Span := (x.1, some (match x.2 with
  | some b => min a b
  | none => a))

/-- Is a span empty? -/
def Span.empty (x : Span) : Bool :=
  match x with
  | (some a, some b) => decide (b < a)
  | _ => false

/-- The span within one plane of a box: `hi` says whether it is an upper one. None: nothing lies within. -/
def Span.clip (x : Span) (o d : Rat) (plane : FV) (hi : Bool) : Option Span :=
  match plane with
  | .nan => none
  | .inf neg => if neg != hi then some x else none
  | p =>
    let b := p.rat
    if d = 0 then (if (if hi then o ≤ b else b ≤ o) then some x else none)
    else
      let t := (b - o) / d
      some (if (decide (0 < d)) == hi then x.upTo t else x.from_ t)

/-- Does a ray meet a box of six words within its range? [DEDUCED, log 40] -/
def Ray.meets (r : Ray) (box : List Word) : Bool :=
  let cut (x : Option Span) (c : Nat) (hi : Bool) : Option Span :=
    x.bind fun x => x.clip (r.org.getD c 0) (r.dir.getD c 0) (fval (box.getD (c + if hi then 3 else 0) 0)) hi
  let x := [0, 1, 2].foldl (fun x c => cut (cut x c false) c true) (some (r.tmin, r.tmax))
  match x with
  | some x => !x.empty
  | none => false

/-! ### Hits -/

/-- A hit: t, instance and primitive identifiers, barycentric coordinates; the words of the matrix and the triangle that give
it. -/
structure Hit where
  t : Rat
  inst : Nat
  prim : Nat
  b1 : Rat
  b2 : Rat
  item : List Word
  deriving DecidableEq, Repr

/-- Dot and cross products. -/
def dot3 (a b : List Rat) : Rat := ((a.zip b).map fun p => p.1 * p.2).sum
def cross3 (a b : List Rat) : List Rat :=
  let x (i : Nat) : Rat := a.getD i 0
  let y (i : Nat) : Rat := b.getD i 0
  [x 1 * y 2 - x 2 * y 1, x 2 * y 0 - x 0 * y 2, x 0 * y 1 - x 1 * y 0]
def sub3 (a b : List Rat) : List Rat := (a.zip b).map fun p => p.1 - p.2

/-- The hit of a ray on a triangle, edges included and either side (R333). -/
def Ray.triangle (r : Ray) (v0 v1 v2 : List Rat) (inst prim : Nat) (item : List Word) : Option Hit :=
  let e1 := sub3 v1 v0
  let e2 := sub3 v2 v0
  let p := cross3 r.dir e2
  let det := dot3 e1 p
  if det = 0 then none
  else
    let s := sub3 r.org v0
    let q := cross3 s e1
    let b1 := dot3 s p / det
    let b2 := dot3 r.dir q / det
    let t := dot3 e2 q / det
    if decide (0 ≤ b1) && decide (0 ≤ b2) && decide (b1 + b2 ≤ 1) && r.inRange t then
      some { t := t, inst := inst, prim := prim, b1 := b1, b2 := b2, item := item }
    else none

/-- The ray in an instance's object space. -/
def Ray.into (r : Ray) (m : List Rat) : Ray :=
  let row (i : Nat) : List Rat := (m.drop (4 * i)).take 3
  { r with
    org := (List.range 3).map fun i => dot3 (row i) r.org + m.getD (4 * i + 3) 0,
    dir := (List.range 3).map fun i => dot3 (row i) r.dir }

/-! ### Traversal (R332, R333) -/

/-- What a traversal has met: a malformed record, a value that is not finite, the hits; the records of the instances and items
that it has read. -/
structure Met where
  bad : Bool
  odd : Bool
  hits : List Hit
  seen : List Byte
  deriving DecidableEq, Repr

def Met.none_ : Met := { bad := false, odd := false, hits := [], seen := [] }
def Met.malformed : Met := { bad := true, odd := false, hits := [], seen := [] }
def Met.notFinite : Met := { bad := false, odd := true, hits := [], seen := [] }
def Met.add (a b : Met) : Met :=
  { bad := a.bad || b.bad, odd := a.odd || b.odd, hits := a.hits ++ b.hits, seen := a.seen ++ b.seen }

/-- What a step meets for each of a list. -/
def metAll {α : Type} (s : State) (f : State → α → Try Met) : List α → Try Met
  | [] => .ok s .none_
  | x :: l => (f s x).andThen fun s a => (metAll s f l).andThen fun s b => .ok s (a.add b)

/-- The words of a record. -/
def wordAt (bs : List Byte) (i : Nat) : Nat := ofBytes ((bs.drop i).take 4)

/-- Is a child reference malformed in node `i` of a structure? -/
def badRef (nodes items i ref : Nat) : Bool :=
  if ref = 2 ^ 32 - 1 then false
  else if nbit ref 31 then decide (items < ref % 2 ^ 24 + ref / 2 ^ 24 % 2 ^ 7 + 1)
  else decide (ref ≤ i) || decide (nodes ≤ ref)

/-- Visits a node: `leaf` visits an item. -/
def rayNode (r : Ray) (base nodes items : Nat) (leaf : State → Nat → Try Met) : Nat → State → Nat → Try Met
  | 0, s, _ => .ok s .malformed
  | fuel + 1, s, i =>
    (s.eread false (base + 64 + 64 * i) 64).andThen fun s bs =>
      let refs := [wordAt bs 48, wordAt bs 52]
      if (bs.drop 56).any (· != 0) || refs.any (badRef nodes items i) then .ok s .malformed
      else
        metAll s (fun s c =>
          let ref := wordAt bs (48 + 4 * c)
          if ref = 2 ^ 32 - 1 || !r.meets (wordsOf ((bs.drop (24 * c)).take 24)) then .ok s .none_
          else if nbit ref 31 then
            metAll s leaf ((List.range (ref / 2 ^ 24 % 2 ^ 7 + 1)).map fun k => ref % 2 ^ 24 + k)
          else rayNode r base nodes items leaf fuel s ref) [0, 1]

/-- Traverses a structure of a type; `leaf` visits an item, given NODES. -/
def rayStruct (s : State) (r : Ray) (type base : Nat) (leaf : Nat → State → Nat → Try Met) : Try Met :=
  (s.eread false base 64).andThen fun s bs =>
    let nodes := wordAt bs 4
    if wordAt bs 0 != type || nodes = 0 || (bs.drop 12).any (· != 0) then .ok s .malformed
    else rayNode r base nodes (wordAt bs 8) (leaf nodes) 64 s 0

/-- A triangle item of a bottom structure; `m` is the matrix that led to it. -/
def rayTriangle (r : Ray) (base inst : Nat) (m : List Word) (nodes : Nat) (s : State) (k : Nat) : Try Met :=
  (s.eread false (base + 64 + 64 * nodes + 48 * k) 48).andThen fun s bs =>
    let vs := (wordsOf (bs.take 36)).map fval
    let at_ (i : Nat) : List Rat := ((vs.drop (3 * i)).take 3).map FV.rat
    let met : Met :=
      if (bs.drop 40).any (· != 0) then .malformed
      else if !vs.all FV.finite then .notFinite
      else { Met.none_ with hits := (r.triangle (at_ 0) (at_ 1) (at_ 2) inst (wordAt bs 36) (m ++ wordsOf (bs.take 36))).toList }
    .ok s { met with seen := bs }

/-- An instance of a top structure: its bottom structure, with the ray in object space. -/
def rayInstance (r : Ray) (base nodes : Nat) (s : State) (k : Nat) : Try Met :=
  (s.eread false (base + 64 + 64 * nodes + 64 * k) 64).andThen fun s bs =>
    let m := (wordsOf (bs.take 48)).map fval
    let low := ofBytes ((bs.drop 48).take 8)
    if (bs.drop 60).any (· != 0) then .ok s .malformed
    else if !m.all FV.finite then .ok s { Met.notFinite with seen := bs }
    else
      let r := r.into (m.map FV.rat)
      rayStruct s r 2 low fun nodes => rayTriangle r low (wordAt bs 56) (wordsOf (bs.take 48)) nodes

/-- All that a ray meets in a top structure. -/
def State.trace (s : State) (r : Ray) (top : Nat) : Try Met :=
  rayStruct s r 1 top fun nodes => rayInstance r top nodes

/-! ### What a lane reports (R333) -/

/-- Is a hit before another: by t, then instance, then primitive? -/
def Hit.before (a b : Hit) : Bool :=
  decide (a.t < b.t) || (a.t == b.t && (decide (a.inst < b.inst) || (a.inst == b.inst && decide (a.prim < b.prim))))

/-- The hit that is reported. -/
def pickHit (any : Bool) (n : Nat) (l : List Hit) : Option Hit :=
  if any then l[Config.rayPick n % l.length]?
  else l.foldl (fun b x => match b with
    | some y => if x.before y then some x else b
    | none => some x) none

/-- A value of a hit as Galena gives it: within 4 ulp of the exact one. -/
def rayWord (i : Nat) (ray item : List Word) (x : Rat) : Word :=
  let ref := ratVal prec x
  let y := Config.rayValue i ray item
  if withinUlp ref 4 false y then y else fround 0 ref

/-- The five words of a miss, or of a lane that met a malformed structure. -/
def rayMiss (bad : Bool) : List Word :=
  let id : Word := if bad then 0xFFFFFFFE else 0xFFFFFFFF
  [0x7F800000, id, id, 0, 0]

/-- The five words of a lane; `n` is a free number, by which `.any` picks. -/
def rayWords (any : Bool) (n : Nat) (ray : List Word) (odd : Nat → Word) (m : Met) : List Word :=
  if m.bad then rayMiss true
  else if m.odd then (List.range 5).map odd
  else
    match pickHit any n m.hits with
    | none => rayMiss false
    | some h =>
      [rayWord 0 ray h.item h.t, BitVec.ofNat 32 h.inst, BitVec.ofNat 32 h.prim, rayWord 1 ray h.item h.b1, rayWord 2 ray h.item h.b2]

/-- One lane of a query: its result is a function of the ray and of what it reads, but for the hit that `.any` picks (R9). -/
def State.rayLane (s : State) (top : Nat) (any : Bool) (ws : List Word) : Try (List Word) :=
  let done (mem : List Host.Cell) (s : State) (m : Met) : Try (List Word) :=
    .ok s.bump (rayWords any s.fresh ws (fun i => Config.rayOdd i ws any top m.seen mem) m)
  match rayIn ws with
  | .miss => done [] s .none_
  | .odd => done s.mem s .notFinite
  | .ray r => (s.trace r top).andThen (done [])

/-- The five words that a lane reads from a query slot. -/
def QuerySlot.read (q : QuerySlot) (L : Nat) : List Word :=
  if q.lanes.getLsbD L then cgetList q.words (5 * L) 5 else rayMiss false

/-- Every lane of a query, in order; a lane whose reads fail a race check keeps what the slot `q` holds for it (R365).
[DEDUCED, log 41] [DEDUCED, log 41] -/
def State.rayLanes (s : State) (q : QuerySlot) (top : Nat) (any : Bool) :
    List (Nat × List Word) → Try (List (Nat × List Word))
  | [] => .ok s []
  | x :: l => (s.unlessRace (s.rayLane top any x.2)).andThen fun s ws =>
    (s.rayLanes q top any l).andThen fun s r => .ok s ((x.1, ws.getD (q.read x.1)) :: r)

/-! ### RAYQ and RAYRD (R341) -/

/-- RAYQ: the rays of the active lanes, captured at issue. -/
def execRayq (f : G64) (s : State) : Host.Outcome State Fault Refusal :=
  ok (run (.rayq f) s fun s =>
    let w := s.wave
    let rays := w.actList.map fun L => (L, (List.range 8).map fun i => w.vlane (f.a.toNat + i) L)
    s.outAct none (cfCounter f.cf) (.rayq f.mod.toNat rays (w.sop64 f.b) (f.sub == 1)))

/-- Query slot of an outstanding RAYQ. -/
def Effect.query : Effect → Option Nat
  | .rayq q _ _ _ => some q
  | _ => Option.none

/-- A query slot that holds these lanes. -/
def slotOf (l : List (Nat × List Word)) : QuerySlot :=
  { lanes := lanesOf fun L => l.any fun x => x.1 == L,
    words := l.foldl (fun c x => csetList c (5 * x.1) x.2) [] }

/-- RAYQ_COMPLETE: Galena has traversed for every lane; the results replace what the slot held. A RAYQ to a slot completes
after those issued before it; a translation fault waits for the driver. -/
def execRayqComplete (core slot id : Nat) (s : State) : Host.Outcome State Fault Refusal :=
  let t := s.focus core slot
  let o? := if t.wave.at_ core slot then t.wave.outst.find? fun o => o.id == id else none
  match o? with
  | none => ok s
  | some o =>
    match o.eff with
    | .rayq q rays top any =>
      let first := !t.wave.outst.any fun p => p.eff.query == some q && decide (p.id < id)
      if !o.due t.clock || !first || !t.accessesDone id then ok s
      else
        match (t.engineOn o.id o.vc).rayLanes (t.wave.qslot q) top.toNat any rays with
        | .ok u l =>
          let t := u.engineOff t
          let w := { t.wave with query := tset t.wave.query q (slotOf l) }
          ok (State.complete { t with wave := w } o)
        | .wait u => ok (t.asks u)
        | .fault u va =>
          let (t, tag) := State.reportFault (t.asks u) core va 3
          ok (t.putOutst core slot { o with wait := .fault (bv va) tag })
        | .err c d a => ok (State.complete (t.deferErr c d a) o)
    | _ => ok s

/-- RAYRD: once the slot's queries have completed. -/
def execRayrd (f : G64) (s : State) : Host.Outcome State Fault Refusal :=
  ok (run (.rayrd f) s fun s =>
    let w := s.wave
    let q := f.mod.toNat
    if w.outst.any fun o => o.eff.query == some q then s.hold
    else
      .state (s.give ((List.range 5).map fun i =>
        .vreg (f.d.toNat + i) w.act (w.perLane fun L => ((w.qslot q).read L).getD i 0))))

end Sys2Proof.Machine
end

