-- ==== Sys2Proof/Machine/Pipes.lean ====
section
/-! DEFINITION. Issue: which waves are Ready, what a pipe chooses in a clock, promotion, and power tokens (R87, R88, R91,
R95 to R103, R151). -/

namespace Sys2Proof.Machine

/-! ### The next instruction of a wave -/

/-- The instruction that the wave in focus executes next, where its bytes can be read now and pass the checks. -/
def State.nextIns (s : State) : Option Instr :=
  let w := s.wave
  let i? : Option Instr := match w.rep, w.pblk with
    | some r, _ => stepped r.ins r.std r.sta r.stb r.stc r.j
    | none, some p => p.body.head?.map (·.2)
    | none, none =>
      match s.fetch w.core w.pc.toNat with
      | .ok _ bs =>
        match decode bs with
        | .ok (i, _) => some i
        | .error _ => none
      | _ => none
  match i? with
  | some i => if (s.check i).isSome then none else some i
  | none => none

/-- Is it of matrix class (R95)? -/
def isMatrix (i : Option Instr) : Bool :=
  match i with
  | some i => 0xA6 ≤ insOp i && insOp i ≤ 0xA9
  | none => false

/-- Does nothing hold the wave? One that a held-class instruction holds, or whose instruction cannot issue yet, is not Ready
(R88, R99). -/
def Hold.open_ : Hold → Bool
  | .none => true
  | _ => false

/-- Has DIST of the next instruction elapsed (R87)? The distance of one that cannot be fetched or decoded, or that fails a
check of R83, is 1. [DESIGN CHOICE, log 137] -/
def Wave.distDone (w : Wave) (i : Option Instr) (clock : Nat) : Bool :=
  w.lastIssue = 0 || decide (w.lastIssue - 1 + max (match i with
    | some i => insDist i
    | none => 1) 1 ≤ clock)

/-- Ready (R99). -/
def State.ready (s : State) (i : Option Instr) : Bool :=
  let w := s.wave
  !w.ended && !w.suspended && !w.idle && w.trap.isNone && w.hold.open_ && !w.faulting && w.distDone i s.clock &&
    decide (w.notBefore ≤ s.clock) &&
    match i with
    | some (.wait f) => w.waitHolds f.imm
    | some i => !w.countersFull (classOf (insOp i)) (insCf i) && !w.commitFull i
    | none => true

/-! ### Power tokens (R96, R97) -/

/-- Does the wave in focus stand at an MMAX that joins with partners: a gang launch that has every core of the cluster? -/
def State.atJoint (s : State) : Bool :=
  match s.nextIns with
  | some (.mmax _) =>
    s.myLaunch.gang && (List.range 4).all fun q => s.myLaunch.cmask.contains (s.wave.core / 4 * 4 + q)
  | _ => false

/-- The partner that a core gives to number `j` of a launch: it has issued or holds its grant (`some none`), or it wants a
token. -/
def State.partner (s : State) (l j core : Nat) : Option (Option (Nat × Nat)) :=
  let ws := s.allWaves.filter fun w => w.core == core && w.alive l
  if (s.allWaves.any fun w => w.core == core && w.launch == l && w.outst.any fun o => o.eff.joint == some j) then some none
  else
    let here := ws.filter fun w =>
      w.requested && (s.group w.core w.gslot).mmax == j && (s.focus w.core w.slot).atJoint
    match here with
    | w :: _ => some (if w.granted then none else some (w.core, w.slot))
    | [] => none

/-- The waves that a request of the wave at this core and slot asks tokens for; none: it asks for nothing now. [DEDUCED, log 81] -/
def State.tokenParty (s : State) (core slot : Nat) : Option (List (Nat × Nat)) :=
  let t := s.focus core slot
  if !t.wave.at_ core slot || !t.wave.requested || t.wave.granted then none
  else if t.atJoint then
    let j := t.myGroup.mmax
    let part (q : Nat) : Option (Option (Nat × Nat)) := t.partner t.wave.launch j (core / 4 * 4 + q)
    let ps := (List.range 4).map part
    let own := part (core % 4)
    if own == some none then none
    else if t.myLaunch.mmaxBad.contains (core / 4, j) || ps.any fun p => p == some none then
      if own == some (some (core, slot)) then some [(core, slot)] else none
    else if ps.all Option.isSome then some (ps.filterMap fun p => p.bind id) else none
  else some [(core, slot)]

/-- The wave in focus requests a token: its request, or the joined one once the last partner asks, enters its die's queue. -/
def State.requestToken (s : State) : State :=
  let s := { s with wave := { s.wave with requested := true } }
  let w := s.wave
  match s.tokenParty w.core w.slot with
  | none => s
  | some ps =>
    let d := s.die (dieOf w.core)
    s.setDie (dieOf w.core) { d with tokens := d.tokens ++ [{ core := w.core, slot := w.slot, need := ps.length }] }

/-- Does a request that stands in its die's queue ask for this wave? -/
def State.tokenQueued (s : State) (core slot : Nat) : Bool :=
  (s.die (dieOf core)).tokens.any fun r => ((s.tokenParty r.core r.slot).getD []).contains (core, slot)

/-- Requests that no longer stand leave a die's queue (R101). -/
def State.purgeTokens (s : State) (d : Nat) : State :=
  let x := s.die d
  s.setDie d { x with tokens := x.tokens.filter fun r =>
    match s.tokenParty r.core r.slot with
    | some ps => ps.length == r.need
    | none => false }

/-- Free() (R98). -/
def State.freeTokens (s : State) : Nat := s.pool - s.inuse

/-- First die after the last one granted whose queue is not empty. -/
def State.tokenDie (s : State) : Option Nat :=
  ((List.range 4).map fun i => (s.lastDie + 1 + i) % 4).find? fun d => !(s.die d).tokens.isEmpty

/-- Grants tokens while they last (R96), in at most so many grants. -/
def State.grantTokens (s : State) : Nat → State
  | 0 => s
  | fuel + 1 =>
    match s.tokenDie with
    | none => s
    | some d =>
      match (s.die d).tokens with
      | [] => s
      | r :: l =>
        if s.freeTokens < r.need then s
        else
          let ps := (s.tokenParty r.core r.slot).getD []
          let x := s.die d
          let s := ps.foldl (fun s p => s.mapWave p.1 p.2 fun w => { w with granted := true }) (s.setDie d { x with tokens := l })
          State.grantTokens { s with inuse := s.inuse + ps.length, lastDie := d } fuel

/-- A wave that is not Ready keeps no request, and no grant for an instruction that it has not issued (R96). -/
def State.dropUnready (s : State) : State :=
  ((s.allWaves.filter fun w => w.requested || w.granted).map fun w => (w.core, w.slot)).foldl (fun s p =>
    let t := s.focus p.1 p.2
    if t.ready t.nextIns then t else t.withdrawToken) s

/-- TOKEN_GRANT (R96). -/
def execTokenGrant (s : State) : Host.Outcome State Fault Refusal :=
  let s := (List.range 4).foldl (fun s d => s.purgeTokens d) s.dropUnready
  ok (s.grantTokens ((List.range 4).foldl (fun n d => n + (s.die d).tokens.length) 0))

/-! ### Choosing a wave (R100) -/

/-- Is an instruction of the vector-fixed, general-variable or memory class, which a 64-lane wave issues in two passes (R88,
R91)? -/
def twoPass (i : Instr) : Bool :=
  match i with
  | .mmov f => decide (3 ≤ f.sub.toNat)
  | .srd f => f.imm.getLsbD 8
  | i => insOp i == 0xA0 || (0x20 ≤ insOp i && insOp i ≤ 0x9F)

/-- Clocks that an instruction of the wave in focus takes of its pipe (R91, R151); one whose two passes are both skipped takes
one. [DESIGN CHOICE, log 136] -/
def Wave.issueClocks (w : Wave) (i : Option Instr) : Nat :=
  match i with
  | none => 1
  | some i =>
    let op := insOp i
    let base :=
      if w.width != 64 || !twoPass i then 1
      else if 0x60 ≤ op && op ≤ 0x69 then 2
      else max 1 ((if w.act &&& lanesBelow 32 != 0 then 1 else 0) + if w.act >>> 32 != 0 then 1 else 0)
    match i with
    | .vtrn f => if 3 ≤ f.mod.toNat then max base (2 ^ (f.mod.toNat + 1) / 8) else base
    | _ => base

/-- A wave that has waited 64 eligible clocks is promoted. -/
def Wave.promote (w : Wave) : Wave := if 64 ≤ w.waited then { w with promoted := true } else w

/-- Looks at one wave of a pipe: what it has due lands, a matrix instruction asks for its token; is it eligible? -/
def State.look (s : State) (core slot : Nat) : State × Bool :=
  let t := landDue (s.focus core slot)
  if !t.wave.at_ core slot then (s, false)
  else
    let i := t.nextIns
    let r := t.ready i
    let t := if r && isMatrix i && !t.wave.granted && !t.tokenQueued core slot then t.requestToken else t
    (t, r && (!isMatrix i || t.wave.granted))

/-- Which of two slots comes first: by Age, then by slot. -/
def State.older (s : State) (core a b : Nat) : Bool :=
  let age (n : Nat) : Nat := ((s.findWave core n).map Wave.age).getD 0
  decide (age a < age b) || (age a == age b && decide (a < b))

/-- The eligible slot that a pipe chooses. -/
def State.choose (s : State) (core : Nat) (l : List Nat) : Option Nat :=
  let first (l : List Nat) : Option Nat := l.foldl (fun b n => match b with
    | some m => if s.older core n m then some n else b
    | none => some n) none
  if l.contains 15 then some 15
  else (first (l.filter fun n => ((s.findWave core n).map Wave.promoted).getD false)).orElse fun _ => first l

/-- The wave of a slot issues: the next step runs its instruction. -/
def State.issueSlot (s : State) (core slot : Nat) : State :=
  let s := s.focus core slot
  let w := s.wave
  let n := w.issueClocks s.nextIns
  { s with
    chosen := true, pipeFree := tset s.pipeFree (4 * core + slot / 16) (s.clock + n),
    wave := { w with waited := 0, promoted := false, requested := false } }

/-- PIPE_ISSUE: one clock of a pipe. -/
def execPipeIssue (core pipe : Nat) (s : State) : Host.Outcome State Fault Refusal :=
  let slots := ((s.allWaves.filter fun w => w.core == core && w.slot / 16 == pipe).map fun w => w.slot)
  let (s, elig) := slots.foldl (fun (a : State × List Nat) n =>
    let (t, e) := a.1.look core n
    (t, if e then a.2 ++ [n] else a.2)) (s, [])
  let busy := decide (s.clock < tget 0 s.pipeFree (4 * core + pipe))
  let pick := if busy then none else s.choose core elig
  let s := elig.foldl (fun s n =>
    if pick == some n then s else s.mapWave core n fun w => ({ w with waited := w.waited + 1 }).promote) s
  ok (match pick with
    | some n => s.issueSlot core n
    | none => s)

/-- WAVE_PROMOTE (R100). -/
def execWavePromote (core slot : Nat) (s : State) : Host.Outcome State Fault Refusal :=
  ok (s.mapWave core slot Wave.promote)

/-- DIST_ELAPSED: the distance to the wave's last issue no longer holds it back (R87). -/
def execDistElapsed (core slot : Nat) (s : State) : Host.Outcome State Fault Refusal :=
  let t := s.focus core slot
  ok (if t.wave.at_ core slot && t.wave.distDone t.nextIns t.clock then { t with wave := { t.wave with lastIssue := 0 } } else s)

/-- YIELD_EXPIRY: the cycles of a YIELD or of a redirect have run out (R87, R128). -/
def execYieldExpiry (core slot : Nat) (s : State) : Host.Outcome State Fault Refusal :=
  ok (s.mapWave core slot fun w => if w.notBefore ≤ s.clock then { w with notBefore := 0 } else w)

end Sys2Proof.Machine
end

