-- ==== Sys2Proof/Machine/Completion.lean ====
section
/-! DEFINITION. What happens to work that has issued: completion on the counters, the decision points of function operations,
copy batches, page walks and refusals, the driver's answers to faults, replay of the side log, deferred reports and the
delivery of traps, releases of barrier route tags (R92, R93, R123, R190, R212, R227, R229 to R234, R255, R271, R377, R384,
R385, R396, R397, R402, R432). -/

namespace Sys2Proof.Machine

/-! ### Completion (R92, R93) -/

/-- The results of an instruction of the wave in focus land; those bound for the registers of an ended wave are discarded
(R127). -/
def State.landResults (s : State) (ws : List WaveWrite) : State :=
  landAll s (if s.wave.ended then ws.filter WaveWrite.toGroup else ws)

/-- An instruction of the wave in focus has completed: its counters fall; a wave that it holds goes on, past the instruction
if that has not retired (R179). -/
def State.closeOutst (s : State) (o : Outst) : State :=
  let held := s.wave.heldAt o
  let s := s.finish o
  let w := s.wave
  if held then
    let v := { w with hold := .none }.advance 8 s.clock
    { s with wave := { v with lastIssue := w.lastIssue } }
  else { s with wave := { w with hold := if w.hold == .outst o.id then .none else w.hold } }

/-- Is an instruction the oldest of its class that the wave has outstanding (R93)? -/
def Wave.oldest (w : Wave) (o : Outst) : Bool :=
  o.cls.isNone || !w.outst.any fun p => p.cls == o.cls && decide (p.id < o.id)

/-- Performs what an outstanding instruction of the wave in focus can do now. -/
def State.progress (s : State) (o : Outst) : State × Outst :=
  match o.eff with
  | .load _ _ _ _ => s.doMem o false
  | .store _ => s.doMem o false
  | .atomic _ _ _ => s.doMem o false
  | .cas _ _ => s.doMem o false
  | .ldk _ _ => s.doMem o false
  | .trans _ _ => s.doMem o false
  | .barr off n scope => s.doBarr o off n scope
  | .worel c _ => s.doWorel o c
  | .tld _ _ _ => s.doTile o
  | .ttrl _ _ => s.doTile o
  | .stores _ _ => s.doTile o
  | _ => (s, o)

/-- What an instruction that has nothing left to perform lands; none: it has something left. -/
def Outst.results (o : Outst) (clock : Nat) : Option (List WaveWrite) :=
  match o.eff with
  | .none => some []
  | .writes ws => some ws
  | .fn true _ ws => if o.issued + 2 ≤ clock then some ws else none
  | _ => none

/-- Completes an instruction of the wave in focus, if all of it has been performed and its class lets it. -/
def State.tryComplete (s : State) (o : Outst) : State :=
  match o.results s.clock with
  | some ws => if s.wave.oldest o then (s.landResults ws).closeOutst o else s
  | none => s

/-- The wave at a core and slot with its outstanding instruction `id`. -/
def State.outstAt (s : State) (core slot id : Nat) : Option (State × Outst) :=
  let t := s.focus core slot
  if t.wave.at_ core slot then (t.wave.findOutst id).map fun o => (t, o) else none

/-- COUNTER_COMPLETION (R92, R93): an instruction performs what it can, and completes once all of it is performed. Copies,
matrix operations, RAST and RAYQ are performed by their own events. -/
def execCounterCompletion (core slot id : Nat) (s : State) : Host.Outcome State Fault Refusal :=
  ok (match s.outstAt core slot id with
    | none => s
    | some (t, o) =>
      if o.cls == some 2 || !o.due t.clock then s
      else
        let r := t.asEngine o fun t => t.progress { o with wait := .ready }
        (r.1.setOutst r.2).tryComplete r.2)

/-! ### Function operations (R190, R191) -/

/-- Is a function operation before its decision point? -/
def Effect.undecided : Effect → Bool
  | .fn false _ _ => true
  | _ => false

/-- The undecided function operations of a core: slot and instruction, in issue order. -/
def State.fnOps (s : State) (core : Nat) : List (Nat × Outst) :=
  let ops := (s.allWaves.filter fun w => w.core == core).flatMap fun w =>
    (w.outst.filter fun o => o.eff.undecided).map fun o => (w.slot, o)
  sortBy (fun (x : Nat × Outst) => x.2.id) ops

/-- FUNCTION_DECISION_POINT: the engine of a core decides the oldest operation: its function registers and pool are written;
one with no other result completes, and one that CF counts no longer holds its wave. -/
def execFunctionDecisionPoint (core : Nat) (s : State) : Host.Outcome State Fault Refusal :=
  ok (match s.fnOps core with
    | [] => s
    | (slot, o) :: _ =>
      let t := s.focus core slot
      match o.eff with
      | .fn _ regs results =>
        let t := t.landResults regs
        if results.isEmpty then t.closeOutst o
        else
          let t := t.setOutst { o with issued := t.clock, eff := .fn true [] results }
          let w := t.wave
          { t with wave := { w with hold := if o.cf.isSome && w.hold == .outst o.id then .none else w.hold } }
      | _ => s)

/-! ### Copy batches (R271) -/

/-- COPY_BATCH_COMPLETE: the copies of the wave's oldest batch or CPSM are performed as far as they can be; once all bytes
have landed k2 falls and the object gets its bytes, in one step that releases them (R276). -/
def execCopyBatchComplete (core slot : Nat) (s : State) : Host.Outcome State Fault Refusal :=
  let t := s.focus core slot
  let o? := if t.wave.at_ core slot then t.wave.outst.find? fun o => o.cls == some 2 else none
  ok (match o? with
    | none => s
    | some o =>
      if !o.due t.clock then s
      else
        match o.eff with
        | .batch copies obj bytes ecc =>
          let r := t.asEngine o fun t => t.doBatch { o with wait := .ready } copies obj bytes ecc
          let t := r.1.setOutst r.2
          match r.2.eff with
          | .batch [] obj bytes ecc =>
            let t := match obj with
              | some off => t.addBytes core t.wave.gslot off bytes (engWrites o.id)
              | none => t
            ecc.foldl (fun t pa => t.deferErr 0x11 0 pa) (t.closeOutst r.2)
          | _ => t
        | .cpsm c dst =>
          let r := t.asEngine o fun t => t.doCpsm { o with wait := .ready } c dst
          let t := r.1.setOutst r.2
          match r.2.eff with
          | .cpsm c _ => if c.lanes.isEmpty then t.closeOutst r.2 else t
          | .writes _ => t.closeOutst r.2
          | _ => t
        | .writes _ => t.closeOutst o
        | _ => s)

/-! ### Walks and refusals (R212, R224, R227) -/

/-- TRANSLATION_WALK: a page walk for an outstanding instruction completes. TRANS and a STALE register take its result; a
fault waits for the driver; another access finds it in its TLBs. -/
def execTranslationWalk (core slot id : Nat) (s : State) : Host.Outcome State Fault Refusal :=
  ok (match s.outstAt core slot id with
    | none => s
    | some (t, o) =>
      match o.eff with
      | .trans n va =>
        if !o.due t.clock then s
        else
          let r := t.doTrans o n va
          r.1.setOutst r.2
      | _ =>
        match o.eff.cap with
        | some c => (t.walkFill core (c.tr.addr (match c.lanes with
            | la :: _ => la.off
            | [] => 0))).1
        | none => s)

/-- GEN_REFUSAL_RETRY: 1 µs after a refusal with the same generation the access is made again (R227). -/
def execGenRefusalRetry (core slot id : Nat) (s : State) : Host.Outcome State Fault Refusal :=
  ok (match s.outstAt core slot id with
    | none => s
    | some (t, o) =>
      match o.wait with
      | .retry c => if c ≤ t.clock then t.setOutst { o with wait := .ready } else s
      | _ => s)

/-- HOST_ATOMIC_HELPER_CAS: the CAS that die 0's helper has issued completes (R377); one that has failed is issued again. -/
def execHostAtomicHelperCas (core slot id : Nat) (success : Bool) (s : State) : Host.Outcome State Fault Refusal :=
  ok (match s.outstAt core slot id with
    | none => s
    | some (t, o) =>
      if !success || !o.due t.clock then s
      else
        let r := t.doMem { o with wait := .ready } true
        r.1.setOutst r.2)

/-! ### Deferred reports and traps (R384, R385) -/

/-- May the wave in focus take a report or a declined fault now: at a boundary, or in a wait that a trap withdraws? -/
def Hold.yields : Hold → Bool
  | .outst _ => false
  | .fault _ _ _ => false
  | .issued => false
  | _ => true

/-- The oldest deferred report of the wave in focus is taken, before the instruction at which it stands issues (R385). [DEDUCED, log 112] -/
def State.takeReport (s : State) : State :=
  let w := s.wave
  match w.reports with
  | r :: l =>
    if w.ended || w.recovery || w.trap.isSome || !w.hold.yields then s
    else
      State.raise { s with wave := { w with reports := l } }
        { code := r.code, detail := r.detail, addr := r.addr, pc := w.pc, retired := false, boundary := true }
  | [] => s

/-- DEFERRED_REPORT: an error response that has been queued for a wave is taken at its instruction boundary. -/
def execDeferredReport (core slot : Nat) (s : State) : Host.Outcome State Fault Refusal :=
  let t := s.focus core slot
  ok (if t.wave.at_ core slot then t.takeReport else s)

/-- TRAP_DELIVERY (R384, R387, R388, R390). -/
def execTrapDelivery (core slot : Nat) (s : State) : Host.Outcome State Fault Refusal :=
  let t := s.focus core slot
  ok (if t.wave.at_ core slot && t.wave.trap.isSome then t.deliver else s)

/-! ### The driver's answers (R229, R232, R396, R397, R432) -/

/-- Detail of PAGE_LOAD for an outstanding instruction (R383). -/
def Effect.pageDetail : Effect → Nat
  | .atomic _ _ _ => 2
  | .cas _ _ => 2
  | .trans _ _ => 3
  | .batch _ _ _ _ => 4
  | .cpsm _ _ => 4
  | .rayq _ _ _ _ => 5
  | .tld _ _ _ => 6
  | .accld _ _ _ _ _ _ _ => 6
  | .ttrl _ _ => 6
  | .worel _ _ => 7
  | .rast _ _ _ _ _ => 8
  | _ => 0

/-- An outstanding instruction, and what held it, go on once its page has been mapped. -/
def Outst.mapped (o : Outst) (tag : Word) : Outst :=
  match o.wait with
  | .fault _ t => if t == tag then { o with wait := .ready } else o
  | _ => o

/-- How a held instruction goes on after a translation fault: a trap withdraws BART, ENQ, DEQ and an instruction of the
micropolygon pipeline, and no other (R342, R384). -/
def Held.back (h : Held) : Hold :=
  match h.ins with
  | .bart _ => .pipeline
  | .enq _ => .pipeline
  | .deq _ => .pipeline
  | i => if 0xB0 ≤ insOp i && insOp i ≤ 0xB7 then .pipeline else .issued

/-- A wave whose faults with this tag have been answered as mapped. -/
def Wave.mapped (w : Wave) (tag : Word) : Wave :=
  let l := w.outst.map fun o => o.mapped tag
  { w with
    outst := l,
    hold := match w.hold with
      | .fault _ t _ => if t != tag then w.hold else (w.held.map Held.back).getD .none
      | h => h }

/-- The report with a tag is answered. -/
def State.answer (s : State) (tag action : Word) : State :=
  { s with faults := s.faults.filter fun r => r.tag != tag, mgmt := { s.mgmt with fresp := pair tag action } }

/-- Is a fault report with this tag open? -/
def State.asked (s : State) (tag : Word) : Bool := s.faults.any fun r => r.tag == tag

/-- FRESP_MAPPED: what waits for the page goes on, and the core replays what it has logged (R432). -/
def execFrespMapped (tag : Word) (s : State) : Host.Outcome State Fault Refusal :=
  if !s.asked tag then ok (s.answer tag 1)
  else
    let s := s.answer tag 1
    let s := s.mapWaves fun w => w.mapped tag
    let bulk (b : Bulk) : Bulk := match b.wait with
      | .fault _ t => if t == tag then { b with wait := .ready } else b
      | _ => b
    let core (c : Core) : Core := { c with
      log := c.log.map fun e => if e.tag == tag then { e with answered := true } else e, bulks := c.bulks.map bulk }
    ok { s with cores := s.cores.map fun c => (c.1, core c.2) }

/-- A wave takes PAGE_LOAD at the boundary where it is held; while it cannot, the fault is a deferred report (R396). -/
def State.pageLoad (s : State) (detail : Nat) (va : DWord) (held : Bool) : State :=
  let w := s.wave
  if held && !w.ended && w.trap.isNone && w.hold.yields then
    s.raise { code := 6, detail := detail, addr := va, pc := w.pc, retired := false, boundary := true }
  else s.report w.core w.slot { code := 6, detail := detail, addr := va }

/-- A CPA without the lanes whose source lies in a declined page: they write nothing (R272). -/
def CpaCopy.without (c : CpaCopy) (va : Nat) : CpaCopy :=
  let page := va / 4096
  let hit (x : LaneCopy) : Bool :=
    (c.tr.stale && c.tr.vbase.toNat / 4096 == page) || (decide (0 < x.valid) &&
      (c.tr.addr x.src / 4096 == page || c.tr.addr (x.src + (x.valid - 1 : Nat)) / 4096 == page))
  { c with lanes := c.lanes.filter fun x => !hit x }

/-- The outstanding instruction of the wave in focus that is declined: it leaves its destination unchanged; the writes of an
engine to the page are not made, and RAST goes on without it (R232, R396, R438). -/
def State.declineOutst (s : State) (o : Outst) (va : DWord) : State :=
  match o.eff with
  | .rast b g dr vc l =>
    (s.setOutst { o with wait := .ready, eff := .rast b g (sput dr (va.toNat / 4096)) vc l }).report s.wave.core s.wave.slot
      { code := 6, detail := 8, addr := va }
  | .stores wo items =>
    (s.setOutst { o with wait := .ready, eff := .stores wo (items.filter fun x => x.va / 4096 != va.toNat / 4096) }).report
      s.wave.core s.wave.slot { code := 8, detail := 7, addr := va }
  | .store _ => (s.setOutst { o with wait := .ready, eff := .writes [] }).report s.wave.core s.wave.slot { code := 8, detail := 7, addr := va }
  | .atomic _ _ none =>
    (s.setOutst { o with wait := .ready, eff := .writes [] }).report s.wave.core s.wave.slot { code := 8, detail := 7, addr := va }
  | .batch copies obj bytes ecc =>
    (s.setOutst { o with wait := .ready, eff := .batch (copies.map fun c => c.without va.toNat) obj bytes ecc }).pageLoad 4 va true
  | .rayq _ _ _ _ => (s.closeOutst o).report s.wave.core s.wave.slot { code := 6, detail := 5, addr := va }
  | e => (s.setOutst { o with wait := .ready, eff := .writes [] }).pageLoad e.pageDetail va o.holds

/-- Declines for one wave: a held fetch or held instruction, then its outstanding instructions in issue order. [DEDUCED, log 113] -/
def State.declineWave (s : State) (core slot : Nat) (tag : Word) : State :=
  let t := s.focus core slot
  if !t.wave.at_ core slot then s
  else
    let w := t.wave
    let t := match w.hold with
      | .fault va g detail =>
        if g != tag then t
        else
          let v := { w with hold := .none, held := none }
          if detail = 8 then
            let pages := sput w.dropped (va.toNat / 4096)
            let on : Hold := if w.held.isSome then .issued else .none
            State.report { t with wave := { w with hold := on, dropped := pages } } core slot { code := 6, detail := 8, addr := va }
          else State.pageLoad { t with wave := v } detail va true
      | _ => t
    t.wave.outst.foldl (fun t o =>
      match o.wait with
      | .fault va g => if g == tag then (t.focus core slot).declineOutst o va else t
      | _ => t) t

/-- Is it the wave of a suspended group that made a log entry (R397)? -/
def Suspended.made (g : Suspended) (core : Nat) (e : LogEntry) (w : Wave) : Bool :=
  g.core == core && g.group.launch == e.launch && w.slot == e.slot

/-- The suspended wave that made a log entry of a core. -/
def State.suspendedWave (s : State) (core : Nat) (e : LogEntry) : Option Wave :=
  s.suspended.findSome? fun g => g.waves.find? fun w => g.made core e w

/-- Changes it. -/
def State.onSuspended (s : State) (core : Nat) (e : LogEntry) (f : Wave → Wave) : State :=
  let one (g : Suspended) : Suspended := { g with waves := g.waves.map fun w => if g.made core e w then f w else w }
  { s with suspended := s.suspended.map one }

/-- A deferred report for a suspended wave: taken at the first boundary after resumption (R385, R397). -/
def Wave.takesReport (w : Wave) (r : Report) : Wave :=
  if w.reports.length < 4 then { w with reports := w.reports ++ [r] } else { w with lost := w.lost + 1 }

/-- The same, with the record of a report that is lost (R385). -/
def State.reportSuspended (s : State) (core : Nat) (e : LogEntry) (r : Report) : State :=
  match s.suspendedWave core e with
  | none => s
  | some w =>
    let s := s.onSuspended core e fun w => w.takesReport r
    if w.reports.length < 4 then s else s.boxRecord (dieOf core) (w.record 12 r.code r.detail s.clock r.addr w.pc)

/-- The entries of a core's side log with this tag are discarded, and their waves take PROTECTION with detail 7 (R232). -/
def State.declineLog (s : State) (core : Nat) (tag : Word) : State :=
  let co := s.core core
  let gone := co.log.filter fun e => e.tag == tag && !e.answered
  let no (e : LogEntry) : Report := { code := 8, detail := 7, addr := e.va }
  let s := s.setCore core { co with log := co.log.filter fun e => !(e.tag == tag && !e.answered) }
  gone.foldl (fun s e =>
    let mine := match s.findWave core e.slot with
      | some w => w.launch == e.launch
      | none => false
    if mine then s.report core e.slot (no e)
    else if (s.suspendedWave core e).isSome then s.reportSuspended core e (no e)
    else
      let r : BoxRecord :=
        { kind := 9, code := 8, detail := 7, core := core, wave := e.slot % 64, clock := s.clock, addr := e.va, pc := 0 }
      s.boxRecord (dieOf core) r) s

/-- A bulk copy whose page is declined goes on without it, and its wave is told (R281). -/
def State.declineBulks (s : State) (core : Nat) (tag : Word) : State :=
  (s.core core).bulks.foldl (fun s b =>
    match b.wait with
    | .fault va g =>
      if g != tag then s
      else
        let page := va.toNat / 4096
        let left := b.items.map fun l => l.filter fun x => x.va / 4096 != page
        let b := { b with wait := .ready, dropped := sput b.dropped page, items := left }
        (s.putBulk core b).report core b.slot { code := 6, detail := 4, addr := va }
    | _ => s) s

/-- FRESP_DECLINED (R396, R432). -/
def execFrespDeclined (tag : Word) (s : State) : Host.Outcome State Fault Refusal :=
  if !s.asked tag then ok (s.answer tag 2)
  else
    let s := s.answer tag 2
    let s := (s.allWaves.map fun w => (w.core, w.slot)).foldl (fun s p => s.declineWave p.1 p.2 tag) s
    ok ((s.cores.map (·.1)).foldl (fun s c => (s.declineLog c tag).declineBulks c tag) s)

/-! ### Replay of the side log (R230, R402) -/

/-- Runs a step with a wave in focus that is not resident: the state after it, and what the wave has become. -/
def State.standIn (s : State) (w : Wave) (f : State → State) : State × Wave :=
  let old := s.wave
  let t := f { s with wave := w, waves := old :: s.waves }
  ({ t with wave := (t.waves.find? fun v => v.at_ old.core old.slot).getD old,
            waves := t.waves.filter fun v => !v.at_ old.core old.slot }, t.wave)

/-- Runs a step for the wave that made a log entry; one that has gone is stood for by an ended wave. -/
def State.asLogger (s : State) (core : Nat) (e : LogEntry) (f : State → State) : State :=
  let mine := match s.findWave core e.slot with
    | some w => w.launch == e.launch
    | none => false
  if mine then f (s.focus core e.slot)
  else
    match s.suspendedWave core e with
    | some w =>
      let (t, v) := s.standIn w f
      t.onSuspended core e fun _ => v
    | none =>
      (s.standIn { agentWave core with slot := e.slot % 64 + 2 ^ 40, launch := e.launch, priv := false, ended := true } f).1

/-- Replaces a core's log entry. -/
def State.putLog (s : State) (core : Nat) (e : LogEntry) : State :=
  let co := s.core core
  let log := if e.lanes.isEmpty then co.log.filter fun x => !(x.id == e.id && x.va == e.va)
    else co.log.map fun x => if x.id == e.id && x.va == e.va then e else x
  s.setCore core { co with log := log }

/-- The lanes of an entry are performed as relaxed accesses in ascending order as far as they can be (R402): what is left, and the tag of a new report
when the page does not translate. -/
def State.replayLanes (s : State) (e : LogEntry) : List (Nat × DWord × List Byte) →
    State × List (Nat × DWord × List Byte) × Option Word
  | [] => (s, [], none)
  | (lane, va, data) :: l =>
    let c : MemCap := { trn := 0, tr := TransReg.reset, nbytes := e.nbytes, lanes := [], done := [], order := 0, scope := 0, rels := e.rels }
    let pcieOp := match e.op with
      | some op => nativeOp op
      | none => false
    let h : How := { acc := .store, rmw := e.op.isSome, pcieOp := pcieOp, helper := true }
    match s.laneDo c { lane := lane, off := (va.toNat : Int), data := data } h (writtenBytes e.op data) with
    | .ok s _ none => s.replayLanes e l
    | .ok _ _ (some pa) => (s.deferErr 0x11 0 pa).replayLanes e l
    | .err t code d addr => (t.deferErr code d addr, [], none)
    | .wait t => (s.asks t, (lane, va, data) :: l, none)
    | .retry t => (t, (lane, va, data) :: l, none)
    | .fault _ addr =>
      let (s, tag) := s.reportFault s.wave.core addr 2
      (s, (lane, va, data) :: l, some tag)

/-- SIDE_LOG_REPLAY: a core's entries are replayed in the order in which they were logged, each once the driver has mapped its
page (R230). [DEDUCED, log 111] -/
def execSideLogReplay (core : Nat) (s : State) : Host.Outcome State Fault Refusal :=
  ok (match (s.core core).log with
    | [] => s
    | e :: _ =>
      if !e.answered then s
      else s.asLogger core e fun s =>
        let (s, left, tag) := s.replayLanes e (sortBy (fun (x : Nat × DWord × List Byte) => x.1) e.lanes)
        s.putLog core (match tag with
          | some t => { e with lanes := left, tag := t, answered := false }
          | none => { e with lanes := left }))

/-! ### Barrier route tags (R123) -/

/-- BART_RELEASE: the waves held at a tag whose phase is complete are Ready again, 40 or 180 clocks after the last arrival. -/
def execBartRelease (launch tag : Nat) (s : State) : Host.Outcome State Fault Refusal :=
  let la := s.launch launch
  if la.phase.any fun p => p.1 == tag && decide (p.2 ≤ s.clock) then
    let s := s.setLaunch launch { la with phase := la.phase.filter fun p => !(p.1 == tag && decide (p.2 ≤ s.clock)) }
    ok (s.mapWaves fun w =>
      if !w.priv && w.launch == launch && w.hold == .bart tag && w.arrived.isNone then { w with hold := .none } else w)
  else ok s

end Sys2Proof.Machine
end

