-- ==== Sys2Proof/Machine/Mica.lean ====
section
/-! DEFINITION. The queue unit's own steps: host fills, CLOSE, revalidation of a header, serving of waiters, steals, and the
host's freeing of event ring space (R40, R41, R45, R47, R59 to R62). -/

namespace Sys2Proof.Machine

/-- Where a host write of a queue's page lands: the physical address behind a virtual one (R436). -/
def State.physOf (s : State) (va : Nat) : Option Nat :=
  match s.walk va with
  | .leaf t => some t.pbase.toNat
  | _ => none

/-- The waiters of a queue, ENQs and DEQs alike, oldest first. -/
def State.queueWaiters (s : State) (q : DWord) : List (Nat × Nat) :=
  s.waiters fun w => match w.enqSince q with
    | some n => some n
    | none => w.deqSince q

/-- Does the wave of a core and slot wait on the queue? -/
def State.stillWaits (s : State) (q : DWord) (core slot : Nat) : Bool :=
  match s.findWave core slot with
  | some w => (w.enqSince q).isSome || (w.deqSince q).isSome
  | none => false

/-- Serves the first of the waiters, in order, that does not wait on; has one been served? -/
def State.serveFirst (s : State) (q : DWord) : List (Nat × Nat) → State × Bool
  | [] => (s, false)
  | (c, sl) :: l =>
    let t := s.serve c sl
    if t.stillWaits q c sl then t.serveFirst q l else (t, true)

/-- Serves every one of the waiters once, in order. -/
def State.serveEach (s : State) (l : List (Nat × Nat)) : State := l.foldl (fun s x => s.serve x.1 x.2) s

/-- BUCKET_FILL: the host raises TAIL of a shard with one store, which releases what it has before it (R41, R352). [DEDUCED, log 110] -/
def execBucketFill (queue : DWord) (shard : Nat) (tail : DWord) (s : State) : Host.Outcome State Fault Refusal :=
  ok (match s.physOf (queue.toNat + 72 + 64 * (shard % 4)) with
    | none => s
    | some pa => ((s.physWrite pa (toBytes tail.toNat 8)).writeRel (s.devAt pa).2 8 false [(5, s.hbHost)]).unpark queue)

/-- QUEUE_CLOSE_WAKE: the queue unit wakes the waiting DEQs; each takes an entry, ends with scc = 0, or waits on (R39,
R41). -/
def execQueueCloseWake (queue : DWord) (s : State) : Host.Outcome State Fault Refusal :=
  ok (match s.qhead 0 queue.toNat with
    | .ok _ h => if h.close then s.serveEach (s.waiters fun w => w.deqSince queue) else s
    | _ => s)

/-- QUEUE_HEADER_REVALIDATE: on a header that is invalid the oldest waiter raises Q_HEADER, which halts the queue; on a halted
queue every waiter raises Q_HALTED (R40, R45). -/
def execQueueHeaderRevalidate (queue : DWord) (s : State) : Host.Outcome State Fault Refusal :=
  ok (match s.qhead 0 queue.toNat with
    | .ok _ h => if h.qerr != 0 || !h.valid then s.serveEach (s.queueWaiters queue) else s
    | _ => s)

/-- QUEUE_WAITER_SERVE: freed room of a shard goes to the oldest ENQ that it fits, a new entry to the oldest waiting DEQ of
the die (R40). -/
def execQueueWaiterServe (queue : DWord) (shard : Nat) (s : State) : Host.Outcome State Fault Refusal :=
  let e := s.serveFirst queue (s.enqWaiters queue shard)
  let s := if e.2 then e.1.unpark queue else e.1
  ok (match s.deqWaiters queue shard with
    | (c, sl) :: _ => s.serve c sl
    | [] => s)

/-- STEAL_OPTIMISTIC (R61). -/
def execStealOptimistic (queue : DWord) (die : Nat) (s : State) : Host.Outcome State Fault Refusal :=
  ok (s.steal queue die false)

/-- STEAL_LOCKED (R61). -/
def execStealLocked (queue : DWord) (die : Nat) (s : State) : Host.Outcome State Fault Refusal :=
  ok (s.steal queue die true)

/-- EVCONS_WRITE: the host frees space of the event ring; the overflow entries that are owed come first (R47). -/
def execEvconsWrite (value : Word) (s : State) : Host.Outcome State Fault Refusal :=
  if s.boot.state != 3 && s.boot.state != 4 then ok s
  else ok (State.payOwed { s with mgmt := { s.mgmt with evcons := value } })

end Sys2Proof.Machine
end

