-- ==== Sys2Proof/Machine/Packets.lean ====
section
/-! DEFINITION. Command streams and packets: claiming, refusal, completion, parking, and the packets that complete by
themselves: NOP, WAITV, SIGNAL, HARVEST, SHOOTDOWN (R13 to R15, R23 to R29, R226, R235, R435 to R437). -/

namespace Sys2Proof.Machine

/-! ### Stream records (R23) -/

/-- The number in bytes `i` to `i + n - 1` of a stream record. -/
def State.streamNum (s : State) (st i n : Nat) : Nat := s.devNat (s.streamAt st + i) n

/-- Entries of a stream's ring. -/
def State.ringLen (s : State) (st : Nat) : Nat := 2 ^ s.streamNum st 8 1

/-- May a stream be claimed from: LOG2S in range, reserved bytes zero (R23)? -/
def State.streamGood (s : State) (st : Nat) : Bool :=
  let l := s.streamNum st 8 1
  decide (4 ≤ l) && decide (l ≤ 16) && s.streamNum st 9 7 == 0 && s.streamNum st 41 3 == 0

/-- Address of the status word of a ticket (R26). -/
def State.statusAt (s : State) (st t : Nat) : Nat := s.streamNum st 56 8 + 8 * (t % s.ringLen st)

/-- A write by physical address that has to wait keeps new leases from its line and asks the host for its copy (R250, R378). -/
def State.wants (s : State) (pa : Nat) : State := if s.devHeld pa then s.wantFor false pa 1 else s

/-! ### Claiming (R25) -/

/-- Parked packets of an agent. -/
def State.parkedOf (s : State) (core : Nat) : Nat := (s.packets.filter fun p => p.core == core && p.parked).length

/-- Has a stream a packet that may be claimed (R25)? -/
def State.streamReady (s : State) (st : Nat) : Bool :=
  let t := s.streamNum st 24 8
  s.streamGood st && decide (t < s.streamNum st 16 8) && decide (t < s.streamNum st 32 8 + s.ringLen st) && s.streamNum st 40 1 == 0

/-- May the agent of a core claim from a stream now (R25)? -/
def State.claimable (s : State) (core st : Nat) : Bool :=
  s.boot.state == 4 && decide (core < Config.cores) && decide (st < 16) && decide (s.parkedOf core < 4) && s.streamReady st

/-- The stream that an agent claims from next: the first that it can after the one it claimed from last, and from stream 0 on
before it has claimed (R25). [DESIGN CHOICE, log 132] -/
def State.nextStream (s : State) (core : Nat) : Option Nat :=
  let last := tget 15 s.lastStream core
  ((List.range 16).map fun i => (last + 1 + i) % 16).find? fun st => s.claimable core st

/-- What an acquire at system scope by the agent of a core joins as it reads `n` bytes at a physical address (R25, R352). -/
def State.agentSees (s : State) (core pa n : Nat) : Vec :=
  (State.readRel { s with wave := { agentWave core with hb := [] } } (s.devAt pa).2 n 1 5).wave.hb

/-- PACKET_CLAIM: the agent reads WPTR with acquire order, swaps TICKET to t + 1 and owns packet t, which it reads; it visits
the streams in turn (R25). [DEDUCED, log 153] -/
def execPacketClaim (core stream : Nat) (s : State) : Host.Outcome State Fault Refusal :=
  if s.nextStream core != some stream then ok s
  else
    let at_ := s.streamAt stream + 24
    let t := s.streamNum stream 24 8
    if s.devHeld at_ then ok (s.wants at_)
    else
      let entry := s.streamNum stream 0 8 + 64 * (t % s.ringLen stream)
      let bs := s.devRead entry 64
      let s := ((s.touch (s.streamAt stream) 64).touch entry 64).physWrite at_ (toBytes (t + 1) 8)
      ok { s with
        lastStream := tset s.lastStream core stream,
        packets := s.packets ++
          [{ stream := stream, ticket := t, core := core, bytes := bs, parked := false, launch := none,
             vc := s.agentSees core (s.streamAt stream + 16) 8 }] }

/-! ### A packet's own bytes (R13, R14, R435) -/

/-- The number in bytes `i` to `i + n - 1` of a packet. -/
def Packet.num (p : Packet) (i n : Nat) : Nat := ofBytes ((p.bytes.drop i).take n)
def Packet.type (p : Packet) : Nat := p.num 0 1
def Packet.ord (p : Packet) : Bool := nbit (p.num 0 8) 8
def Packet.evt (p : Packet) : Bool := nbit (p.num 0 8) 9
def Packet.seq (p : Packet) : Nat := p.num 2 2

/-- Is a reserved bit or value of the packet's body set? An ARGLEN that R14 does not allow counts as one. [DESIGN CHOICE, log 130] -/
def Packet.bodyBad (p : Packet) : Bool :=
  match p.type with
  | 1 => p.num 32 4 % 16 != 0 || decide (65536 < p.num 32 4) || p.num 36 4 != 0 || p.num 48 16 != 0
  | 2 => p.num 24 40 != 0
  | 3 => decide (1 < p.num 24 1) || p.num 25 39 != 0
  | 4 => p.num 16 8 % 4096 != 0 || p.num 16 8 == 0 || p.num 32 32 != 0
  | 5 => p.num 24 40 != 0
  | _ => p.num 8 56 != 0

/-- Does an address of the packet break its alignment? -/
def Packet.misaligned (p : Packet) : Bool :=
  match p.type with
  | 1 => p.num 8 8 % 64 != 0 || p.num 16 8 % 256 != 0 || p.num 24 8 % 16 != 0 || p.num 40 8 % 8 != 0
  | 2 => p.num 8 8 % 8 != 0
  | 3 => p.num 8 8 % 8 != 0
  | 4 => p.num 8 8 % 4096 != 0 || p.num 24 8 % 8 != 0
  | _ => false

/-- Stage 1 of R435: the lowest code among the breaches of the packet's own bytes. -/
def Packet.breach (p : Packet) : Option Nat :=
  if 5 < p.type then some 1
  else if p.num 4 4 != 0 || p.num 1 1 / 4 != 0 || p.bodyBad then some 2
  else if p.misaligned then some 9
  else none

/-! ### Completion and refusal (R26, R29, R32) -/

/-- The physical addresses that the end of a packet writes. -/
def State.endAddrs (s : State) (p : Packet) : List Nat :=
  [s.streamAt p.stream + 32, s.streamAt p.stream + 40, s.streamAt p.stream + 48, s.statusAt p.stream p.ticket]

/-- Can the end of a packet be written now? [DEDUCED, log 96] -/
def State.canEnd (s : State) (p : Packet) : Bool := (s.endAddrs p).all fun a => !s.devHeld a

/-- What keeps the end of a packet from being written is asked to give way. -/
def State.wantEnd (s : State) (p : Packet) : State := (s.endAddrs p).foldl (fun s a => s.wants a) s

/-- RETIRE after every completed packet without a gap, from `r` on (R26). -/
def State.retireFrom (s : State) (st r : Nat) : Nat → Nat
  | 0 => r
  | n + 1 => if s.devNat (s.statusAt st r) 8 == (r + 1) % 2 ^ 64 then s.retireFrom st (r + 1) n else r

/-- Replaces a packet. -/
def State.putPacket (s : State) (p : Packet) : State :=
  { s with packets := s.packets.map fun q => if q.stream == p.stream && q.ticket == p.ticket then p else q }

/-- Its agent parks a packet (R27). -/
def State.park (s : State) (p : Packet) : State := s.putPacket { p with parked := true }

/-- A packet ends: refused with `code`, or complete when that is 0. ERR and ERRTKT, the status word, with release
order at system scope, RETIRE, the event, in the order of R29; what the packet did lies before what starts after it (R352). -/
def State.endPacket (s : State) (p : Packet) (code : Nat) (vc : Vec) : State :=
  let a := s.streamAt p.stream
  let s := if code != 0 && s.streamNum p.stream 40 1 == 0 then
      (s.physWrite (a + 40) (toBytes code 1)).physWrite (a + 48) (toBytes p.ticket 8)
    else s
  let st := s.statusAt p.stream p.ticket
  let s := (s.physWrite st (toBytes (p.ticket + 1) 8)).writeRel (s.devAt st).2 8 false [(5, vc)]
  let r := s.retireFrom p.stream (s.streamNum p.stream 32 8) 65536
  let s := (s.touch (s.statusAt p.stream r) 8).physWrite (a + 32) (toBytes r 8)
  let die := dieOf p.core
  let s := if code != 0 then s.postEvent p.stream die (eventBytes 2 code die p.seq p.stream p.ticket 0 0)
    else if p.evt then s.postEvent p.stream die (eventBytes 1 0 die p.seq p.stream p.ticket 0 0)
    else s
  { s with
    packets := s.packets.filter fun q => !(q.stream == p.stream && q.ticket == p.ticket),
    hbStream := tset s.hbStream p.stream (vecJoin (tget [] s.hbStream p.stream) vc) }

/-- What lies before the start of a packet: what its claim has acquired, and with ORD what the earlier packets of its stream
have done (R25, R352). [DEDUCED, log 100] -/
def State.startVec (s : State) (p : Packet) : Vec := if p.ord then vecJoin (tget [] s.hbStream p.stream) p.vc else p.vc

/-- Is the word of a WAITV refused: no translation, or no READ (R437)? -/
def State.waitvRefused (s : State) (p : Packet) : Bool :=
  p.type == 2 && match s.vio p.core (p.num 8 8) 8 (fun _ => none) How.load id with
    | .ok _ _ => false
    | .wait _ => false
    | _ => true

/-- The agent examines a packet that has not been carried out: refused by its own bytes, refused by the word of a WAITV, which
is checked at the claim, parked by ORD, or carried out (R27, R435, R437). -/
def State.examine (s : State) (p : Packet) (carry : State → State) : State :=
  if !s.canEnd p then s.wantEnd p
  else
    match p.breach with
    | some c => s.endPacket p c []
    | none =>
      if !p.parked && s.waitvRefused p then s.endPacket p 0x0A []
      else if p.ord && decide (s.streamNum p.stream 32 8 < p.ticket) then s.park p
      else carry (s.focus p.core 15)

/-- The packet of a ticket of a stream that has been claimed and not ended. -/
def State.packetAt (s : State) (stream ticket : Nat) : Option Packet :=
  s.packets.find? fun p => p.stream == stream && p.ticket == ticket

/-- A step of an agent with one of its packets, of the types for which `is` holds. [DEDUCED, log 97] -/
def State.packetStep (s : State) (stream ticket : Nat) (is : Nat → Bool) (carry : State → Packet → State) : State :=
  match s.packetAt stream ticket with
  | some p => if is p.type then s.examine p fun s => carry s p else s
  | none => s

/-! ### WAITV and SIGNAL (R14, R437) -/

/-- WAITV: its word is read, with acquire order at system scope when it satisfies the wait. -/
def State.carryWaitv (s : State) (p : Packet) : State :=
  match s.vio p.core (p.num 8 8) 8 (fun _ => none) How.load id with
  | .ok t a =>
    if ofBytes a.1 < p.num 16 8 then t.park p
    else
      let old := t.wave
      let t := State.readRel { t with wave := { old with hb := s.startVec p } } a.2 8 1 5
      State.endPacket { t with wave := old } p 0 t.wave.hb
  | .wait t => (s.asks t).park p
  | _ => s.endPacket p 0x0A []

/-- SIGNAL: stores or adds with release order at system scope. -/
def State.carrySignal (s : State) (p : Packet) : State :=
  let add := p.num 24 1 == 1
  let v := toBytes (p.num 16 8) 8
  let h : How := if add then { acc := .store, rmw := true, pcieOp := true, helper := true } else How.store
  let need (t : TransReg) : Option Nat := if add && !t.perm.getLsbD 0 then some 1 else none
  match s.vio p.core (p.num 8 8) 8 need h fun old => if add then atomicBytes 0 v old else v with
  | .ok t a =>
    let vc := s.startVec p
    (t.writeRel a.2 8 add [(5, vc)]).endPacket p 0 vc
  | .wait t => s.asks t
  | _ => s.endPacket p 0x0A []

/-! ### HARVEST (R235, R437) -/

/-- Does a byte at a virtual address stand in a page that a store may write? -/
def State.storable (s : State) (va : Nat) : Bool :=
  match s.walk va with
  | .leaf t => va / 2 ^ 52 == 0 && (permFail t .store).isNone && (geomFail t).isNone && t.kind != 3
  | _ => false

/-- The DIRTY bit of the 4 KiB at a virtual address, cleared as it is read (R235). -/
def State.harvestOne (s : State) (va : Nat) : State × Bool :=
  match s.walk va with
  | .leaf t =>
    let pa := t.pbase.toNat
    if t.kind == 3 || !inFrame pa || 2 ^ 52 ≤ va then (s, false)
    else
      let r := s.frameRec pa
      ({ s with frames := cset s.frames (pa / 4096) (r &&& ~~~BitVec.ofNat 64 (2 ^ 49)) }, r.getLsbD 49)
  | _ => (s, false)

/-- The DIRTY bits of `n` units of 4 KiB. -/
def State.harvestAll (s : State) (va : Nat) : Nat → State × List Bool
  | 0 => (s, [])
  | n + 1 =>
    let (s, b) := s.harvestOne va
    let (s, l) := s.harvestAll (va + 4096) n
    (s, b :: l)

/-- Bits as bytes, the first in bit 0 of the first byte. [DEDUCED, log 99] -/
def packBits (l : List Bool) : Nat := l.foldr (fun b n => 2 * n + (if b then 1 else 0)) 0

/-- Writes bytes at virtual addresses, eight at a time. -/
def State.vwrite (s : State) (core va : Nat) (bs : List Byte) : Nat → Try Bool
  | 0 => .ok s true
  | fuel + 1 =>
    if bs.isEmpty then .ok s true
    else
      (s.vio core va (min 8 bs.length) (fun _ => none) How.store fun _ => bs.take 8).andThen fun s _ =>
        s.vwrite core (va + 8) (bs.drop 8) fuel

/-- HARVEST. -/
def State.carryHarvest (s : State) (p : Packet) : State :=
  let n := p.num 16 8 / 4096
  let nb := (n + 7) / 8
  let map := p.num 24 8
  let pages := (List.range (nb / 4096 + 1)).map fun i => map + min (4096 * i) (nb - 1)
  if !(pages ++ [map + nb - 1]).all fun va => s.storable va then s.endPacket p 0x0A []
  else
    let (t, l) := s.harvestAll (p.num 8 8) n
    match t.vwrite p.core map (toBytes (packBits l) nb) nb with
    | .ok t _ => t.endPacket p 0 (s.startVec p)
    | .wait t => s.asks t
    | _ => s.endPacket p 0x0A []

/-! ### SHOOTDOWN (R226) -/

/-- Does the page of a translation overlap the range; length 0 is everything? -/
def TransReg.inRange (t : TransReg) (base len : Nat) : Bool := len == 0 || meets t.vpage t.bytes base len

/-- The translation, STALE where its page overlaps the range. -/
def TransReg.shot (t : TransReg) (base len : Nat) : TransReg := if t.inRange base len then { t with stale := true } else t

/-- The same in a result in flight. -/
def WaveWrite.shot (base len : Nat) : WaveWrite → WaveWrite
  | .treg n t => .treg n (t.shot base len)
  | w => w

/-- The same in the captured accesses of an instruction; scratchpad of the wave's own group has no translation. -/
def MemCap.shot (c : MemCap) (base len : Nat) : MemCap := if c.trn == 8 then c else { c with tr := c.tr.shot base len }

/-- The same in a copy. -/
def CpaCopy.shot (c : CpaCopy) (base len : Nat) : CpaCopy := { c with tr := c.tr.shot base len }

/-- The same in what an outstanding instruction still has to do. -/
def Effect.shot (base len : Nat) : Effect → Effect
  | .writes ws => .writes (ws.map (WaveWrite.shot base len))
  | .load c d sx fill => .load (c.shot base len) d sx fill
  | .store c => .store (c.shot base len)
  | .atomic c op ret => .atomic (c.shot base len) op ret
  | .cas c d => .cas (c.shot base len) d
  | .ldk c d => .ldk (c.shot base len) d
  | .cpsm c dst => .cpsm (c.shot base len) dst
  | .worel c n => .worel (c.shot base len) n
  | .batch copies obj bytes ecc => .batch (copies.map fun c => c.shot base len) obj bytes ecc
  | e => e

/-- The same in everything a wave holds. -/
def Wave.shot (w : Wave) (base len : Nat) : Wave :=
  { w with
    tr := w.tr.map fun p => (p.1, p.2.shot base len), pend := w.pend.map fun p => (p.1, p.2.shot base len),
    outst := w.outst.map fun o => { o with eff := o.eff.shot base len }, batch := w.batch.map fun c => c.shot base len }

/-- Does a walk-cache entry hold an address of the range? -/
def walkInRange (base len : Nat) (e : Nat × Nat × Nat) : Bool :=
  len == 0 || meets (e.2.1 * 2 ^ (20 + 8 * e.1)) (2 ^ (20 + 8 * e.1)) base len

/-- SHOOTDOWN: every cached translation of the range goes, registers turn STALE, and what has not been performed walks
again. -/
def State.carryShootdown (s : State) (p : Packet) : State :=
  let base := p.num 8 8
  let len := p.num 16 8
  let keepTlb (l : List TransReg) : List TransReg := l.filter fun t => !t.inRange base len
  let core (c : Core) : Core := { c with tlb := keepTlb c.tlb }
  let die (d : Die) : Die := { d with tlb := keepTlb d.tlb, walk := d.walk.filter fun e => !walkInRange base len e }
  let t := s.mapWaves fun w => w.shot base len
  let t : State := { t with cores := t.cores.map fun c => (c.1, core c.2), dies := t.dies.map fun d => (d.1, die d.2) }
  t.endPacket p 0 (s.startVec p)

/-! ### The packets' events -/

/-- NOP_PACKET: a NOP completes at once; a packet of a reserved type is refused (R14). -/
def execNopPacket (stream ticket : Nat) (s : State) : Host.Outcome State Fault Refusal :=
  ok (s.packetStep stream ticket (fun t => t == 0 || 5 < t) fun s p => s.endPacket p 0 (s.startVec p))

/-- WAITV (R14, R27). -/
def execWaitv (stream ticket : Nat) (s : State) : Host.Outcome State Fault Refusal :=
  ok (s.packetStep stream ticket (· == 2) State.carryWaitv)

/-- SIGNAL (R14). -/
def execSignal (stream ticket : Nat) (s : State) : Host.Outcome State Fault Refusal :=
  ok (s.packetStep stream ticket (· == 3) State.carrySignal)

/-- HARVEST (R235). -/
def execHarvest (stream ticket : Nat) (s : State) : Host.Outcome State Fault Refusal :=
  ok (s.packetStep stream ticket (· == 4) State.carryHarvest)

/-- SHOOTDOWN (R226). -/
def execShootdown (stream ticket : Nat) (s : State) : Host.Outcome State Fault Refusal :=
  ok (s.packetStep stream ticket (· == 5) State.carryShootdown)

end Sys2Proof.Machine
end

