-- ==== Sys2Proof/Machine/Launch.lean ====
section
/-! DEFINITION. The life of a launch: capture and validation of its records, tags and dispenser, placement, start, the return
of wave slots, the freeing of groups, completion (R15 to R22, R30 to R33, R48 to R54, R405 to R408, R435). -/

namespace Sys2Proof.Machine

/-! ### The records of a LAUNCH (R16 to R22) -/

/-- Reads `n` bytes at virtual addresses in units of 16 bytes (R22). -/
def State.capUnits (s : State) (core va : Nat) : Nat → Try (List Byte)
  | 0 => .ok s []
  | n + 1 =>
    (s.vio core va 16 (fun _ => none) How.load id).andThen fun s a =>
      (s.capUnits core (va + 16) n).andThen fun s bs => .ok s (a.1 ++ bs)

/-- A launch header as captured. -/
structure Header where
  bytes : List Byte

/-- The number in bytes `i` to `i + n - 1` of a header. -/
def Header.num (h : Header) (i n : Nat) : Nat := ofBytes ((h.bytes.drop i).take n)

/-- Bits `hi` to `lo` of word 0 (R16). -/
def Header.field (h : Header) (hi lo : Nat) : Nat := h.num 0 8 / 2 ^ lo % 2 ^ (hi + 1 - lo)

def Header.width (h : Header) : Nat := 16 * 2 ^ h.field 9 8
def Header.waves (h : Header) : Nat := h.field 13 10 + 1
def Header.vregs (h : Header) : Nat := 8 * (h.field 18 14 + 1)
def Header.fpool (h : Header) : Nat := h.field 24 19
def Header.spad (h : Header) : Nat := h.field 34 25
def Header.acc (h : Header) : Nat := h.field 39 35
def Header.tiles (h : Header) : Nat := h.field 44 40
def Header.btags (h : Header) : Nat := h.field 52 45
def Header.wsrc (h : Header) : Nat := h.field 54 53
def Header.gang (h : Header) : Bool := h.field 55 55 == 1
/-- W0 to W5 (R17). -/
def Header.widths (h : Header) : List Nat := (List.range 6).map fun k => h.num 8 8 / 2 ^ (6 * k) % 64
/-- EXT0 to EXT5, 0 standing for 2^32 (R19). -/
def Header.ext (h : Header) : List Nat := (List.range 6).map fun k => h.num (24 + 4 * k) 4
def Header.tdcount (h : Header) : Nat := h.num 64 2
/-- COREIDs of CMASK, ascending. -/
def Header.cores (h : Header) : List Nat := (List.range Config.cores).filter fun n => nbit (h.num 96 48) n

/-- Granules of one wave (R48). -/
def granulesOf (vregs fpool width : Nat) : Nat := ((vregs + 8 * fpool) * width * 4 + 2047) / 2048

/-- The fields of non-zero width with their extents (R18, R19). -/
def Header.space (h : Header) : List (Nat × Nat) :=
  (h.widths.zip h.ext).filterMap fun p => if p.1 = 0 then none else some (p.1, if p.2 = 0 then 2 ^ 32 else p.2)

/-- Indexes of the dispenser (R19). -/
def Header.indexes (h : Header) : Nat := h.space.foldl (fun n p => n * p.2) 1

/-- Do the widths break R18? -/
def Header.widthsBad (h : Header) : Bool :=
  ((h.widths.zip (h.widths.drop 1)).any fun p => p.1 == 0 && p.2 != 0) || decide (64 < total h.widths)

/-- Do the extents break R19? -/
def Header.extentBad (h : Header) : Bool :=
  h.wsrc == 1 && (h.space.isEmpty || (h.space.any fun p => decide (2 ^ p.1 < p.2)) || decide (2 ^ 32 < h.indexes))

/-! ### Room on a core (R50 to R53) -/

/-- What a core has in use: group slots, scratchpad and accumulator ranges, tile registers, wave slots with their
granules. -/
structure Room where
  gslots : List Nat
  spad : List (Nat × Nat)
  acc : List (Nat × Nat)
  tiles : List Nat
  waves : List (Nat × Nat)

/-- A core that holds no group (R53): the agent's slot and granules alone (R50). -/
def Room.empty : Room := { gslots := [], spad := [], acc := [], tiles := [], waves := [(15, 2)] }

/-- What core `c` has in use. -/
def State.room (s : State) (c : Nat) : Room :=
  let gs := (List.range 8).filterMap fun g => (tfind s.groups (groupKey c g)).map fun x => (g, x)
  { gslots := gs.map (·.1), spad := gs.map fun x => (x.2.spadBase, x.2.spadLen), acc := gs.map fun x => (x.2.accBase, x.2.accLen),
    tiles := gs.flatMap fun x => x.2.tiles,
    waves := (15, 2) :: (s.allWaves.filter fun w => w.core == c && !w.priv && w.slot < 64).map fun w => (w.slot, w.granules) }

/-- What a group needs; its waves by their number in the group. -/
structure Need where
  waves : List Nat
  granules : Nat
  spad : Nat
  acc : Nat
  tiles : Nat

/-- Where a group fits: group slot, ranges, tile registers, WAVEIDs of its waves. -/
structure Fit where
  gslot : Nat
  spadBase : Nat
  accBase : Nat
  tiles : List Nat
  slots : List Nat

/-- The lowest multiple of `align` at which `need` bytes are free of the ranges in use (R51). -/
def lowestRange (used : List (Nat × Nat)) (need align size : Nat) : Option Nat :=
  if need = 0 then some 0
  else ((List.range (size / align)).map (· * align)).find? fun o =>
    decide (o + need ≤ size) && !used.any fun u => meets o need u.1 ((u.2 + align - 1) / align * align)

/-- Free granules of a pipe. -/
def Room.granules (r : Room) (p : Nat) : Nat :=
  Config.granulesPerPipe - total ((r.waves.filter fun x => x.1 / 16 == p).map (·.2))

/-- The pipes in the order in which they are tried as the starting pipe (R52). -/
def Room.starts (r : Room) : List Nat := sortBy (fun p => 1000 * (Config.granulesPerPipe - r.granules p) + p) (List.range 4)

/-- Gives waves, by number in the group, their slots from starting pipe `p0` on (R52). -/
def Room.seat (r : Room) (p0 gran : Nat) : List Nat → Option (List Nat)
  | [] => some []
  | w :: ws =>
    let p := (p0 + w) % 4
    match ((List.range 16).map (16 * p + ·)).find? fun sl => !r.waves.any fun x => x.1 == sl with
    | none => none
    | some sl =>
      if r.granules p < gran then none
      else (Room.seat { r with waves := r.waves ++ [(sl, gran)] } p0 gran ws).map (sl :: ·)

/-- Does a group fit, and where (R51, R52)? -/
def Room.fit (r : Room) (x : Need) : Option Fit :=
  let free := (List.range Config.tileRegs).filter fun t => !r.tiles.contains t
  match (List.range 8).find? fun g => !r.gslots.contains g, lowestRange r.spad x.spad 4096 Config.spadBytes,
      lowestRange r.acc x.acc 8192 Config.accBytes, r.starts.findSome? fun p => r.seat p x.granules x.waves with
  | some g, some sp, some ac, some sl =>
    if free.length < x.tiles then none
    else some { gslot := g, spadBase := sp, accBase := ac, tiles := free.take x.tiles, slots := sl }
  | _, _, _, _ => none

/-- Bytes of scratchpad that SPAD takes (R51). -/
def spadTaken (kib : Nat) : Nat := (kib + 3) / 4 * 4096

/-- What a group of a header needs. -/
def Header.need (h : Header) : Need :=
  { waves := List.range h.waves, granules := granulesOf h.vregs h.fpool h.width, spad := spadTaken h.spad, acc := 8192 * h.acc,
    tiles := h.tiles }

/-- What a group of a launch needs. -/
def Launch.need (l : Launch) : Need :=
  { waves := List.range l.nwave, granules := granulesOf l.vregs l.fpool l.width, spad := spadTaken l.spad, acc := 8192 * l.acc,
    tiles := l.tiles }

/-! ### Validation (R15, R435) -/

/-- The lowest code among the breaches of a header as captured. -/
def Header.breach (h : Header) (features : BitVec 128) : Option Nat :=
  let clusters := h.cores.map (· / 4)
  if h.field 63 56 != 0 || h.wsrc == 3 || 16 < h.tiles || 16 < h.acc || 512 < h.spad || 32 < h.fpool || h.field 9 8 == 3 ||
      h.num 8 8 / 2 ^ 36 != 0 || 256 < h.tdcount || h.num 66 6 != 0 || h.num 88 8 != 0 || h.num 144 48 != 0 then some 2
  else if h.field 7 0 != 1 then some 3
  else if h.widthsBad then some 4
  else if h.extentBad then some 5
  else if (Room.empty.fit h.need).isNone then some 6
  else if h.cores.isEmpty || (h.gang && clusters.any fun k => (clusters.filter (· == k)).length != 4) then some 7
  else if h.num 72 16 % 2 ^ 128 &&& (2 ^ 128 - 1 - features.toNat) != 0 || (h.gang && !features.getLsbD 7) then some 8
  else if h.num 56 8 % 64 != 0 || (h.wsrc == 2 && h.num 48 8 % 64 != 0) then some 9
  else none

/-- The lower of two codes. -/
def lowerCode : Option Nat → Option Nat → Option Nat
  | some a, some b => some (min a b)
  | some a, none => some a
  | none, b => b

/-- What a LAUNCH reads: header, argument block, descriptors, queue header if it is read. -/
structure Captured where
  head : Header
  args : List Byte
  desc : List Byte
  queue : Option QHead

/-- The read of the bound queue's header (R30). -/
def State.readQueue (s : State) (core : Nat) (h : Header) : Try (Option QHead) :=
  if h.wsrc == 2 && h.num 48 8 % 64 == 0 then
    (s.qhead core (h.num 48 8)).andThen fun s q => .ok s (some q)
  else .ok s none

/-- Captures the records of a LAUNCH (R22). Records that the header cannot name are not read. [DESIGN CHOICE, log 12; DEDUCED, log 98] -/
def State.capture (s : State) (p : Packet) : Try Captured :=
  (s.capUnits p.core (p.num 8 8) 12).andThen fun s hb =>
    let h : Header := { bytes := hb }
    (s.capUnits p.core (p.num 24 8) (p.num 32 4 / 16)).andThen fun s args =>
      (s.capUnits p.core (h.num 56 8) (if 256 < h.tdcount || h.num 56 8 % 64 != 0 then 0 else 4 * h.tdcount)).andThen fun s desc =>
        (s.readQueue p.core h).andThen fun s q => .ok s { head := h, args := args, desc := desc, queue := q }

/-- The lowest code among the breaches of the captured records (R435). -/
def Captured.breach (c : Captured) (features : BitVec 128) : Option Nat :=
  let descs := (List.range (c.desc.length / 64)).map fun i =>
    Desc.refused { bytes := (c.desc.drop (64 * i)).take 64 } features
  let queue := match c.queue with
    | some q => if q.valid then none else some 2
    | none => none
  lowerCode (c.head.breach features) (lowerCode (descs.foldl lowerCode none) queue)

/-- The launch that a captured packet becomes. -/
def Captured.launch (c : Captured) (p : Packet) (vc : Vec) : Launch :=
  let h := c.head
  { noLaunch with
    stream := p.stream, ticket := p.ticket, core := p.core, entry := bv (p.num 16 8), done := bv (p.num 40 8), evt := p.evt,
    seq := BitVec.ofNat 16 p.seq, width := h.width, nwave := h.waves, vregs := h.vregs, fpool := h.fpool, spad := h.spad,
    acc := h.acc, tiles := h.tiles, btags := BitVec.ofNat 8 h.btags, wsrc := h.wsrc, gang := h.gang, widfmt := h.widths,
    widbase := bv (h.num 16 8), ext := h.ext, qaddr := bv (h.num 48 8), reqfeat := BitVec.ofNat 128 (h.num 72 16),
    cmask := h.cores, args := c.args, desc := c.desc, dispN := h.indexes, hbStart := vc }

/-! ### Sequencing (R30 step 2, R33, R51) -/

/-- Step 2 of R30: route tags, a dispenser and PSEQ are taken, if enough are free. -/
def State.sequence (s : State) (n : Nat) : State :=
  let l := s.launch n
  let want := (List.range 8).filter fun t => l.btags.getLsbD t
  let free := (List.range 64).filter fun t => !s.tagsUsed.contains t
  let die := dieOf l.core
  let d := s.die die
  let disp := (List.range 16).find? fun i => !d.dispUsed.contains i
  if free.length < want.length || (l.wsrc == 1 && disp.isNone) then s
  else
    let s := match (if l.wsrc == 1 then disp else none) with
      | some i => s.setDie die { d with dispUsed := sput d.dispUsed i }
      | none => s
    let s := s.setLaunch n { l with
      sequenced := true, pseq := s.nextPseq, tags := want.zip free,
      disp := if l.wsrc == 1 then disp.map fun i => (die, i) else none }
    { s with nextPseq := s.nextPseq + 1, tagsUsed := s.tagsUsed ++ free.take want.length }

/-- The agent places a LAUNCH: it captures and validates, then takes tags, dispenser and PSEQ (R30). -/
def State.carryLaunch (s : State) (p : Packet) : State :=
  match s.capture p with
  | .ok t c =>
    match c.breach s.mgmt.featacc with
    | some code => t.endPacket p code []
    | none =>
      let n := t.fresh
      let t := (t.bump.setLaunch n (c.launch p (s.startVec p))).putPacket { p with parked := false, launch := some n }
      let q := bv (c.head.num 48 8)
      let t := if c.head.wsrc == 2 then t.setQunit q { t.qunit q with rotor := 0 } else t
      t.sequence n
  | .wait t => s.asks t
  | _ => s.endPacket p 0x0A []

/-- LAUNCH: placed, or held at step 2 until tags and a dispenser are free (R14, R30). -/
def execLaunch (stream ticket : Nat) (s : State) : Host.Outcome State Fault Refusal :=
  ok (match s.packetAt stream ticket with
    | none => s
    | some p =>
      if p.type != 1 then s
      else
        match p.launch with
        | some n => if (s.launch n).sequenced then s else s.sequence n
        | none => s.examine p fun s => s.carryLaunch p)

/-- The effect of a packet of any type, for a packet that is parked (R27). [DESIGN CHOICE, log 94] -/
def State.reexamine (s : State) (p : Packet) : State :=
  if !p.parked then s
  else s.examine p fun s =>
    match p.type with
    | 1 => s.carryLaunch p
    | 2 => s.carryWaitv p
    | 3 => s.carrySignal p
    | 4 => s.carryHarvest p
    | 5 => s.carryShootdown p
    | _ => s.endPacket p 0 (s.startVec p)

/-- PARKED_PACKET_REEXAMINE: a write on a watched line has been performed (R27). -/
def execParkedPacketReexamine (stream ticket : Nat) (s : State) : Host.Outcome State Fault Refusal :=
  ok (match s.packetAt stream ticket with
    | some p => s.reexamine p
    | none => s)

/-- PARK_RECHECK_TIMER: 100 µs have passed since the last examination (R27). -/
def execParkRecheckTimer (stream ticket : Nat) (s : State) : Host.Outcome State Fault Refusal :=
  match s.packetAt stream ticket with
  | none => ok s
  | some p => ok (s.reexamine p)

/-! ### Placement (R30, R31, R51, R52, R54) -/

/-- PLACEMENT_REQUEST: a core's agent receives the request of a launch (R30). -/
def execPlacementRequest (core launch : Nat) (s : State) : Host.Outcome State Fault Refusal :=
  let l := s.launch launch
  if !l.sequenced || !l.cmask.contains core || l.requested.contains core then ok s
  else
    let s := s.setLaunch launch { l with requested := sput l.requested core }
    ok (s.setCore core { s.core core with requests := sput (s.core core).requests launch })

/-- The launches that still wait for a grant of a core, by number, in ascending PSEQ. -/
def State.ungranted (s : State) (core : Nat) : List (Nat × Launch) :=
  sortBy (fun (x : Nat × Launch) => x.2.pseq)
    (s.launches.filter fun x => x.2.sequenced && x.2.cmask.contains core && !x.2.granted.contains core)

/-- The suspended contexts of a core, in ascending PSEQ of their launches (R56). -/
def State.suspendedOn (s : State) (core : Nat) : List Suspended :=
  sortBy (fun (g : Suspended) => (s.launch g.group.launch).pseq) (s.suspended.filter fun g => g.core == core)

/-- The gang that drains the cluster of a core (R55). -/
def State.drainer (s : State) (core : Nat) : Option Nat :=
  (s.launches.find? fun x => x.2.draining == some (core / 4)).map (·.1)

/-- May a core grant this launch now, as far as the order of R30, R55 and R56 goes? -/
def State.turnOf (s : State) (core n : Nat) : Bool :=
  (s.core core).requests.contains n &&
    match s.drainer core with
    | some g => g == n
    | none =>
      (match s.ungranted core with
        | x :: _ => x.1 == n
        | [] => false) &&
      match s.suspendedOn core with
      | g :: _ => decide ((s.launch n).pseq < (s.launch g.group.launch).pseq)
      | [] => true

/-- A wave of a launch as it stands from its placement to its start (R19, R105, R131). -/
def Launch.wave (l : Launch) (n core gslot slot windex uid : Nat) : Wave :=
  { Wave.reset with
    core := core, slot := slot, gslot := gslot, launch := n, windex := windex, priv := false, idle := false,
    suspended := true, width := l.width, vregs := l.vregs, pwords := 8 * l.fpool,
    granules := granulesOf l.vregs l.fpool l.width, pc := l.entry, em := lanesBelow l.width, live := lanesBelow l.width,
    uid := uid, hb := tset l.hbStart uid 1 }

/-- Position of a value in a list. -/
def indexIn (l : List Nat) (x : Nat) : Nat := (l.takeWhile (· != x)).length

/-- The tile registers of a list, zeroed (R289). -/
def Core.zeroTiles (c : Core) (ts : List Nat) : Core :=
  { c with tile := ts.foldl (fun m t => cclear m (Config.tileBytes * t) (Config.tileBytes * (t + 1))) c.tile }

/-- Is a core's agent its only resident wave (R408)? -/
def State.alone (s : State) (core : Nat) : Bool := (s.room core).waves.length == 1

/-- Grants a request on a core: the group takes its stores and its waves their slots (R51, R52); a core that holds its agent
alone drops its counted copies first (R408). [DEDUCED, log 107] -/
def State.place (s : State) (core n : Nat) (f : Fit) : State :=
  let l := s.launch n
  let c := s.core core
  let c := { c with requests := sdel c.requests n, counted := if s.alone core then [] else c.counted }
  let s := s.setCore core (c.zeroTiles f.tiles)
  let s := s.setGroup core f.gslot
    { noGroup with
      launch := n, gindex := indexIn l.cmask core, spadBase := f.spadBase, spadLen := 1024 * l.spad, accBase := f.accBase,
      accLen := 8192 * l.acc, tiles := f.tiles, waves := l.nwave, since := s.clock }
  let ws := f.slots.zipIdx.map fun x => l.wave n core f.gslot x.1 x.2 (Config.cores + s.fresh + x.2)
  let s := { s with waves := s.waves ++ ws, fresh := s.fresh + l.nwave }
  s.setLaunch n { l with
    granted := sput l.granted core, drain := none, draining := if l.draining == some (core / 4) then none else l.draining }

/-- The cores on which a launch is granted together with this one: the cluster, for a gang (R54). -/
def Launch.party (l : Launch) (core : Nat) : List Nat :=
  if l.gang then (List.range 4).map (core / 4 * 4 + ·) else [core]

/-- The request that a core grants next: that of the gang for which it is being drained, else the earliest. -/
def State.nextRequest (s : State) (core : Nat) : Option Nat :=
  match s.drainer core with
  | some g => if (s.launch g).granted.contains core then none else some g
  | none => (s.ungranted core).head?.map (·.1)

/-- PLACEMENT_GRANT: a core grants its earliest request, if the group fits; a gang's four cores at once (R30, R52, R54). -/
def execPlacementGrant (core : Nat) (s : State) : Host.Outcome State Fault Refusal :=
  ok (match s.nextRequest core with
    | none => s
    | some n =>
      let l := s.launch n
      let cs := l.party core
      let fits := cs.map fun c => if s.turnOf c n then (s.room c).fit l.need else none
      if fits.any Option.isNone then s
      else (cs.zip fits).foldl (fun s x => match x.2 with
        | some f => s.place x.1 n f
        | none => s) s)

/-- LAUNCH_START: every core has granted; the waves begin with their work identifiers and Age stamps (R19, R31, R100). -/
def execLaunchStart (launch : Nat) (s : State) : Host.Outcome State Fault Refusal :=
  let l := s.launch launch
  if !l.sequenced || l.started || l.granted.length != l.cmask.length then ok s
  else
    let first (w : Wave) : Nat := (s.core w.core).nextAge
    let go (w : Wave) : Wave :=
      if w.priv || w.launch != launch then w
      else { w with
        suspended := false, age := first w + w.windex,
        wid := l.widbase + bv ((s.group w.core w.gslot).gindex * l.nwave + w.windex) }
    let t := s.mapWaves go
    let t := l.cmask.foldl (fun t c => t.setCore c { t.core c with nextAge := (t.core c).nextAge + l.nwave }) t
    ok (t.setLaunch launch { l with started := true, drain := none, draining := none })

/-! ### The end (R405 to R407) -/

/-- Takes a wave out of the machine; the focus goes to the core's agent. -/
def State.dropWave (s : State) (core slot : Nat) : State :=
  let s := s.focus core 15
  if s.wave.at_ core slot then s else { s with waves := s.waves.filter fun w => !w.at_ core slot }

/-- What an ended wave leaves behind when its slot is returned: its stores and copies still go on, under a number that is no
wave slot (R127, R405). -/
def State.leaveBehind (s : State) (w : Wave) : State :=
  let ghost := w.slot % 64 + 64 * (s.fresh + 1)
  let c := s.core w.core
  let bulk (b : Bulk) : Bulk := if b.slot == w.slot && b.launch == w.launch then { b with slot := ghost } else b
  let s := s.bump.mapWave w.core w.slot fun v => { v with slot := ghost }
  s.setCore w.core { c with bulks := c.bulks.map bulk }

/-- May an ended wave return its slot: nothing that returns data to it is outstanding, no RAYQ, no MMAX waits for partners, and
what it has bound for its group's registers has landed (R293, R405)? -/
def Wave.returns (w : Wave) : Bool :=
  !w.priv && w.ended && w.pend.isEmpty && (w.k.all fun p => p.1 == 1 || p.2 == 0) && w.outst.all fun o =>
    match o.eff with
    | .rayq _ _ _ _ => false
    | .mmax _ _ _ _ _ => false
    | _ => true

/-- WAVE_SLOT_RETURN: an ended wave returns its slot and granules; stores and copies that have not completed go on without it
(R405). [DESIGN CHOICE, log 105] -/
def execWaveSlotReturn (core slot : Nat) (s : State) : Host.Outcome State Fault Refusal :=
  ok (match s.findWave core slot with
    | none => s
    | some w =>
      let busy := !w.outst.isEmpty || (s.core core).bulks.any fun b => b.slot == slot && b.launch == w.launch
      if !w.returns then s
      else if 64 ≤ slot then (if busy then s else s.dropWave core slot)
      else
        let g := s.group core w.gslot
        let s := s.setGroup core w.gslot { g with waves := g.waves - 1 }
        if busy then s.leaveBehind w else s.dropWave core slot)

/-- Writes back and releases the bindings of a group as far as it can (R247). -/
def State.unbindGroup (s : State) (core gslot : Nat) : State :=
  ((s.core core).smap.filter fun b => b.grp == gslot).foldl (fun s b => (s.unbind core b).getD s) s

/-- Has a group a binding? -/
def State.bound (s : State) (core gslot : Nat) : Bool := (s.core core).smap.any fun b => b.grp == gslot

/-- Takes a group out of its core. -/
def State.dropGroup (s : State) (core gslot : Nat) : State :=
  let c := s.core core
  let s := s.setCore core { c with objs := c.objs.filter fun o => o.gslot != gslot }
  { s with groups := tdel s.groups (groupKey core gslot) }

/-- GROUP_FREE: once its last wave has returned its slot and its copies are done, bindings are released and the group's
slot and stores are free (R406). -/
def execGroupFree (core gslot : Nat) (s : State) : Host.Outcome State Fault Refusal :=
  ok (match tfind s.groups (groupKey core gslot) with
    | none => s
    | some g =>
      if g.waves != 0 || (s.core core).bulks.any fun b => b.gslot == gslot then s
      else
        let s := s.unbindGroup core gslot
        if s.bound core gslot then s
        else
          let l := s.launch g.launch
          (s.dropGroup core gslot).setLaunch g.launch { l with freed := l.freed + 1 })

/-- What a launch has held besides its groups is free again: dispenser and tags (R33, R51). -/
def State.dropLaunch (s : State) (n : Nat) : State :=
  let l := s.launch n
  let s := match l.disp with
    | some (d, i) => s.setDie d { s.die d with dispUsed := sdel (s.die d).dispUsed i }
    | none => s
  { s with
    tagsUsed := s.tagsUsed.filter fun t => !l.tags.any fun x => x.2 == t, launches := tdel s.launches n }

/-- The increment of DONE, a release at system scope that follows all that the launch has written (R14, R407). -/
def State.countDone (s : State) (l : Launch) (vc : Vec) : Try Bool :=
  if l.done = 0 then .ok s true
  else
    let h : How := { acc := .store, rmw := true, pcieOp := true, helper := true }
    (s.vio l.core l.done.toNat 8 (fun _ => none) h fun old => toBytes (ofBytes old + 1) 8).andThen fun s a =>
      .ok (s.writeRel a.2 8 true [(5, vc)]) true

/-- LAUNCH_COMPLETION: every group is freed and every write performed; DONE rises and the packet completes (R32, R407). [DEDUCED, log 106] -/
def execLaunchCompletion (launch : Nat) (s : State) : Host.Outcome State Fault Refusal :=
  let l := s.launch launch
  let logged := s.cores.any fun c => c.2.log.any fun e => e.launch == launch
  let left := s.allWaves.any fun w => !w.priv && w.launch == launch
  ok (match s.packets.find? fun p => p.launch == some launch with
    | none => s
    | some p =>
      if !l.started || l.freed != l.cmask.length || logged || left then s
      else if !s.canEnd p then s.wantEnd p
      else
        let vc := vecJoin l.hbStart l.hbEnd
        let t := s.focus l.core 15
        match t.countDone l vc with
        | .ok t _ => (t.endPacket p 0 vc).dropLaunch launch
        | .wait t => s.asks t
        | _ => (t.endPacket p 0x0A []).dropLaunch launch)

end Sys2Proof.Machine
end

