-- ==== Sys2Proof/Machine/System.lean ====
section
/-! DEFINITION. Software traps, the return from a handler, privileged registers and black-box records: the opcodes 0xBA
to 0xBF (R391 to R395), and the rules of the registers they reach (R98, R249, R317, R386). -/

namespace Sys2Proof.Machine

/-- TRAP: retires, and then SOFTWARE is raised, its address the instruction's own (R392). -/
def execTrap (f : K32) (s : State) : Host.Outcome State Fault Refusal :=
  ok (run (.trap f) s fun s =>
    let at_ := s.wave.insAddr
    let w := s.wave.advance 4 s.clock
    .stay (State.raise { s with wave := w } { code := 0x14, detail := f.imm.toNat, addr := at_, pc := w.pc, retired := true }))

/-- BKPT: raises BREAKPOINT and does not retire (R392). -/
def execBkpt (f : K32) (s : State) : Host.Outcome State Fault Refusal :=
  ok (run (.bkpt f) s fun s => s.wave.trapHere 0x15 f.imm.toNat)

/-- LOGEV (R395). -/
def execLogev (f : K32) (s : State) : Host.Outcome State Fault Refusal :=
  ok (run (.logev f) s fun s =>
    let w := s.wave
    .state (s.boxRecord (dieOf w.core) (w.record 8 0 f.imm.toNat s.clock (w.sop64 f.d) w.insAddr)))

/-! ### RTE (R393) -/

/-- The number in bytes `i` to `i + n - 1` of a frame. -/
def frameNum (bs : List Byte) (i n : Nat) : Nat := ofBytes ((bs.drop i).take n)

/-- Does RTE refuse this frame? -/
def frameBad (bs : List Byte) : Bool :=
  let pc := frameNum bs 0 8
  let fl := frameNum bs 28 4
  pc % 2 == 1 || pc / 2 ^ 52 != 0 || fl / 2 ^ 12 != 0 || specialBad 8 (bv (frameNum bs 48 4)) || (nbit fl 1 && nbit fl 8)

/-- What RTE restores from a frame (R393): em within LIVE, scc, the link, FPCTL, the PC and the place in a prefix; the
recovery-mode bit is cleared and DIST is satisfied. -/
def Wave.restore (w : Wave) (bs : List Byte) (clock : Nat) : Wave :=
  let fl := frameNum bs 28 4
  { (w.setSpair 62 (bv (frameNum bs 16 8))) with
    em := bv (frameNum bs 8 8) &&& w.live, scc := nbit fl 0, fpctl := BitVec.ofNat 32 (frameNum bs 48 4), recovery := false,
    pc := bv (frameNum bs 0 8),
    resume := if nbit fl 1 then .rep (fl / 4 % 64) else if nbit fl 8 then .pblk (fl / 512 % 8) (bv (frameNum bs 40 8)) else .none,
    lastIssue := 0, notBefore := clock }

/-- RTE: once the wave's earlier stores to the frame's line are performed, the frame is read and restored (R393). -/
def execRte (f : K32) (s : State) : Host.Outcome State Fault Refusal :=
  ok (run (.rte f) s fun s =>
    let w := s.wave
    let va := w.spair 62
    if va.toNat / 2 ^ 52 != 0 then .trap 8 4 va
    else if va.toNat % 64 != 0 then .trap 5 0 va
    else
      match s.xlate w.core va.toNat with
      | .fault s a => .stay (s.holdFault a 0)
      | .err _ c d a => .trap c d (bv a)
      | .at_ s t o =>
        if !s.ownReady w s.fresh true false false ((t.ppage + o) / 128) then s.unissued
        else
          match s.accessAt w.core t o 64 va.toNat How.load id with
          | .wait s => s.unissued
          | .retry s => s.unissued
          | .fault s a => .stay (s.holdFault a 0)
          | .err _ c d a => .trap c d (bv a)
          | .ok _ _ (some pa) => .trap 0x11 0 (bv pa)
          | .ok s bs none =>
            if frameBad bs then w.illegal
            else
              let t := landEvery s
              .stay { t with wave := t.wave.restore bs t.clock })

/-! ### Privileged registers (R394) -/

/-- The value of a privileged register. -/
def State.privRead (s : State) (n : Nat) : DWord :=
  let c := s.myCore
  let d := s.die (dieOf s.wave.core)
  match n with
  | 0x00 => c.lease1.setWidth 64
  | 0x01 => c.lease2.setWidth 64
  | 0x02 => bv (65536 * (s.inuse % 2048) + s.pool % 2048)
  | 0x04 => c.trapvec
  | 0x06 => c.trapfrm
  | 0x08 => bv (bits s.mgmt.featacc 31 0)
  | 0x09 => bv (bits s.mgmt.featacc 63 32)
  | 0x0A => bv (bits s.mgmt.featacc 95 64)
  | 0x0B => bv (bits s.mgmt.featacc 127 96)
  | 0x20 => d.gcfg.setWidth 64
  | 0x21 => d.grate.setWidth 64
  | 0x22 => d.gap
  | _ => d.gsp

/-- Is a bucket open on a die? -/
def Die.anyOpen (d : Die) : Bool := d.geodes.any fun g => g.2.open_.isSome

/-- Does a write break a register's rule: read-only, a reserved bit, a limit (R98, R249, R317, R386)? -/
def State.privBad (s : State) (n : Nat) (x : DWord) : Bool :=
  let open_ := (s.die (dieOf s.wave.core)).anyOpen
  match n with
  | 0x00 => bits x 31 16 != 0
  | 0x01 => bits x 31 16 != 0
  | 0x02 => bits x 31 27 != 0 || bits x 15 11 != 0 || bits x 10 0 < 4 || 1536 < bits x 10 0
  | 0x04 => bits x 63 52 != 0 || bits x 7 1 != 0
  | 0x06 => bits x 63 52 != 0 || bits x 20 0 != 0
  | 0x20 =>
    open_ || bits x 30 17 != 0 || bits x 9 4 != 0 || (bits x 16 10 == 0 && x.getLsbD 31) ||
      2 ^ 21 - 2 ^ 14 < bits x 16 10 * slotBytes (lo32 x)
  | 0x21 => open_ || x.getLsbD 31 || bits x 30 23 == 255 || bits x 30 0 == 0
  | 0x22 => open_ || bits x 63 52 != 0 || x.toNat % 2 ^ 27 != 0
  | 0x24 => open_ || bits x 63 52 != 0 || bits x 20 12 != 0
  | _ => true

/-- The write. -/
def State.privWrite (s : State) (n : Nat) (x : DWord) : State :=
  let core := s.wave.core
  let c := s.myCore
  let d := s.die (dieOf core)
  match n with
  | 0x00 => s.setCore core { c with lease1 := lo32 x }
  | 0x01 => s.setCore core { c with lease2 := lo32 x }
  | 0x02 => { s with pool := bits x 10 0 }
  | 0x04 => s.setCore core { c with trapvec := x }
  | 0x06 => s.setCore core { c with trapfrm := x }
  | 0x20 =>
    let fresh (g : Geode) : Geode := { g with slots := g.slots.map fun t => (t.1, { t.2 with serial := 0 }) }
    s.setDie (dieOf core) { d with gcfg := lo32 x, geodes := d.geodes.map fun g => (g.1, fresh g.2) }
  | 0x21 => s.setDie (dieOf core) { d with grate := lo32 x }
  | 0x22 => s.setDie (dieOf core) { d with gap := x }
  | 0x24 => s.setDie (dieOf core) { d with gsp := x, badUnits := [] }
  | _ => s

/-- Is a privileged register of two words? -/
def privPair (n : Nat) : Bool := privReg n == some true

/-- PRD (R394). -/
def execPrd (f : K32) (s : State) : Host.Outcome State Fault Refusal :=
  ok (run (.prd f) s fun s =>
    let n := bits f.imm 7 0
    let x := s.privRead n
    .wave (if privPair n then s.wave.setSpair f.d.toNat x else s.wave.setS f.d.toNat (lo32 x)))

/-- PWR (R394). -/
def execPwr (f : K32) (s : State) : Host.Outcome State Fault Refusal :=
  ok (run (.pwr f) s fun s =>
    let n := bits f.imm 7 0
    let x : DWord := if privPair n then s.wave.sop64 f.d else (s.wave.sop f.d).setWidth 64
    if s.privBad n x then s.wave.illegal else .state (s.privWrite n x))

end Sys2Proof.Machine
end

