-- ==== Sys2Proof/Machine/Preempt.lean ====
section
/-! DEFINITION. Gangs that find no room: the drain clock, pre-emption, suspension and resumption (R55 to R57, R396 to R399,
R432). -/

namespace Sys2Proof.Machine

/-- 2 ms and 8 ms in clocks. [DEDUCED, log 13] -/
def drainMark : Nat := 5200000
def drainMore : Nat := 20800000

/-! ### The drain clock (R55) -/

/-- Clusters of a gang that have not been granted. -/
def Launch.openClusters (l : Launch) : List Nat :=
  (l.cmask.filter fun c => c % 4 == 0 && !l.granted.contains c).map (· / 4)

/-- Is a gang's request the earliest waiting request on every core of a cluster? -/
def State.leads (s : State) (n k : Nat) : Bool :=
  (List.range 4).all fun i =>
    match s.ungranted (4 * k + i) with
    | x :: _ => x.1 == n && (s.core (4 * k + i)).requests.contains n
    | [] => false

/-- Does the drain clock of a launch run? [DEDUCED, log 101] -/
def State.drainRuns (s : State) (n : Nat) : Bool :=
  let l := s.launch n
  l.gang && l.sequenced && l.openClusters.any fun k => s.leads n k

/-- The drain clocks of all launches start where they begin to run, and stand at zero where they do not. -/
def State.drainClocks (s : State) : State :=
  let one (n : Nat) (l : Launch) : Launch :=
    if s.drainRuns n then { l with drain := some (l.drain.getD s.clock) } else { l with drain := none }
  { s with launches := s.launches.map fun x => (x.1, one x.1 x.2) }

/-- Resident waves of a cluster. -/
def State.clusterWaves (s : State) (k : Nat) : Nat := (s.allWaves.filter fun w => w.core / 4 == k).length

/-- DRAIN_CLOCK_MARK: after 2 ms the claiming agent marks the cluster with the fewest resident waves, the lower number on a
tie (R55). -/
def execDrainClockMark (launch : Nat) (s : State) : Host.Outcome State Fault Refusal :=
  let l := s.launch launch
  match l.drain, l.draining with
  | some t, none =>
    if s.clock < t + drainMark then ok s
    else
      let ks := sortBy (fun k => 1000000 * s.clusterWaves k + k) (l.openClusters.filter fun k => s.leads launch k)
      match ks with
      | k :: _ => ok (s.setLaunch launch { l with draining := some k })
      | [] => ok s
  | _, _ => ok s

/-! ### Pre-emption (R55, R56, R398) -/

/-- The waves of a group. -/
def State.groupWaves (s : State) (core gslot : Nat) : List Wave :=
  s.allWaves.filter fun w => w.core == core && w.gslot == gslot && !w.priv && w.slot < 64

/-- Has the wave an MMAX that waits for partners (R310)? -/
def Wave.joining (w : Wave) : Bool :=
  w.outst.any fun o => match o.eff with
    | .mmax _ _ _ _ _ => true
    | _ => false

/-- Is the wave held by a fault (R396)? -/
def Wave.faultHeld (w : Wave) : Bool :=
  w.faulting || match w.hold with
    | .fault _ _ _ => true
    | _ => false

/-- May a wave's group be pre-empted, as far as this wave goes: at a boundary, not in its handler, with no report due, which
comes first (R385, R398)? -/
def Wave.preemptible (w : Wave) : Bool :=
  !w.recovery && w.trap.isNone && !w.faultHeld && !w.joining && w.hold != .issued && w.reports.isEmpty

/-- Is a group being drained for pre-emption? -/
def State.stopping (s : State) (core gslot : Nat) : Bool :=
  match tfind s.groups (groupKey core gslot) with
  | some g => g.stopping
  | none => false

/-- The groups of a cluster: core, group slot, group. -/
def State.clusterGroups (s : State) (k : Nat) : List (Nat × Nat × Group) :=
  (List.range 4).flatMap fun i => (List.range 8).filterMap fun g =>
    (tfind s.groups (groupKey (4 * k + i) g)).map fun x => (4 * k + i, g, x)

/-- The groups that are pre-empted with one: itself, and for a group of another gang those of its cluster (R56). -/
def State.preemptParty (s : State) (core gslot : Nat) (g : Group) : List (Nat × Nat) :=
  if (s.launch g.launch).gang then
    ((s.clusterGroups (core / 4)).filter fun x => x.2.2.launch == g.launch).map fun x => (x.1, x.2.1)
  else [(core, gslot)]

/-- May these groups be pre-empted now: is every wave at a boundary (R398)? -/
def State.preemptibleAll (s : State) (l : List (Nat × Nat)) : Bool :=
  l.all fun x => (s.groupWaves x.1 x.2).all fun w => w.preemptible

/-- The wave in focus issues nothing more; its open batch is committed and its token request withdrawn (R384, R398). -/
def State.stopWave (s : State) : State :=
  let s := s.commitOpen.withdrawToken
  { s with wave := { s.wave with suspended := true } }

/-- Changes every wave of a group that has not ended. -/
def State.onGroup (s : State) (core gslot : Nat) (f : State → State) : State :=
  (s.groupWaves core gslot).foldl (fun s w => if w.ended then s else f (s.focus core w.slot)) s

/-- A group stops for pre-emption. -/
def State.stopGroup (s : State) (core gslot : Nat) : State :=
  let s := s.onGroup core gslot State.stopWave
  s.setGroup core gslot { s.group core gslot with stopping := true }

/-- A group that was to be pre-empted runs on. -/
def State.releaseStop (s : State) (core gslot : Nat) : State :=
  let g := s.group core gslot
  let go (w : Wave) : Wave :=
    if w.core == core && w.gslot == gslot && !w.priv then { w with suspended := !(s.launch g.launch).started } else w
  (s.mapWaves go).setGroup core gslot { g with stopping := false }

/-- Does the gang fit on every core of the cluster? -/
def State.gangFits (s : State) (l : Launch) (k : Nat) : Bool :=
  (List.range 4).all fun i => ((s.room (4 * k + i)).fit l.need).isSome

/-- Begins to pre-empt the longest-resident group of the draining cluster that can be, one at a time, while the gang does
not fit; of groups granted in one clock the lower core, then the lower group slot comes first; that every candidate has been
skipped is noted (R55, R56). [DESIGN CHOICE, log 135] -/
def State.preemptNext (s : State) (n : Nat) : State :=
  let l := s.launch n
  match l.drain, l.draining with
  | some t, some k =>
    let gs := s.clusterGroups k
    if s.clock < t + drainMark + drainMore || s.gangFits l k || gs.any (fun x => s.stopping x.1 x.2.1) then s
    else
      let order := sortBy (fun (x : Nat × Nat × Group) => x.2.2.since) gs
      match order.find? fun x => s.preemptibleAll (s.preemptParty x.1 x.2.1 x.2.2) with
      | some x =>
        (s.preemptParty x.1 x.2.1 x.2.2).foldl (fun s y => s.stopGroup y.1 y.2) (s.setLaunch n { l with tried := none })
      | none => s.setLaunch n { l with tried := some s.clock }
  | _, _ => s

/-- 100 µs in clocks. -/
def retryClocks : Nat := 260000

/-- DRAIN_CLOCK_PREEMPT: 8 ms after the mark the agent pre-empts (R55); while an attempt has failed it waits for the next. -/
def execDrainClockPreempt (launch : Nat) (s : State) : Host.Outcome State Fault Refusal :=
  ok (if (s.launch launch).tried.isNone then s.preemptNext launch else s)

/-- PREEMPT_RETRY: 100 µs after every candidate was skipped, or the area had no room, it is tried again (R56, R432). -/
def execPreemptRetry (launch : Nat) (s : State) : Host.Outcome State Fault Refusal :=
  ok (match (s.launch launch).tried with
    | some t => if t + retryClocks ≤ s.clock then s.preemptNext launch else s
    | none => s)

/-- A core's L1 may evict a counted copy of a sealed line in a clock (R251). -/
def State.evictCounted (s : State) (core : Nat) : State :=
  let c := s.core core
  match Config.evictLine s.fresh with
  | none => s.bump
  | some i => (s.setCore core { c with counted := c.counted.eraseIdx i }).bump

/-- A core whose agent is its only resident wave drops its counted copies (R408). -/
def State.dropCounted (s : State) (core : Nat) : State :=
  if s.alone core then s.setCore core { s.core core with counted := [] } else s

/-! ### Suspension (R398, R399, R432) -/

/-- The 32 bytes of a translation register (R223). -/
def TransReg.save (t : TransReg) : List Byte :=
  toBytes (t.vbase.toNat + 2 ^ 64 * t.pbase.toNat + 2 ^ 116 * t.psize.toNat + 2 ^ 120 * t.kind.toNat + 2 ^ 122 * t.perm.toNat +
    (if t.rc then 2 ^ 125 else 0) + (if t.stale then 2 ^ 126 else 0) + (if t.valid then 2 ^ 127 else 0) +
    2 ^ 128 * t.pw.toNat + 2 ^ 160 * t.gen.toNat + 2 ^ 192 * t.limit.toNat) 32

/-- The translation register in 32 bytes; it returns with STALE = 1 (R399). -/
def TransReg.load (bs : List Byte) : TransReg :=
  let x := ofBytes bs
  { vbase := BitVec.ofNat 52 x, pbase := BitVec.ofNat 52 (x / 2 ^ 64), psize := BitVec.ofNat 4 (x / 2 ^ 116),
    kind := BitVec.ofNat 2 (x / 2 ^ 120), perm := BitVec.ofNat 3 (x / 2 ^ 122), rc := nbit x 125, stale := true,
    valid := nbit x 127, pw := BitVec.ofNat 32 (x / 2 ^ 128), gen := BitVec.ofNat 16 (x / 2 ^ 160),
    limit := BitVec.ofNat 33 (x / 2 ^ 192) }

/-- Words as bytes. -/
def wordBytes (l : List Word) : List Byte := l.flatMap fun x => toBytes x.toNat 4

/-- The bytes of a query slot: its lanes and its words (R341). -/
def QuerySlot.save (q : QuerySlot) : List Byte := toBytes q.lanes.toNat 8 ++ wordBytes (cgetList q.words 0 320)

/-- The part of a save set for one wave, in the order of R399. -/
def Wave.saveBytes (w : Wave) (clock : Nat) : List Byte :=
  w.frame { code := 0, detail := 0, addr := 0, pc := w.pc, retired := false } clock ++ toBytes w.live.toNat 8 ++
    wordBytes (cgetList w.s 0 64) ++ ((List.range 8).flatMap fun n => toBytes (w.mask (n + 1)).toNat 8) ++
    ((cgetList w.x 0 512).flatMap fun x => toBytes x.toNat 2) ++
    ((List.range 8).flatMap fun k => toBytes (w.bnd k).xb 2 ++ toBytes (w.bnd k).xl 2) ++
    toBytes w.fnctl.toNat 4 ++ toBytes w.qdepth.toNat 4 ++ toBytes w.trapcode.toNat 8 ++ toBytes w.trapaddr.toNat 8 ++
    toBytes w.wid.toNat 8 ++ ((List.range 8).flatMap fun n => (w.treg n).save) ++ wordBytes (cgetList w.fn 0 48) ++
    toBytes w.lacc.toNat 80 ++ toBytes w.laccFlags.toNat 4 ++ ((List.range 4).flatMap fun q => (w.qslot q).save) ++
    wordBytes ((List.range (512 * w.granules)).map w.footWord)

/-- Bytes of that part. -/
def Wave.saveSize (w : Wave) : Nat := 7164 + 2048 * w.granules

/-- The wave that a save set holds, with what the device knows of it besides. -/
def Wave.loadBytes (w : Wave) (bs : List Byte) (clock : Nat) : Wave :=
  let at_ (i n : Nat) : List Byte := (bs.drop i).take n
  let num (i n : Nat) : Nat := ofBytes (at_ i n)
  let w : Wave := { w with
    live := bv (num 64 8), s := csetList [] 0 (wordsOf (at_ 72 256)),
    m := csetList [] 0 ((List.range 8).map fun n => bv (num (328 + 8 * n) 8)),
    x := csetList [] 0 ((List.range 512).map fun n => BitVec.ofNat 16 (num (392 + 2 * n) 2)),
    bound := (List.range 8).foldl (fun t k => tset t k { xb := num (1416 + 4 * k) 2, xl := num (1418 + 4 * k) 2 }) [],
    fnctl := BitVec.ofNat 32 (num 1448 4), qdepth := BitVec.ofNat 32 (num 1452 4), trapcode := BitVec.ofNat 32 (num 1456 8),
    trapaddr := bv (num 1464 8), wid := bv (num 1472 8),
    tr := (List.range 8).foldl (fun t n => tset t n (TransReg.load (at_ (1480 + 32 * n) 32))) [],
    fn := csetList [] 0 (wordsOf (at_ 1736 192)), lacc := BitVec.ofNat 640 (num 1928 80),
    laccFlags := BitVec.ofNat 32 (num 2008 4),
    query := (List.range 4).foldl (fun t q => tset t q
      { lanes := bv (num (2012 + 1288 * q) 8), words := csetList [] 0 (wordsOf (at_ (2020 + 1288 * q) 1280)) }) [],
    v := [], pool := [], slack := [] }
  let w := (wordsOf (at_ 7164 (2048 * w.granules))).zipIdx.foldl (fun w x => w.setFootWord x.2 x.1) w
  w.restore bs clock

/-- The part of a save set for a group: scratchpad, live barrier objects, accumulator memory, tile registers, tcfg (R399). -/
def State.saveGroup (s : State) (core gslot : Nat) : List Byte :=
  let g := s.group core gslot
  let c := s.core core
  cgetList c.spad g.spadBase g.spadLen ++
    ((c.objs.filter fun o => o.gslot == gslot).flatMap fun o => toBytes o.off 4 ++ toBytes o.expcnt.toNat 4) ++
    cgetList c.acc g.accBase g.accLen ++
    (g.tiles.flatMap fun t => cgetList c.tile (Config.tileBytes * t) Config.tileBytes) ++ wordBytes (cgetList g.tcfg 0 16)

/-- Bytes of a group's save set: group storage, then each wave (R399). -/
def State.saveSize (s : State) (core gslot : Nat) : Nat :=
  let g := s.group core gslot
  let objs := (s.core core).objs.filter fun o => o.gslot == gslot
  g.spadLen + 8 * objs.length + g.accLen + Config.tileBytes * g.tiles.length + 64 +
    total ((s.groupWaves core gslot).map Wave.saveSize)

/-- The lowest place of the suspension area with room for `n` bytes (R432). -/
def State.areaFor (s : State) (n : Nat) : Option Nat :=
  let base := s.mgmt.suspbase.toNat
  let used := s.suspended.map fun g => (g.addr, g.len)
  (sortBy id (base :: used.map fun u => u.1 + u.2)).find? fun a =>
    decide (base ≤ a) && decide (a + n ≤ base + s.mgmt.susplen.toNat) && !used.any fun u => meets a n u.1 u.2

/-- A wave as its save set holds it: results landed, counters 0, no scheduler state (R399). -/
def Wave.saved (w : Wave) : Wave :=
  let w := w.pend.foldl (fun w p => landWave w p.2) w
  let at_ : Resume := match w.rep, w.pblk with
    | some r, _ => .rep r.j
    | none, some p => .pblk p.j p.cond
    | none, none => w.resume
  { w with
    pend := [], rep := none, pblk := none, resume := at_, hold := .none, lost := 0, lastIssue := 0, notBefore := 0, age := 0,
    waited := 0, promoted := false, requested := false, granted := false, k := [],
    tr := w.tr.map fun p => (p.1, { p.2 with stale := true }) }

/-- Writes of a group's waves in flight to registers of the group land. -/
def State.landGroupWrites (s : State) (core gslot : Nat) : State :=
  (s.groupWaves core gslot).foldl (fun s w => w.pend.foldl (fun s p => landGroup s core gslot p.2) s) s

/-- The waves of a group in the order of their numbers. -/
def State.groupOrder (s : State) (core gslot : Nat) : List Wave :=
  sortBy (fun (w : Wave) => w.windex) (s.groupWaves core gslot)

/-- A group whose waves have drained is suspended: its save set goes to the suspension area, each wave in WAVEID order, its
place is freed (R56, R399). [DEDUCED, log 103] -/
def State.suspendGroup (s : State) (core gslot addr len : Nat) : State :=
  let s := s.landGroupWrites core gslot
  let g := s.group core gslot
  let ws := (s.groupOrder core gslot).map Wave.saved
  let bySlot := sortBy (fun (w : Wave) => w.slot) ws
  let x : Suspended :=
    { core := core, addr := addr, len := len, group := { g with stopping := false }, waves := ws,
      unstarted := !(s.launch g.launch).started, objs := (s.core core).objs.filter fun o => o.gslot == gslot, binds := [] }
  let bytes := s.saveGroup core gslot ++ bySlot.flatMap fun w => w.saveBytes (s.dieClock (dieOf core)).toNat
  let s := s.physWrite addr bytes
  let s := ws.foldl (fun s w => s.dropWave core w.slot) s
  let s := s.dropGroup core gslot
  { s with suspended := s.suspended ++ [x] }

/-- The bindings of a group, which are bound again at its resumption (R399). -/
def State.bindsOf (s : State) (core gslot : Nat) : List Binding := (s.core core).smap.filter fun b => b.grp == gslot

/-- The groups of a cluster that are being stopped together with one (R56). -/
def State.stopParty (s : State) (core gslot : Nat) : List (Nat × Nat) :=
  (s.preemptParty core gslot (s.group core gslot)).filter fun x => s.stopping x.1 x.2

/-- Has every wave of a group drained: nothing outstanding, its batch committed, its bulk copies done (R398)? -/
def State.groupDrained (s : State) (core gslot : Nat) : Bool :=
  (s.groupWaves core gslot).all (fun w => w.outst.isEmpty && w.batch.isEmpty) &&
    !(s.core core).bulks.any fun b => b.gslot == gslot

/-- One group of a party is saved, its waits withdrawn and its bindings written back; none: the area has no room, or a binding
cannot be written back yet. -/
def State.saveOne (s : State) (core gslot : Nat) : Option State :=
  let n := s.saveSize core gslot
  match s.areaFor n with
  | none => none
  | some a =>
    let binds := s.bindsOf core gslot
    let t := (s.onGroup core gslot State.withdrawWaits).unbindGroup core gslot
    if t.bound core gslot then none
    else
      let t := t.suspendGroup core gslot a n
      let keep (x : Suspended) : Suspended := if x.core == core && x.addr == a then { x with binds := binds } else x
      some { t with suspended := t.suspended.map keep }

/-- The groups of a party are saved, all of them or none. -/
def State.saveAll (s : State) : List (Nat × Nat) → Option State
  | [] => some s
  | x :: l =>
    match s.saveOne x.1 x.2 with
    | none => none
    | some t => t.saveAll l

/-- The gangs that drain a cluster have found no candidate, or no room for one: they try again after 100 µs (R56, R432). -/
def State.noteTried (s : State) (k : Nat) : State :=
  { s with launches := s.launches.map fun x =>
      (x.1, if x.2.draining == some k then { x.2 with tried := some s.clock } else x.2) }

/-- Would the save sets of a party find no room in the area? -/
def State.areaFull (s : State) (l : List (Nat × Nat)) : Bool := l.any fun x => (s.areaFor (s.saveSize x.1 x.2)).isNone

/-- GROUP_PREEMPT: a stopped group, with those stopped with it, is saved once all of them have drained; where a wave has met a
trap, a report or a fault meanwhile all of them run on, and so they do where the area has no room (R56, R385, R396, R398,
R432). [DEDUCED, log 102] -/
def execGroupPreempt (core gslot : Nat) (s : State) : Host.Outcome State Fault Refusal :=
  if !s.stopping core gslot then ok s
  else
    let party := s.stopParty core gslot
    if !s.preemptibleAll party then ok (party.foldl (fun s x => s.releaseStop x.1 x.2) s)
    else
      let s := party.foldl (fun s x => s.onGroup x.1 x.2 State.commitOpen) s
      if !party.all fun x => s.groupDrained x.1 x.2 then ok s
      else if s.areaFull party then ok ((party.foldl (fun s x => s.releaseStop x.1 x.2) s).noteTried (core / 4))
      else ok ((s.saveAll party).getD s)

/-! ### Resumption (R56, R399) -/

/-- May the earliest suspended context of a core be resumed, as far as order goes: no request of smaller PSEQ waits, and no
gang drains the cluster? -/
def State.resumeTurn (s : State) (core : Nat) : Option Suspended :=
  match s.drainer core, s.suspendedOn core with
  | none, g :: _ =>
    match s.ungranted core with
    | x :: _ => if x.2.pseq < (s.launch g.group.launch).pseq then none else some g
    | [] => some g
  | _, _ => none

/-- Binds ranges again, all of them or none. [DEDUCED, log 104] -/
def State.bindAll (s : State) (core : Nat) : List Binding → Option State
  | [] => some s
  | b :: l =>
    if s.bindMeets b.start (256 * b.len) || 16 ≤ (s.core core).smap.length then none
    else
      match s.tryBind core b with
      | .ok s => s.bindAll core l
      | .error _ => none

/-- The waves of a save set: `bs` from the first wave on, by wave slot. -/
def loadWaves (clock : Nat) : List Wave → List Byte → List Wave
  | [], _ => []
  | w :: l, bs => w.loadBytes bs clock :: loadWaves clock l (bs.drop w.saveSize)

/-- The waves of a suspended context as its save set in memory holds them, in the order of their numbers; one whose launch has
started meanwhile has its work identifier (R19, R399). -/
def State.loadContext (s : State) (x : Suspended) (bs : List Byte) : List Wave :=
  let l := s.launch x.group.launch
  let skip := x.len - total (x.waves.map Wave.saveSize)
  let ws := loadWaves s.clock (sortBy (fun (w : Wave) => w.slot) x.waves) (bs.drop skip)
  (sortBy (fun (w : Wave) => w.windex) ws).map fun w =>
    if x.unstarted && l.started then { w with wid := l.widbase + bv (x.group.gindex * l.nwave + w.windex) } else w

/-- Puts a suspended context back into its core where it fits: ranges, tile registers, objects as its save set in memory holds
them, then the waves in their new slots, which take new Age stamps; entries of the side log follow them (R52, R56, R397,
R399). -/
def State.restoreGroup (s : State) (x : Suspended) (f : Fit) : State :=
  let core := x.core
  let c := s.core core
  let bs := s.devRead x.addr x.len
  let objBytes := 8 * x.objs.length
  let tileAt := x.group.spadLen + objBytes + x.group.accLen
  let g : Group := { x.group with
    spadBase := f.spadBase, accBase := f.accBase, tiles := f.tiles, waves := x.waves.length, since := s.clock,
    tcfg := csetList [] 0 (wordsOf ((bs.drop (tileAt + Config.tileBytes * f.tiles.length)).take 64)) }
  let tile := f.tiles.zipIdx.foldl (fun m t =>
    csetList m (Config.tileBytes * t.1) ((bs.drop (tileAt + Config.tileBytes * t.2)).take Config.tileBytes)) c.tile
  let ws := s.loadContext x bs
  let moved := ws.zip f.slots
  let log (e : LogEntry) : LogEntry :=
    match moved.find? fun p => e.launch == g.launch && p.1.slot == e.slot with
    | some p => { e with slot := p.2 }
    | none => e
  let obj (o : BarrierObj × Nat) : BarrierObj :=
    let at_ := (bs.drop (x.group.spadLen + 8 * o.2)).take 8
    let off := ofBytes (at_.take 4)
    let num (i n : Nat) : Nat := ofBytes ((bs.drop (off + i)).take n)
    { o.1 with
      gslot := f.gslot, off := off, expcnt := BitVec.ofNat 16 (ofBytes (at_.drop 4)), arrcnt := BitVec.ofNat 16 (num 4 2),
      phase := BitVec.ofNat 16 (num 6 2), expbytes := BitVec.ofNat 32 (num 8 4), arrbytes := BitVec.ofNat 32 (num 12 4) }
  let c' : Core := { c with
    spad := csetList c.spad f.spadBase (bs.take x.group.spadLen),
    acc := csetList c.acc f.accBase ((bs.drop (x.group.spadLen + objBytes)).take x.group.accLen), tile := tile,
    objs := c.objs ++ x.objs.zipIdx.map obj, log := c.log.map log, nextAge := c.nextAge + x.waves.length }
  let started := (s.launch x.group.launch).started
  let ws := moved.zipIdx.map fun p =>
    { p.1.1 with slot := p.1.2, gslot := f.gslot, suspended := !started, age := c.nextAge + p.2 }
  let s := ((s.touch x.addr x.len).setCore core c').setGroup core f.gslot g
  { s with
    waves := s.waves ++ ws, suspended := s.suspended.filter fun y => !(y.core == core && y.addr == x.addr) }

/-- GROUP_RESUME: the earliest suspended context of a core is restored once it fits and its bindings can be made again (R56,
R399). -/
def execGroupResume (core : Nat) (s : State) : Host.Outcome State Fault Refusal :=
  ok (match s.resumeTurn core with
    | none => s
    | some x =>
      let l := s.launch x.group.launch
      match (s.room core).fit { l.need with waves := x.waves.map Wave.windex } with
      | none => s
      | some f =>
        ((s.restoreGroup x f).bindAll core (x.binds.map fun b => { b with grp := f.gslot, dirty := [] })).getD s)

end Sys2Proof.Machine
end

