-- ==== Sys2Proof/Machine/Coherence.lean ====
section
/-! DEFINITION. Coherence between the dies and towards the host: leases, the home directory and its messages, replicated
pages, the host bridge, host accesses, the scrubber (R220, R249 to R253, R370 to R378, R426). A line is named by its storage
line. Accesses carry out the transactions of R373 themselves where nothing holds them back; here a die's request, an eviction
and each message are steps of their own. -/

namespace Sys2Proof.Machine

/-! ### Leases (R250) -/

/-- The leases of a line that have expired are no more recorded. -/
def State.dropLeases (s : State) (line : Nat) : State :=
  { s with leases := s.leases.filter fun p => !(p.1 % 2 ^ 40 == line && decide (p.2 ≤ s.clock)) }

/-- LEASE_EXPIRY: the recorded expiries of a line have passed, and the writes that wait at its home are performed; no lease is
granted until they have been. A host fill among them lets dies attempt steals again (R59, R250). -/
def execLeaseExpiry (line : Nat) (s : State) : Host.Outcome State Fault Refusal :=
  if s.leased line || s.hostHolds line then ok s
  else
    let was := s.leases.any fun p => p.1 % 2 ^ 40 == line
    let t := (s.dropLeases line).devRelease line
    let waits := t.devWrites.any fun w => (t.devAt w.pa).2 / 128 == line
    ok { t with
      waitWrites := if was || waits then t.waitWrites else sdel t.waitWrites line,
      queues := t.queues.map fun q => (q.1, { q.2 with parked := [] }) }

/-! ### The directory (R370 to R375) -/

/-- The frame in which a storage line lies, where its record is set, and the line's place in it. -/
def State.frameOfLine (s : State) (line : Nat) : Option (Nat × Nat) :=
  s.frames.findSome? fun p =>
    if !recSet p.2 then none
    else ((List.range 32).find? fun i => s.physKey (4096 * p.1 + 128 * i) / 128 == line).map fun i => (p.1, i)

/-- Physical address and home die of a storage line (R219): those of its entry, or of the frame in which it lies. -/
def State.lineOwner (s : State) (line : Nat) : Nat × Nat :=
  match tfind s.dir line, s.frameOfLine line with
  | some d, _ => (d.pa, d.home)
  | none, some (n, i) => (4096 * n + 128 * i, homeOf (recPw (s.frameRec (4096 * n))) (128 * line))
  | none, none => (128 * line, line / 2 ^ 29 % 4)

/-- May the line never be E, M or O on another die (R371)? -/
def State.restricted (s : State) (line : Nat) : Bool :=
  match s.frameOfLine line with
  | none => true
  | some (n, i) =>
    let pa := 4096 * n + 128 * i
    decide (2 ≤ pwHome (recPw (s.frameRec pa))) || (s.moveAt pa).isSome || (s.boundFor pa).isSome || s.sealed pa ||
      s.shareOnly.contains n || (tfind s.races line).isSome

/-- May another die hold no copy of the line at all: HOME 2 or 3, or a live binding (R246, R371)? -/
def State.homeOnly (s : State) (line : Nat) : Bool :=
  match s.frameOfLine line with
  | none => false
  | some (n, i) => decide (2 ≤ pwHome (recPw (s.frameRec (4096 * n)))) || (s.boundFor (4096 * n + 128 * i)).isSome

/-- Sends a message. -/
def State.send (s : State) (die line : Nat) (k : MsgKind) : State :=
  { s with msgs := s.msgs ++ [{ die := die, line := line, kind := k }] }

/-- Takes the oldest message of a die and line for which `f` gives something. -/
def State.takeMsg {α : Type} (s : State) (die line : Nat) (f : MsgKind → Option α) : Option (State × α) :=
  let go (m : Msg) : Option α := if m.die == die && m.line == line then f m.kind else none
  match s.msgs.find? fun m => (go m).isSome with
  | none => none
  | some m => (go m).map fun a => ({ s with msgs := s.msgs.erase m }, a)

/-- A grant of write ownership sets DIRTY in the frame record (R372). -/
def State.ownDirty (s : State) (line : Nat) : State := s.markRec (s.lineOwner line).1 true

/-- Is a line's data on its way to a die? -/
def State.dataComing (s : State) (die line : Nat) : Bool :=
  s.msgs.any fun m => m.die == die && m.line == line && match m.kind with
    | .data _ _ => true
    | _ => false

/-- The bytes of a write-back by a die that is on its way to the home: its write-back buffer (R375). -/
def State.writeBackOf (s : State) (die line : Nat) : Option (List Byte) :=
  s.msgs.findSome? fun m => if m.die != die || m.line != line then none else match m.kind with
    | .wbdata bs => some bs
    | _ => none

/-- The home sends a line's data, as it holds it. -/
def State.sendData (s : State) (r line : Nat) (g : LineState) : State := s.send r line (.data g (s.valueAt (128 * line) 128))

/-- The home's open transaction of a line has all its answers: the directory enters its state, and the requester gets its data,
unless the owner has sent it (R373, R375). Die 4 stands for the home itself. -/
def State.finishLine (s : State) (line : Nat) : State :=
  let d := s.dirAt line
  match d.busy with
  | some (r, st) =>
    if d.acks != 0 then s
    else
      let s := s.setDir line { d with state := st, busy := none }
      if 4 ≤ r || s.dataComing r line then s
      else
        match st with
        | .em o => if o == r then (s.sendData r line .m).ownDirty line else s
        | .s m => if m.getLsbD r && s.copyAt r line == .i then s.sendData r line .s else s
        | _ => s
  | none => s

/-- Sends an Inv to each of the dies. -/
def State.invAll (s : State) (line : Nat) (l : List Nat) : State := l.foldl (fun s d => s.send d line .inv) s

/-- Opens a transaction: invalidations, and a message to an owner if there is one. -/
def State.openLine (s : State) (line r : Nat) (next : DirState) (invs : List Nat) (owner : Option (Nat × MsgKind)) : State :=
  let d := s.dirAt line
  let s := (s.setDir line { d with busy := some (r, next), acks := invs.length + (if owner.isSome then 1 else 0) }).invAll line invs
  let s := match owner with
    | some (o, k) => s.send o line k
    | none => s
  s.finishLine line

/-- The home answers a read request of die `r` (R373). -/
def State.homeReqS (s : State) (line r : Nat) : State :=
  let d := s.dirAt line
  let only := s.restricted line
  match d.state with
  | .u =>
    if only then (s.setDir line { d with state := .s (maskAdd 0 r) }).sendData r line .s
    else ((s.setDir line { d with state := .em r }).sendData r line .e).ownDirty line
  | .s m => (s.setDir line { d with state := .s (maskAdd m r) }).sendData r line .s
  | .em o =>
    if only then s.openLine line r (.s (maskAdd 0 r)) [] (some (o, .recall))
    else s.openLine line r (.o o (maskAdd 0 r)) [] (some (o, .forward r false))
  | .o o m =>
    if only then s.openLine line r (.s (maskAdd m r)) [] (some (o, .recall))
    else s.openLine line r (.o o (maskAdd m r)) [] (some (o, .forward r false))

/-- The home answers a write request of die `r` (R373); a line that R371 restricts is written at the home. -/
def State.homeReqM (s : State) (line r : Nat) : State :=
  let d := s.dirAt line
  if s.restricted line then
    match d.state with
    | .u => s
    | .s m => s.openLine line 4 .u (maskDies m 4) none
    | .em o => s.openLine line 4 .u [] (some (o, .recall))
    | .o o m => s.openLine line 4 .u (maskDies m 4) (some (o, .recall))
  else
    match d.state with
    | .u => ((s.setDir line { d with state := .em r }).sendData r line .m).ownDirty line
    | .s m => s.openLine line r (.em r) (maskDies m r) none
    | .em o => if o == r then s else s.openLine line r (.em r) [] (some (o, .forward r true))
    | .o o m => s.openLine line r (.em r) (maskDies m r) (if o == r then none else some (o, .forward r true))

/-- Requests that waited on a busy line are answered in their order of arrival (R375). -/
def State.drainLine (s : State) (line : Nat) : Nat → State
  | 0 => s
  | fuel + 1 =>
    let d := s.dirAt line
    match d.busy, d.queue with
    | none, (r, w) :: l =>
      let s := s.setDir line { d with queue := l }
      State.drainLine (if w then s.homeReqM line r else s.homeReqS line r) line fuel
    | _, _ => s

/-- After an answer: the transaction may be finished, and waiting requests follow. -/
def State.answered (s : State) (line : Nat) : State :=
  let d := s.dirAt line
  let s := (s.setDir line { d with acks := d.acks - 1 }).finishLine line
  s.drainLine line ((s.dirAt line).queue.length + 1)

/-- A request reaches the home: answered, or behind the transaction that is open; one that needs an entry first finds room for
it in the snoop filter. -/
def State.request (s : State) (die line : Nat) (write : Bool) : State :=
  let (pa, home) := s.lineOwner line
  if 4 ≤ die || die == home || s.homeOnly line then s
  else
    match s.makeRoom line pa home with
    | .error t => t
    | .ok s =>
      let d := { s.dirAt line with pa := pa, home := home }
      if d.busy.isSome then s.setDir line { d with queue := d.queue ++ [(die, write)] }
      else
        let s := if (tfind s.dir line).isSome then s else { s with dir := tset s.dir line { d with used := s.clock } }
        let s := if write then s.homeReqM line die else s.homeReqS line die
        s.setDir line (s.dirAt line)

/-- REQS: a read request of a die whose copy cannot serve a load (R373, R374). -/
def execReqs (die line : Nat) (s : State) : Host.Outcome State Fault Refusal :=
  ok (if s.copyAt die line == .i then s.request die line false else s)

/-- REQM: a write request of a die whose copy cannot be written; a copy in E becomes M without a message (R373, R374). -/
def execReqm (die line : Nat) (s : State) : Host.Outcome State Fault Refusal :=
  ok (match s.copyAt die line with
    | .m => s
    | .e => s.turnCopy die line .m
    | _ => s.request die line true)

/-- DATA: a line's data arrives and, once the home's transaction for the die is over, grants its state (R373); leases that the
home has recorded hold writes back here too. -/
def execData (die line : Nat) (s : State) : Host.Outcome State Fault Refusal :=
  let open_ := match (s.dirAt line).busy with
    | some (r, _) => r == die
    | none => false
  ok (match s.takeMsg die line fun k => match k with
      | .data g bs => some (g, bs)
      | _ => none with
    | some (t, g, bs) =>
      if open_ then s
      else
        let t := t.setCopy die line g bs
        if g == .e || g == .m then t.carryLease (t.lineOwner line).2 die line else t
    | none => s)

/-- A transaction's next state once the owner has turned out to hold nothing any more. -/
def DirState.without (st : DirState) (die : Nat) : DirState :=
  match st with
  | .o d m => if d == die then .s m else .o d m
  | st => st

/-- FORWARD: the owner sends the requester the line's data; one that loses its copy answers only once the leases recorded at its
slice have passed. An owner whose write-back is on its way answers from its write-back buffer, and the home counts that
write-back as the answer (R374, R375). -/
def execForward (die line : Nat) (s : State) : Host.Outcome State Fault Refusal :=
  ok (match s.takeMsg die line fun k => match k with
      | .forward r take => some (r, take)
      | _ => none with
    | none => s
    | some (t, r, take) =>
      let x := s.copyAt die line
      let bs := s.lineBytes die (128 * line) 128
      if s.dataComing die line then s
      else if x == .i then
        match s.writeBackOf die line with
        | some bs => t.send r line (.data (if take then .m else .s) bs)
        | none => t.answered line
      else if take then
        if s.leasedAt die line then s else ((t.send r line (.data .m bs)).setCopy die line .i []).answered line
      else
        let clean := x == .e
        let t := (t.turnCopy die line (if clean then .s else .o)).send r line (.data .s bs)
        let d := t.dirAt line
        let t := if clean then t.setDir line { d with busy := some (r, .s (maskAdd (maskAdd 0 die) r)) } else t
        t.answered line)

/-- INV: a sharer receives an invalidation, which it will acknowledge (R374). -/
def execInv (die line : Nat) (s : State) : Host.Outcome State Fault Refusal :=
  ok (if s.dataComing die line then s
    else match s.takeMsg die line fun k => if k == .inv then some () else none with
    | some (s, _) => s.send die line .ack
    | none => s)

/-- INV_ACK: once the leases recorded at its slice have passed, the copy is gone and the home is told (R374). -/
def execInvAck (die line : Nat) (s : State) : Host.Outcome State Fault Refusal :=
  ok (match s.takeMsg die line fun k => if k == .ack then some () else none with
    | some (t, _) => if s.leasedAt die line then s else (t.setCopy die line .i []).answered line
    | none => s)

/-- RECALL: the owner returns its data and its copy is gone; a write-back that is on its way is the answer (R374, R375). -/
def execRecall (die line : Nat) (s : State) : Host.Outcome State Fault Refusal :=
  ok (match s.takeMsg die line fun k => if k == .recall then some () else none with
    | some (t, _) =>
      if s.dataComing die line then s
      else if s.copyAt die line == .i then (if (s.writeBackOf die line).isSome then t else t.answered line)
      else if s.leasedAt die line then s
      else (t.setCopy die line .i []).send die line (.wbdata (s.lineBytes die (128 * line) 128))
    | none => s)

/-- CLEAN_EVICT: a die drops a copy in S or E and tells the home (R374). -/
def execCleanEvict (die line : Nat) (s : State) : Host.Outcome State Fault Refusal :=
  let d := s.dirAt line
  let x := s.copyAt die line
  if s.lineBusy line || !(x == .s || x == .e) then ok s
  else
    let rest (m : BitVec 4) : DirState := if maskDel m die == 0 then .u else .s (maskDel m die)
    let st : DirState := match d.state with
      | .s m => rest m
      | .em o => if o == die then .u else .em o
      | .o o m => .o o (maskDel m die)
      | .u => .u
    ok ((s.setCopy die line .i []).setDir line { d with state := st })

/-- WBDATA: an owner's write-back reaches the home, which writes it: the answer that its open transaction waits for, or the end of
an eviction. With none on its way, a die begins to evict its copy in M or O, which waits for the leases recorded at its slice
(R250, R373 to R375). -/
def execWbdata (die line : Nat) (s : State) : Host.Outcome State Fault Refusal :=
  ok (match s.takeMsg die line fun k => match k with
      | .wbdata bs => some bs
      | _ => none with
    | some (t, bs) =>
      let t := { t with mem := csetList t.mem (128 * line) bs }
      let d := t.dirAt line
      match d.busy with
      | some (r, st) => (t.setDir line { d with busy := some (r, st.without die) }).answered line
      | none =>
        let st : DirState := match d.state with
          | .em o => if o == die then .u else .em o
          | .o o m => if o == die then (if m == 0 then .u else .s m) else .o o m
          | st => st
        t.setDir line { d with state := st }
    | none =>
      let d := s.dirAt line
      let x := s.copyAt die line
      let asks := match d.busy with
        | some (r, _) => r == die
        | none => false
      if asks || s.leasedAt die line || !(x == .m || x == .o) then s
      else (s.setCopy die line .i []).send die line (.wbdata (s.lineBytes die (128 * line) 128)))

/-- SNOOP_FILTER_EVICTION: the home gives up a line's entry: the host's copy is taken back first; the owner is recalled and
sharers are invalidated; records of a race-checked line go with it (R366, R375, R378). -/
def execSnoopFilterEviction (line : Nat) (s : State) : Host.Outcome State Fault Refusal :=
  let d := s.dirAt line
  if s.lineBusy line then ok s
  else if d.host then ok (s.askHost line)
  else
    let s := { s with races := tdel s.races line }
    ok (match d.state with
      | .u => { s with dir := tdel s.dir line }
      | .s m => s.openLine line 4 .u (maskDies m 4) none
      | .em o => s.openLine line 4 .u [] (some (o, .recall))
      | .o o m => s.openLine line 4 .u (maskDies m 4) (some (o, .recall)))

/-! ### The host's caches (R376, R378) -/

/-- SNPINV: the host takes a half out of the bridge (R376). -/
def execSnpinv (half : Nat) (s : State) : Host.Outcome State Fault Refusal :=
  ok { s with bridge := tset s.bridge half { s.halfAt half with state := .i } }

/-- SNPDATA: the host reads a half of the bridge, which keeps it shared (R376). -/
def execSnpdata (half : Nat) (s : State) : Host.Outcome State Fault Refusal :=
  let x := s.halfAt half
  ok { s with bridge := tset s.bridge half { x with state := if x.state == .i then .i else .s } }

/-- The bridge cache holds 8 MiB: full, it gives up a half, whose modified bytes the host then has (R376). -/
def State.bridgeRoom (s : State) : State :=
  let held := s.bridge.filter fun x => x.2.state != .i
  if held.length < 131072 then s
  else
    match held[Config.bridgeVictim s.fresh % held.length]? with
    | some (h, x) => { s.bump with bridge := tset s.bridge h { x with state := .i } }
    | none => s

/-- CXL_CACHE_RESPONSE: the answer to the half's RdShared or RdOwn arrives; the waiting access finds it (R376). -/
def execCxlCacheResponse (half : Nat) (s : State) : Host.Outcome State Fault Refusal :=
  let x := s.halfAt half
  ok (match x.req with
    | some own =>
      let s := if x.state == .i then s.bridgeRoom else s
      { s with bridge := tset s.bridge half { state := if own then .e else .s, req := none } }
    | none => s)

/-- BIRSP: the host gives up its copy of a half of a device line; what it has modified comes back before the write that
asked for it (R378). -/
def execBirsp (line half : Nat) (s : State) : Host.Outcome State Fault Refusal :=
  let d := s.dirAt line
  let due := tget [] s.bisnp line
  if !due.contains half then ok s
  else
    let key := 128 * line + 64 * (half % 2)
    let old := s.valueAt key 64
    let new := old.zipIdx.map fun p => (Config.hostByte s.fresh p.2).getD p.1
    let s := if new == old then s else s.putLine (s.pointOf line) key new
    let rest := sdel due half
    let s := { s.bump with bisnp := if rest.isEmpty then tdel s.bisnp line else tset s.bisnp line rest }
    ok (if rest.isEmpty then s.setDir line { d with host := false } else s)

/-- What the host has before it once it reads `n` bytes from a key on: what has been released there at system scope (R352). -/
def State.hostSees (s : State) (key n : Nat) : Vec :=
  (s.msgsAt key n).foldl (fun v m => if m.scope = 5 then vecJoin v m.vc else v) s.hbHost

/-- A host write that raises the WPTR of a stream releases what the host has before it (R24, R352). -/
def State.raiseWptr (s : State) (pa n : Nat) : State :=
  if (List.range 16).any fun st => meets pa n (s.streamAt st + 16) 8 then
    s.writeRel (s.devAt pa).2 n false [(5, s.hbHost)]
  else s

/-- A read of frame space by the host: it waits for a line that is being copied, replicated or changed over; else it is performed,
and may leave a copy at the host (R220, R237, R378, R426). -/
def State.hostLoad (s : State) (pa n : Nat) : State :=
  if (List.range n).any fun i => s.devStands (pa + i) then { s with hostReads := s.hostReads ++ [(pa, n)] }
  else
    let s := { s.markRec pa false with hbHost := s.hostSees (s.devAt pa).2 n, hostRead := s.devRead pa n }
    if Config.cxlCache && Config.hostCaches s.fresh then
      let t := s.devPage pa
      let key := (s.devAt pa).2
      let line := key / 128
      match s.makeRoom line (pa / 128 * 128) (homeOf t.pw key) with
      | .ok s => s.bump.setDir line { s.dirAt line with pa := pa / 128 * 128, home := homeOf t.pw key, host := true }
      | .error _ => s.bump
    else s.bump

/-- The host's reads that wait are tried again. -/
def State.hostLoads (s : State) : State :=
  s.hostReads.foldl (fun s r => s.hostLoad r.1 r.2) { s with hostReads := [] }

/-- HOST_ACCESS: a host access through BAR4 or CXL.mem is performed at the line's performing point, under its leases; until READY
reads give 0 and writes are dropped. A read under CXL.mem may leave a copy at the host (R250, R378, R426). An address of host
memory is the host's own access to it, possible while the bridge does not hold the half. [DESIGN CHOICE, log 116] -/
def execHostAccess (addr : Nat) (write : Bool) (bytes : List Byte) (s : State) : Host.Outcome State Fault Refusal :=
  let n := bytes.length
  let nothing : State := if write then s else { s with hostRead := List.replicate n 0 }
  if inHost addr then
    let free := (halvesOf addr n).all fun h => (s.halfAt h).state == .i
    ok (if write && free && inHost (addr + n) then s.putMem addr bytes else s)
  else if s.boot.state != 3 && s.boot.state != 4 then ok nothing
  else if !inFrame addr || pastFrames addr then ok nothing
  else if write then ok ((s.hostWrite addr bytes).raiseWptr addr n)
  else ok (s.hostLoad addr n)

/-! ### Replicated pages (R220) -/

/-- Changes the first update of a line for which `p` holds. -/
def State.mapReplica (s : State) (p : Replica → Bool) (f : Replica → Replica) : State :=
  let rec go : List Replica → List Replica
    | [] => []
    | r :: l => if p r then f r :: l else r :: go l
  { s with replicas := go s.replicas }

/-- REPLICA_UPDATE: the update arrives at a die, which applies it to its copy (R220). -/
def execReplicaUpdate (die line : Nat) (s : State) : Host.Outcome State Fault Refusal :=
  let is (r : Replica) : Bool := r.line == line && r.toSend.contains die
  match s.replicas.find? is with
  | none => ok s
  | some r =>
    let put (m : Cells 8) (b : Nat × Byte) : Cells 8 := cset m (b.1 + die * 2 ^ 36) b.2
    let s := { s with mem := r.bytes.foldl put s.mem }
    ok (s.mapReplica is fun r => { r with toSend := sdel r.toSend die })

/-- REPLICA_ACKNOWLEDGE: a die's acknowledgement reaches HD; with the last one the write is performed: HD's copy takes it, and
loads of the line go on (R220, R362). -/
def execReplicaAcknowledge (die line : Nat) (s : State) : Host.Outcome State Fault Refusal :=
  let is (r : Replica) : Bool := r.line == line && r.acks.contains die && !r.toSend.contains die
  let t := s.mapReplica is fun r => { r with acks := sdel r.acks die }
  let done := t.replicas.filter fun r => r.acks.isEmpty
  let put (m : Cells 8) (r : Replica) : Cells 8 := r.bytes.foldl (fun m b => cset m (b.1 + r.hd * 2 ^ 36) b.2) m
  ok { t with mem := done.foldl put t.mem, replicas := t.replicas.filter fun r => !r.acks.isEmpty }

/-! ### The scrubber (R252, R253) -/

/-- Black-box code of a store (R400): register file 1, symbol-coded on-chip stores 2, last-level cache 3, directory 4. -/
def scrubCode (place : Nat) : Nat := if place = 0 then 1 else if place < 6 then 2 else if place = 6 then 3 else 4

/-- SCRUB: the scrubber visits a unit: a word of a register file, by its number, or 16 bytes. A corrected error is recorded; an
uncorrectable one poisons the unit and is recorded, but for a clean last-level-cache line, which is refetched (R252, R253). [DEDUCED, log 117] -/
def execScrub (die place unit : Nat) (uncorrectable : Bool) (s : State) : Host.Outcome State Fault Refusal :=
  let code := scrubCode place
  let key := if place = 0 then 4 * unit else 16 * unit
  let clean := place == 6 && (List.range 4).all fun d => !(s.copyAt d (key / 128) == .m || s.copyAt d (key / 128) == .o)
  let bad := uncorrectable && !clean
  let s := if bad then s.setBad (unitAt key) else s
  ok (s.boxRecord (die % 4) (unitRecord (if bad then 4 else 3) code 0 s.clock (bv key)))

end Sys2Proof.Machine
end

