-- ==== Sys2Proof/Machine/Firmware.lean ====
section
/-! DEFINITION. The module towards the host: management registers, start-up, firmware images and recovery, the fault ring, the
frame port, move requests, power (R427 to R434, and the move routines of R379 to R381). -/

namespace Sys2Proof.Machine

/-! ### Firmware images (R430) -/

/-- Bytes of a flash slot, and of a part of an image. -/
def slotSize : Nat := 32 * 2 ^ 20
def partSize : Nat := 4 * 2 ^ 20

/-- A firmware image: the bytes that hold it and where it begins. -/
structure Image where
  bytes : Cells 8
  base : Nat

/-- `n` bytes of an image from `i` on. -/
def Image.at_ (m : Image) (i n : Nat) : List Byte := cgetList m.bytes (m.base + i) n
def Image.num (m : Image) (i n : Nat) : Nat := ofBytes (m.at_ i n)
def Image.version (m : Image) : Nat := m.num 4 4
def Image.len (m : Image) : Nat := m.num 8 8
/-- Is MAGIC right? -/
def Image.magic (m : Image) : Bool := m.num 0 4 == 0x46345250
/-- Is LEN in range? -/
def Image.lenOk (m : Image) : Bool := m.len % 16 == 0 && decide (16 ≤ m.len) && decide (m.len ≤ slotSize - 256)

/-- Is an image accepted but for its VERSION: every field in range, the key the fused one, digest and signature right? -/
def Image.authentic (m : Image) : Bool :=
  m.magic && m.lenOk && decide (m.version ≤ 64) && m.num 176 80 == 0 && Config.sm3 (m.at_ 48 64) == Config.keyHash &&
    Config.sm3 (m.at_ 256 m.len) == m.at_ 16 32 && Config.sm2 (m.at_ 48 64) (m.at_ 16 32) (m.at_ 112 64)

/-- What authentication ends in: 0 accepted, 1 failed, 2 rollback (R430, R431). -/
def Image.verdict (m : Image) (fuse : Nat) : Nat := if !m.authentic then 1 else if m.version < fuse then 2 else 0

/-- The image of a flash slot. -/
def Boot.image (b : Boot) (slot : Nat) : Image := { bytes := b.flash, base := slot * slotSize }

/-- The image in the staging SRAM. -/
def Boot.staged (b : Boot) : Image := { bytes := b.staging, base := 0 }

/-! ### Start-up (R429) -/

/-- Steps 3 and 4 of R429 with an image of this VERSION: frame space is zero, every agent is idle in its privileged slot, and
all else, the clock too, is as at reset but for what reset does not touch: black boxes, flash, fuses, host memory (R118). [DEDUCED, log 14; DEDUCED, log 15] -/
def State.start (s : State) (version slot : Nat) : State :=
  let box (d : Die) : Die := { Die.reset with box := d.box, wcount := d.wcount }
  { State.reset with
    wave := agentWave 0, waves := (List.range (Config.cores - 1)).map fun i => agentWave (i + 1), fresh := s.fresh,
    mem := s.mem.filter fun c => inHost c.1, poison := s.poison.filter inHost,
    dies := s.dies.map fun d => (d.1, box d.2), agenda := s.agenda,
    boot := { s.boot with state := 3, version := version, slot := slot, staging := [], status := 0, part := none } }

/-- Recovery: nothing but the boot core runs (R431). -/
def State.recover (s : State) : State :=
  let box (d : Die) : Die := { Die.reset with box := d.box, wcount := d.wcount }
  { State.reset with
    fresh := s.fresh, mem := s.mem.filter fun c => inHost c.1, poison := s.poison.filter inHost, dies := s.dies.map fun d => (d.1, box d.2),
    agenda := s.agenda, boot := { s.boot with state := 5, version := 0, staging := [], status := 0, part := none } }

/-- Step 2 of R429: the slots are authenticated; the accepted one of greater VERSION boots, slot 0 on a tie; with none the
module enters recovery. -/
def State.authenticate (s : State) : State :=
  let ok0 := (s.boot.image 0).verdict s.boot.fuse == 0
  let ok1 := (s.boot.image 1).verdict s.boot.fuse == 0
  let v0 := (s.boot.image 0).version
  let v1 := (s.boot.image 1).version
  let s := { s with boot := { s.boot with fail0 := !ok0, fail1 := !ok1 } }
  if ok0 && (!ok1 || v1 ≤ v0) then s.start v0 0
  else if ok1 then s.start v1 1
  else s.recover

/-- PERST_DEASSERT: the link trains and start-up runs to READY or recovery (R429). [DEDUCED, log 128] -/
def execPerstDeassert (s : State) : Host.Outcome State Fault Refusal :=
  if s.boot.state = 1 then ok s.authenticate else ok s

/-- CTRL_WARMRST: every state is lost but the black boxes; start-up runs again from authentication (R429). -/
def execCtrlWarmrst (s : State) : Host.Outcome State Fault Refusal :=
  if s.boot.state = 3 || s.boot.state = 4 then ok s.authenticate else ok s

/-- POOL for a power limit (R434). -/
def poolOf (plimit : Word) : Nat := max 4 (320 * plimit.toNat / 1800)

/-- CTRL_GO: in READY the module runs: TVEC and TFRM go to every core, whose reserved bits stay 0 (R386), POOL is set, claiming begins (R427, R429). [DEDUCED, log 126] -/
def execCtrlGo (s : State) : Host.Outcome State Fault Refusal :=
  if s.boot.state != 3 then ok s
  else
    let vec : DWord := s.mgmt.tvec &&& bv 0x000FFFFFFFFFFF01
    let frm : DWord := s.mgmt.tfrm &&& bv 0x000FFFFFFFE00000
    let arm (s : State) (c : Nat) : State := s.setCore c { s.core c with trapvec := vec, trapfrm := frm }
    let s := (List.range Config.cores).foldl arm s
    ok { s with boot := { s.boot with state := 4 }, pool := poolOf s.mgmt.plimit, poolSet := poolOf s.mgmt.plimit }

/-- CTRL_COMMIT: fuses are blown until F is the VERSION that runs; F never falls (R430). -/
def execCtrlCommit (s : State) : Host.Outcome State Fault Refusal :=
  if (s.boot.state = 3 || s.boot.state = 4) && s.boot.fuse < s.boot.version then
    ok { s with boot := { s.boot with fuse := s.boot.version } }
  else ok s

/-! ### Recovery commands (R431) -/

/-- The state with STATUS of the recovery window. -/
def State.status (s : State) (n : Nat) : State := { s with boot := { s.boot with status := n } }

/-- RECOVERY_BOOT: the staged image is authenticated and boots. -/
def execRecoveryBoot (s : State) : Host.Outcome State Fault Refusal :=
  let m := s.boot.staged
  let v := m.verdict s.boot.fuse
  if s.boot.state != 5 then ok (s.status 5)
  else if partSize < m.len + 256 then ok (s.status 6)
  else if v != 0 then ok (s.status v)
  else ok (s.start m.version s.boot.slot)

/-- RECOVERY_BOOTSLOT: a flash slot is authenticated and boots. -/
def execRecoveryBootslot (s : State) : Host.Outcome State Fault Refusal :=
  let slot := bits s.boot.arg 0 0
  let m := s.boot.image slot
  let v := m.verdict s.boot.fuse
  if s.boot.state != 5 then ok (s.status 5)
  else if bits s.boot.arg 31 1 != 0 then ok (s.status 4)
  else if v != 0 then ok (s.status v)
  else ok (s.start m.version slot)

/-- Part `k` of a slot is erased and the first `n` of its bytes are written from the staging SRAM. -/
def State.program (s : State) (slot k n : Nat) : State :=
  let at_ := slot * slotSize + k * partSize
  let bytes := cgetList s.boot.staging 0 n ++ List.replicate (partSize - n) Config.erased
  { s with boot := { s.boot with flash := csetList s.boot.flash at_ bytes } }

/-- PROGRAM of a whole image: written only where it is accepted. [DEDUCED, log 123] -/
def State.programWhole (s : State) (slot k : Nat) : State :=
  let m := s.boot.staged
  let v := m.verdict s.boot.fuse
  if k != 0 then s.status 4
  else if v != 0 then s.status v
  else
    let t := s.program slot 0 (m.len + 256)
    { t with boot := { t.boot with part := none, status := 0 } }

/-- PROGRAM of part `k` of an image of `len` payload bytes, past its checks: after the last part the slot is
authenticated. -/
def State.programPart (s : State) (slot k len : Nat) : State :=
  let left := len + 256 - k * partSize
  let t := s.program slot k (min partSize left)
  if left ≤ partSize then
    { t with boot := { t.boot with part := none, status := (t.boot.image slot).verdict t.boot.fuse } }
  else { t with boot := { t.boot with part := some (slot, k + 1), status := 0 } }

/-- RECOVERY_PROGRAM: staged bytes go into a flash slot, as a whole image or as a part. -/
def execRecoveryProgram (s : State) : Host.Outcome State Fault Refusal :=
  let slot := bits s.boot.arg 0 0
  let k := bits s.boot.arg 3 1
  let m := s.boot.staged
  if bits s.boot.arg 31 4 != 0 then ok (s.status 4)
  else if s.boot.part == some (slot, k) && k != 0 then ok (s.programPart slot k (s.boot.image slot).len)
  else if m.len + 256 ≤ partSize then ok (s.programWhole slot k)
  else if k != 0 || !m.magic || !m.lenOk || 64 < m.version then ok (s.status 4)
  else if m.version < s.boot.fuse then ok (s.status 2)
  else ok (s.programPart slot 0 m.len)

/-! ### Management registers (R427, R428) -/

/-- The low or high word of a 64-bit register replaced. -/
def setHalf (x : DWord) (high : Bool) (v : Word) : DWord := if high then pair (lo32 x) v else pair v (hi32 x)

/-- The registers marked RWL: the write, by offset. -/
def Mgmt.lockedWrite (m : Mgmt) (off : Nat) (v : Word) : Mgmt :=
  let hi := off % 8 == 4
  match off with
  | 0x020 => { m with featacc := BitVec.ofNat 128 (v.toNat % 256) }
  | 0x030 => { m with ptroot := setHalf m.ptroot false v }
  | 0x034 => { m with ptroot := setHalf m.ptroot hi v }
  | 0x038 => { m with strtab := setHalf m.strtab false v }
  | 0x03C => { m with strtab := setHalf m.strtab hi v }
  | 0x040 => { m with evbase := setHalf m.evbase false v }
  | 0x044 => { m with evbase := setHalf m.evbase hi v }
  | 0x048 => { m with evsize := v }
  | 0x058 => { m with fltbase := setHalf m.fltbase false v }
  | 0x05C => { m with fltbase := setHalf m.fltbase hi v }
  | 0x060 => { m with fltsize := v }
  | 0x0C8 => { m with suspbase := setHalf m.suspbase false v }
  | 0x0CC => { m with suspbase := setHalf m.suspbase hi v }
  | 0x0D0 => { m with susplen := setHalf m.susplen false v }
  | 0x0D4 => { m with susplen := setHalf m.susplen hi v }
  | 0x0D8 => { m with tvec := setHalf m.tvec false v }
  | 0x0DC => { m with tvec := setHalf m.tvec hi v }
  | 0x0E0 => { m with tfrm := setHalf m.tfrm false v }
  | 0x0E4 => { m with tfrm := setHalf m.tfrm hi v }
  | _ => m

/-- The other registers without a behaviour of their own: frame port address and data, move request. -/
def Mgmt.openWrite (m : Mgmt) (off : Nat) (v : Word) : Mgmt :=
  if 0x090 ≤ off && off < 0x0B0 && off % 4 == 0 then { m with mvreq := m.mvreq.set ((off - 0x090) / 4) v }
  else
    match off with
    | 0x078 => { m with fpaddr := setHalf m.fpaddr false v }
    | 0x07C => { m with fpaddr := setHalf m.fpaddr true v }
    | 0x080 => { m with fpdata := setHalf m.fpdata false v }
    | 0x084 => { m with fpdata := setHalf m.fpdata true v }
    | _ => m

/-- A head. -/
def headReset : Head :=
  { hcfg := 0, timing := 0, timingNext := none, present := 0, pose := 0, scanseq := 0, relseqNext := none, pseq := 0,
    shows := 0, record := [], matrix := [] }
def State.head (s : State) (h : Nat) : Head := tget headReset s.heads h
def State.setHead (s : State) (h : Nat) (x : Head) : State := { s with heads := tset s.heads h x }

/-- PRESENT and POSE of a head (R427). [DEDUCED, log 119] -/
def State.headWrite (s : State) (off : Nat) (v : Word) : State :=
  let h := (off - 0x200) / 32
  let x := s.head h
  match off % 32 with
  | 12 => s.setHead h { x with present := setHalf x.present false v }
  | 16 => s.setHead h { x with present := setHalf x.present true v }
  | 20 => s.setHead h { x with pose := setHalf x.pose false v }
  | 24 => s.setHead h { x with pose := setHalf x.pose true v }
  | _ => s

/-- The recovery window (R431), at 64 KiB above the registers: ARG, PAGESEL, the words of a staging page. -/
def Boot.windowWrite (b : Boot) (off : Nat) (v : Word) : Boot :=
  if off = 0x4 then { b with arg := v }
  else if off = 0xC then { b with pagesel := v }
  else if 0x8000 ≤ off && off < 0x10000 && off % 4 == 0 && decide (b.pagesel.toNat < 128) then
    { b with staging := csetList b.staging (32768 * b.pagesel.toNat + (off - 0x8000)) (toBytes v.toNat 4) }
  else b

/-- REGISTER_WRITE: before READY it is dropped, and after GO in a register marked RWL (R427). The recovery window takes writes
in every state (R431). [DESIGN CHOICE, log 121] -/
def execRegisterWrite (offset : Nat) (value : Word) (s : State) : Host.Outcome State Fault Refusal :=
  if 0x10000 ≤ offset then ok { s with boot := s.boot.windowWrite (offset - 0x10000) value }
  else if s.boot.state != 3 && s.boot.state != 4 then ok s
  else if 0x200 ≤ offset && offset < 0x280 then ok (s.headWrite offset value)
  else
    let m := if s.boot.state = 3 then s.mgmt.lockedWrite offset value else s.mgmt
    ok { s with mgmt := m.openWrite offset value }

/-- BOOTSTS (R427). -/
def Boot.bootsts (b : Boot) : Word :=
  BitVec.ofNat 32 (65536 * (b.version % 256) + 256 * (b.fuse % 256) + (if b.fail1 then 128 else 0) + (if b.fail0 then 64 else 0) +
    16 * (b.slot % 2) + b.state % 8)

/-- A read of a management register (R427). -/
def State.registerRead (s : State) (off : Nat) : Word :=
  let m := s.mgmt
  let half (x : DWord) (base : Nat) : Word := if off = base then lo32 x else hi32 x
  if off = 0 then s.boot.bootsts
  else if s.boot.state != 3 && s.boot.state != 4 then 0
  else if 0x090 ≤ off && off < 0x0B0 then m.mvreq.getD ((off - 0x090) / 4) 0
  else if 0x0B4 ≤ off && off < 0x0C4 then m.mvresp.getD ((off - 0x0B4) / 4) 0
  else if 0x020 ≤ off && off < 0x030 then BitVec.ofNat 32 (m.featacc.toNat / 2 ^ (8 * (off - 0x020)))
  else if 0x0F0 ≤ off && off < 0x110 then
    half (bv (s.die ((off - 0x0F0) / 8)).wcount) (0x0F0 + 8 * ((off - 0x0F0) / 8))
  else if 0x200 ≤ off && off < 0x280 then
    let x := s.head ((off - 0x200) / 32)
    match off % 32 with
    | 0 => x.hcfg
    | 4 => lo32 (x.timingNext.getD x.timing)
    | 8 => hi32 (x.timingNext.getD x.timing)
    | 12 => lo32 x.present
    | 16 => hi32 x.present
    | 20 => lo32 x.pose
    | 24 => hi32 x.pose
    | _ => 0
  else
    match off with
    | 0x004 => if s.boot.state = 4 then 1 else 0
    | 0x010 => 0xFF
    | 0x030 => half m.ptroot 0x030
    | 0x034 => half m.ptroot 0x030
    | 0x038 => half m.strtab 0x038
    | 0x03C => half m.strtab 0x038
    | 0x040 => half m.evbase 0x040
    | 0x044 => half m.evbase 0x040
    | 0x048 => m.evsize
    | 0x04C => m.evprod
    | 0x050 => m.evcons
    | 0x058 => half m.fltbase 0x058
    | 0x05C => half m.fltbase 0x058
    | 0x060 => m.fltsize
    | 0x064 => m.fltprod
    | 0x068 => m.fltcons
    | 0x070 => half m.fresp 0x070
    | 0x074 => half m.fresp 0x070
    | 0x078 => half m.fpaddr 0x078
    | 0x07C => half m.fpaddr 0x078
    | 0x080 => half m.fpdata 0x080
    | 0x084 => half m.fpdata 0x080
    | 0x0C4 => if m.mvdone then 1 else 0
    | 0x0C8 => half m.suspbase 0x0C8
    | 0x0CC => half m.suspbase 0x0C8
    | 0x0D0 => half m.susplen 0x0D0
    | 0x0D4 => half m.susplen 0x0D0
    | 0x0D8 => half m.tvec 0x0D8
    | 0x0DC => half m.tvec 0x0D8
    | 0x0E0 => half m.tfrm 0x0E0
    | 0x0E4 => half m.tfrm 0x0E0
    | 0x0E8 => m.plimit
    | 0x0EC => m.power
    | _ => 0

/-! ### Fault ring and frame port (R432) -/

/-- FLTCONS_WRITE: space is freed, and reports that wait are written (R432). -/
def execFltconsWrite (value : Word) (s : State) : Host.Outcome State Fault Refusal :=
  if s.boot.state != 3 && s.boot.state != 4 then ok s
  else ok (State.writeReports { s with mgmt := { s.mgmt with fltcons := value } })

/-- Are the registers there: READY or RUN? -/
def State.live (s : State) : Bool := s.boot.state == 3 || s.boot.state == 4

/-- FPCMD_READ: the frame record at FPADDR goes to FPDATA, in one step (R432). -/
def execFpcmdRead (s : State) : Host.Outcome State Fault Refusal :=
  let pa := s.mgmt.fpaddr.toNat
  if s.live then ok { s with mgmt := { s.mgmt with fpdata := if inFrame pa then s.frameRec pa else 0 } } else ok s

/-- FPCMD_WRITE: FPDATA goes to the frame record at FPADDR, in one step; its reserved bits stay 0 (R222, R432). -/
def execFpcmdWrite (s : State) : Host.Outcome State Fault Refusal :=
  let pa := s.mgmt.fpaddr.toNat
  if s.live && inFrame pa then ok { s with frames := cset s.frames (pa / 4096) (bv (s.mgmt.fpdata.toNat % 2 ^ 54)) } else ok s

/-! ### Move requests (R379, R381, R432) -/

/-- Core 0's agent takes a request's eight words as s40 to s47. -/
def State.takeRequest (s : State) : State :=
  let s := s.focus 0 15
  let w := s.mgmt.mvreq.zipIdx.foldl (fun w x => w.setS (40 + x.2) x.1) s.wave
  { s with wave := w, mgmt := { s.mgmt with mvdone := false } }

/-- The routine returns: its s32 to s35 are placed in MVRESP0 to MVRESP3, then DONE is set. -/
def State.moveReturns (s : State) : State :=
  let w := s.wave
  { s with mgmt := { s.mgmt with mvresp := [w.sreg 32, w.sreg 33, w.sreg 34, w.sreg 35], mvdone := true } }

/-- Writes a result and its flag into the agent's registers `n` and `n + 1`. -/
def State.agentResult (r : State × Word × Bool) (n : Nat) : State :=
  let w := (r.1.wave.setS n r.2.1).setS (n + 1) (if r.2.2 then 1 else 0)
  { r.1 with wave := { w with scc := r.2.2 } }

/-- MVDOOR_START: core 0's agent runs `mv_start`: CPR.start on s40 to s47. Words that CPR refuses as operands restart the
agent, which ends the request (R283, R379, R390, R432). -/
def execMvdoorStart (s : State) : Host.Outcome State Fault Refusal :=
  if !s.live || !s.mgmt.mvdone then ok s
  else
    let s := s.takeRequest
    let x (i : Nat) : Word := s.wave.sreg (40 + i)
    if x 7 != 0 || 5 < (x 6).toNat then ok (s.faultAt 2 0 s.wave.pc)
    else
      let r := s.moveStart (pair (x 0) (x 1)).toNat (pair (x 2) (x 3)).toNat (x 4) (x 5) (x 6).toNat
      ok (State.moveReturns (State.agentResult r 32))

/-- The routine `mv_end` of an end request: it queries until PP reaches the end, then CPR.end (R379, R381). [DEDUCED, log 124] -/
def State.moveRoutine (s : State) : State :=
  if s.mgmt.mvdone then s
  else
    let s := s.focus 0 15
    let e := (s.wave.sreg 40).toNat
    let q := s.moveQuery e
    let s := { s with wave := { s.wave.setS 33 q.2.1 with scc := q.2.2 } }
    if q.2.2 then State.moveReturns (State.agentResult (s.moveEnd e) 34) else s

/-- MVDOOR_END: core 0's agent runs `mv_end`, which waits for the copy to be complete (R379, R432). -/
def execMvdoorEnd (s : State) : Host.Outcome State Fault Refusal :=
  if !s.live || !s.mgmt.mvdone then ok s else ok s.takeRequest.moveRoutine

/-! ### Power (R98, R434) -/

/-- PLIMIT_WRITE: 300 to 1,800 watts, else no change; POOL follows (R434). -/
def execPlimitWrite (value : Word) (s : State) : Host.Outcome State Fault Refusal :=
  if !s.live || value.toNat < 300 || 1800 < value.toNat then ok s
  else
    ok { s with mgmt := { s.mgmt with plimit := value }, pool := poolOf value, poolSet := poolOf value }

/-- POWER_THROTTLE: a millisecond of power above PLIMIT lowers POOL by an eighth, to no less than 4 (R434). [DEDUCED, log 125] -/
def execPowerThrottle (watts : Nat) (s : State) : Host.Outcome State Fault Refusal :=
  let s := { s with mgmt := { s.mgmt with power := BitVec.ofNat 32 watts } }
  if !s.live || watts ≤ s.mgmt.plimit.toNat then ok s
  else ok (State.boxRecord { s with pool := max 4 (s.pool - s.pool / 8) } 0 (unitRecord 6 0 0 s.clock 0))

/-- POWER_RECOVER: after 10 ms below 95 % of PLIMIT, POOL rises by an eighth, up to what PLIMIT gave (R434). -/
def execPowerRecover (watts : Nat) (s : State) : Host.Outcome State Fault Refusal :=
  let s := { s with mgmt := { s.mgmt with power := BitVec.ofNat 32 watts } }
  if !s.live || 95 * s.mgmt.plimit.toNat ≤ 100 * watts then ok s
  else ok { s with pool := max s.pool (min s.poolSet (s.pool + s.pool / 8)) }

end Sys2Proof.Machine
end

