-- ==== Sys2Proof/Machine/Display.lean ====
section
/-! DEFINITION. The compressed frame buffer and the display heads (R409 to R413, R433). A record, a pose and a timing record
are reached by device virtual addresses. -/

namespace Sys2Proof.Machine

/-! ### Memory as a head reads it -/

/-- `n` bytes at a virtual address, where all of it translates. [DEDUCED, log 120] -/
def State.headRead (s : State) (va n : Nat) : Option (List Byte) :=
  (List.range n).foldr (fun i l => match l, s.physOf (va + i) with
    | some l, some pa => some (s.devByte pa :: l)
    | _, _ => none) (some [])

/-- The frame records of `n` bytes at a virtual address that a head reads take ACC (R222). -/
def State.headTouch (s : State) (va n : Nat) : State :=
  if n = 0 then s
  else (List.range ((va + n - 1) / 4096 + 1 - va / 4096)).foldl (fun s i =>
    match s.physOf (max va (va / 4096 * 4096 + 4096 * i)) with
    | some pa => s.touch pa 1
    | none => s) s

/-- Writes bytes at a virtual address, where it translates. -/
def State.headPut (s : State) (va : Nat) (bs : List Byte) : State :=
  match s.physOf va with
  | some pa => s.physWrite pa bs
  | none => s

/-! ### Blocks (R409, R410) -/

/-- The bits `i` to `i + n - 1` of a list of bytes. -/
def blockBits (bs : List Byte) (i n : Nat) : Nat := ofBytes bs / 2 ^ i % 2 ^ n

/-- The four widths of a packed block. -/
def blockWidths (bs : List Byte) : List Nat := (List.range 4).map fun c => blockBits bs (32 + 4 * c) 4

/-- Channel `c` of pixel `p` of a packed block: base and delta (R410). -/
def packedChannel (bs : List Byte) (p c : Nat) : Nat :=
  let ws := blockWidths bs
  let at_ := 48 + p * total ws + total (ws.take c)
  (bs.getD c 0).toNat + blockBits bs at_ (ws.getD c 0)

/-- Is a block with metadata value `m` malformed (R410)? -/
def blockBad (m : Nat) (bs : List Byte) : Bool :=
  if m = 0 || m = 8 then false
  else if 9 ≤ m then true
  else
    let ws := blockWidths bs
    (ws.any fun w => decide (8 < w)) || m != (6 + 8 * total ws + 31) / 32 ||
      (List.range 64).any fun p => (List.range 4).any fun c => decide (255 < packedChannel bs p c)

/-- Pixel `p` of a block with metadata value `m`: R, G, B, A; a malformed block shows CLEAR (R409, R410). -/
def blockPixel (m : Nat) (bs clear : List Byte) (p : Nat) : List Byte :=
  if m = 0 || blockBad m bs then clear
  else if m = 8 then (bs.drop (4 * p)).take 4
  else (List.range 4).map fun c => BitVec.ofNat 8 (packedChannel bs p c)

/-! ### Present records (R411) -/

/-- The number in bytes `i` to `i + n - 1` of a record. -/
def recNum (r : List Byte) (i n : Nat) : Nat := ofBytes ((r.drop i).take n)

/-- Is a present record well formed (R411, R412)? -/
def presentOk (r : List Byte) : Bool :=
  let w := recNum r 16 2
  let h := recNum r 18 2
  decide (1 ≤ w) && decide (w ≤ 8192) && decide (1 ≤ h) && decide (h ≤ 8192) && recNum r 0 8 % 256 == 0 &&
    recNum r 20 4 == 0 && recNum r 28 4 == 0 && recNum r 40 8 == 0

/-- CLEAR of a record. -/
def presentClear (r : List Byte) : List Byte := (r.drop 24).take 4

/-- Pixel (x, y) of the frame of a record; outside WIDTH and HEIGHT it is CLEAR (R409, R433). -/
def State.framePixel (s : State) (r : List Byte) (x y : Nat) : List Byte :=
  let w := recNum r 16 2
  if w ≤ x || recNum r 18 2 ≤ y then presentClear r
  else
    let n := y / 8 * ((w + 7) / 8) + x / 8
    match s.headRead (recNum r 8 8 + n / 2) 1, s.headRead (recNum r 0 8 + 256 * n) 256 with
    | some m, some bs => blockPixel (blockBits m (4 * (n % 2)) 4) bs (presentClear r) (8 * (y % 8) + x % 8)
    | _, _ => presentClear r

/-! ### What a head shows (R412) -/

/-- Row `i` of H × (x + 0.5, y + 0.5, 1) in FP32, each operation rounded nearest-even: products left to right, then sums. -/
def poseRow (m : List Byte) (i x y : Nat) : Nat :=
  let e (j : Nat) : Nat := recNum m (12 * i + 4 * j) 4
  let c (v : Nat) : Nat := fp32.round 0 (.num false (2 * v + 1) (-1))
  let mul (a b : Nat) : Nat := fp32.round 0 (FV.mul (fp32.val a) (fp32.val b))
  let add (a b : Nat) : Nat := fp32.round 0 (FV.sum false [fp32.val a, fp32.val b])
  add (add (mul (e 0) (c x)) (mul (e 1) (c y))) (e 2)

/-- The integer at or below a finite FP32 value, if it is at least 0. -/
def floorOf (a : Nat) : Option Nat :=
  match fp32.val a with
  | .num sign m e => if m = 0 then some 0 else if sign then none else some (if 0 ≤ e then m * 2 ^ e.toNat else m / 2 ^ (-e).toNat)
  | _ => none

/-- The source pixel of an output pixel; none: it shows CLEAR (R412). -/
def sourcePixel (m : List Byte) (x y : Nat) : Option (Nat × Nat) :=
  let w := poseRow m 2 x y
  let ahead := match fp32.val w with
    | .num neg k _ => !neg && k != 0
    | .inf neg => !neg
    | .nan => false
  let div (a : Nat) : Nat := fp32.round 0 (FV.div 64 (fp32.val a) (fp32.val w))
  match floorOf (div (poseRow m 0 x y)), floorOf (div (poseRow m 1 x y)) with
  | some u, some v => if ahead then some (u, v) else none
  | _, _ => none

/-- Black. -/
def black : List Byte := [0, 0, 0, 0]

/-- What a head shows at (x, y) in the scan it has begun (R411 to R413). -/
def State.shownPixel (s : State) (h x y : Nat) : List Byte :=
  let d := s.head h
  if d.shows = 0 || d.scanseq = 0 then black
  else if d.shows = 2 then
    match sourcePixel d.matrix x y with
    | some (u, v) => if recNum d.record 16 2 ≤ u || recNum d.record 18 2 ≤ v then presentClear d.record else s.framePixel d.record u v
    | none => presentClear d.record
  else s.framePixel d.record x y

/-! ### The heads' events (R411, R412, R433) -/

/-- HCFG_WRITE: bit 0 enables the head; as it turns from 0 to 1 the head writes SCANSEQ and RELSEQ 0 (R411). -/
def execHcfgWrite (head : Nat) (value : Word) (s : State) : Host.Outcome State Fault Refusal :=
  if !s.live || 4 ≤ head then ok s
  else
    let x := s.head head
    let on := value.getLsbD 0
    let y := { x with hcfg := if on then 1 else 0 }
    if on && !x.hcfg.getLsbD 0 then
      let p := x.present.toNat
      let s := (s.headPut (p + 56) (toBytes 0 8)).headPut (p + 48) (toBytes 0 8)
      ok (s.setHead head { y with scanseq := 0, relseqNext := none, pseq := 0, shows := 0, record := [], matrix := [] })
    else ok (s.setHead head y)

/-- TIMING_WRITE: takes effect at the next vblank (R433). -/
def execTimingWrite (head : Nat) (value : DWord) (s : State) : Host.Outcome State Fault Refusal :=
  if !s.live || 4 ≤ head then ok s else ok (s.setHead head { s.head head with timingNext := some value })

/-- HEAD_SCAN_DECISION: at vblank less 1.5 ms the head reads SEQ, then PSEQ, and takes a new frame, a re-projection, or a
repeat (R412). [DEDUCED, log 127] -/
def execHeadScanDecision (head : Nat) (s : State) : Host.Outcome State Fault Refusal :=
  let x := s.head head
  if !s.live || 4 ≤ head || !x.hcfg.getLsbD 0 then ok s
  else
    let r := (s.headRead x.present.toNat 64).getD []
    let pose := (s.headRead x.pose.toNat 48).getD []
    let s := (s.headTouch x.present.toNat 64).headTouch x.pose.toNat 48
    let seq := bv (recNum r 32 8)
    let pseq := if pose.isEmpty then x.pseq else bv (recNum pose 40 8)
    if r.length == 64 && x.scanseq < seq && presentOk r then
      let s := s.headPut (x.present.toNat + 56) (toBytes seq.toNat 8)
      ok (s.setHead head { x with scanseq := seq, relseqNext := some x.scanseq, pseq := pseq, shows := 1, record := r })
    else if pseq != x.pseq then
      let record := if r.length == 64 && presentOk r then r else x.record
      ok (s.setHead head { x with pseq := pseq, shows := 2, record := record, matrix := pose.take 36 })
    else ok (s.setHead head { x with shows := 3 })

/-- A head that scans a frame reads its blocks and their metadata. -/
def State.scanFrame (s : State) (x : Head) : State :=
  if x.shows = 0 || x.scanseq = 0 then s
  else
    let n := (recNum x.record 16 2 + 7) / 8 * ((recNum x.record 18 2 + 7) / 8)
    (s.headTouch (recNum x.record 0 8) (256 * n)).headTouch (recNum x.record 8 8) ((n + 1) / 2)

/-- VBLANK: the scan begins; RELSEQ takes the SEQ whose buffers the head no longer reads, and a TIMING that has been written
retrains the link (R412, R433). -/
def execVblank (head : Nat) (s : State) : Host.Outcome State Fault Refusal :=
  let x := s.head head
  if !s.live || 4 ≤ head then ok s
  else
    let s := match x.relseqNext with
      | some q => s.headPut (x.present.toNat + 48) (toBytes q.toNat 8)
      | none => s
    let s := match x.timingNext with
      | some _ => s.boxRecord 1 (unitRecord 5 0 0 s.clock 0)
      | none => s
    ok ((s.scanFrame x).setHead head { x with relseqNext := none, timing := x.timingNext.getD x.timing, timingNext := none })

end Sys2Proof.Machine
end

