-- ==== Sys2Proof/Machine/Clock.lean ====
section
/-! DEFINITION. What happens as the clock advances: the events inside the module that are enabled, each once in a clock; and
what a chosen wave runs. Steps of the host, the driver, the display and the error-correcting units come from the agenda. -/

namespace Sys2Proof.Machine

/-- The state that an event leaves. -/
def State.after (s : State) (o : Host.Outcome State Fault Refusal) : State :=
  match o with
  | .next t => t
  | _ => s

/-- An event for each of a list. -/
def State.each {α : Type} (s : State) (l : List α) (f : α → State → Host.Outcome State Fault Refusal) : State :=
  l.foldl (fun s a => s.after (f a s)) s

/-- Waves by core and slot. -/
def State.waveIds (s : State) (p : Wave → Bool) : List (Nat × Nat) := (s.allWaves.filter p).map fun w => (w.core, w.slot)

/-- Has a core work of its own: copies, logged writes, placement requests? -/
def Core.busy (c : Core) : Bool := !c.bulks.isEmpty || !c.log.isEmpty || !c.requests.isEmpty

/-- Cores on which something can happen. -/
def State.liveCores (s : State) : List Nat :=
  (s.allWaves.filter fun w => !w.idle).foldl (fun l w => sput l w.core) ((s.cores.filter fun c => c.2.busy).map (·.1))

/-! ### The parts of a clock -/

/-- Results of every wave that have become due land (R88). -/
def State.landings (s : State) : State :=
  s.each (s.waveIds fun w => !w.pend.isEmpty) fun x s => ok (landDue (s.focus x.1 x.2))

/-- Homes, moves, replicated pages and the messages between dies. -/
def State.homes (s : State) : State :=
  let s := s.each s.waitWrites execLeaseExpiry
  let s := if s.hostReads.isEmpty then s else s.hostLoads
  let s := s.each (s.moves.map (·.1)) execMoveCopyStep
  let s := s.moveRoutine
  let s := s.each s.replicas fun r s =>
    let s := s.each r.toSend fun d s => execReplicaUpdate d r.line s
    ok (s.each r.acks fun d s => execReplicaAcknowledge d r.line s)
  s.each s.msgs fun m s =>
    match m.kind with
    | .data _ _ => execData m.die m.line s
    | .forward _ _ => execForward m.die m.line s
    | .inv => execInv m.die m.line s
    | .ack => execInvAck m.die m.line s
    | .recall => execRecall m.die m.line s
    | .wbdata _ => execWbdata m.die m.line s

/-- One outstanding instruction performs and completes what it can. -/
def State.workNow (s : State) (core slot : Nat) (o : Outst) : State :=
  match o.eff with
  | .rast _ _ _ _ _ => s.after (execRastComplete core slot o.id s)
  | .rayq _ _ _ _ => s.after (execRayqComplete core slot o.id s)
  | .trans _ _ => (s.after (execTranslationWalk core slot o.id s)).each [()] fun _ s => execCounterCompletion core slot o.id s
  | _ =>
    if o.cls == some 2 then s
    else
      let s := s.after (execGenRefusalRetry core slot o.id s)
      let s := s.after (execCounterCompletion core slot o.id s)
      if o.eff.isWrite && (s.outstAt core slot o.id).isSome then
        s.bump.after (execHostAtomicHelperCas core slot o.id (Config.helperWins s.fresh) s.bump)
      else s

/-- Is an instruction one whose accesses may wait for a later clock: its wave is not alone in having some (R369)? -/
def State.racing (s : State) (core slot : Nat) (o : Outst) : Bool :=
  o.eff.cap.isSome && s.allWaves.any fun w => !w.at_ core slot && w.outst.any fun p => p.eff.cap.isSome

/-- One outstanding instruction, in this clock or a later one: how long an access takes is open. -/
def State.workOn (s : State) (core slot : Nat) (o : Outst) : State :=
  if !s.racing core slot o then s.workNow core slot o
  else if Config.defer s.fresh then s.bump
  else s.bump.workNow core slot o

/-- Outstanding work of waves and of cores. [DESIGN CHOICE, log 51] -/
def State.works (s : State) : State :=
  let s := s.each (s.allWaves.flatMap fun w => w.outst.map fun o => (w.core, w.slot, o)) fun x s => ok (s.workOn x.1 x.2.1 x.2.2)
  let s := s.each (s.waveIds fun w => w.outst.any fun o => o.cls == some 2) fun x s => execCopyBatchComplete x.1 x.2 s
  let cores := s.liveCores
  let s := s.each cores execFunctionDecisionPoint
  let s := s.each cores execMatrixCompletion
  let s := s.each cores fun c s => ok (s.each ((s.core c).bulks.map (·.id)) fun i s => execCpbByteAddition c i s)
  s.each (cores.filter fun c => !(s.core c).log.isEmpty) execSideLogReplay

/-- Barrier route tags whose release is due (R123). -/
def State.barts (s : State) : State :=
  s.each (s.launches.flatMap fun l => l.2.phase.map fun p => (l.1, p.1)) fun x s => execBartRelease x.1 x.2 s

/-- The queues on which waves wait. -/
def State.waitedQueues (s : State) : List DWord :=
  s.allWaves.foldl (fun l w => match w.hold with
    | .enq q _ _ => if l.contains q then l else l ++ [q]
    | .deq q _ _ => if l.contains q then l else l ++ [q]
    | _ => l) []

/-- The queue unit (R40, R41, R47, R59). -/
def State.queuesRun (s : State) : State :=
  let s := (s.lostDue.map (·.1)).foldl (fun s q => s.payLost q) s
  let s := if s.owed.isEmpty then s else s.payOwed
  s.each s.waitedQueues fun q s =>
    let s := s.after (execQueueHeaderRevalidate q s)
    let s := s.each (List.range 4) fun d s => execQueueWaiterServe q d s
    let s := s.after (execQueueCloseWake q s)
    let s := s.each (List.range 4) fun d s => execStealOptimistic q d s
    ok (s.each (List.range 4) fun d s => execStealLocked q d s)

/-- Deferred reports and decided traps (R384, R385). -/
def State.trapsRun (s : State) : State :=
  let s := s.each (s.waveIds fun w => w.trap.isSome && !w.suspended) fun x s => execTrapDelivery x.1 x.2 s
  s.each (s.waveIds fun w => !w.reports.isEmpty && (!w.suspended || (s.group w.core w.gslot).stopping)) fun x s => execDeferredReport x.1 x.2 s

/-- One agent claims; every packet that has not ended is examined (R25, R27). -/
def State.packetsRun (s : State) : State :=
  let s :=
    if s.boot.state == 4 && (List.range 16).any s.streamReady then
      let c := Config.claimer s.fresh % Config.cores
      match s.bump.nextStream c with
      | some st => s.bump.after (execPacketClaim c st s.bump)
      | none => s.bump
    else s
  s.each s.packets fun p s =>
    if p.parked then execParkedPacketReexamine p.stream p.ticket s
    else
      match p.type with
      | 1 => execLaunch p.stream p.ticket s
      | 2 => execWaitv p.stream p.ticket s
      | 3 => execSignal p.stream p.ticket s
      | 4 => execHarvest p.stream p.ticket s
      | 5 => execShootdown p.stream p.ticket s
      | _ => execNopPacket p.stream p.ticket s

/-- Placement, start, pre-emption, the end of waves, groups and launches. -/
def State.launchesRun (s : State) : State :=
  let s := s.each (s.launches.flatMap fun l => (l.2.cmask.filter fun c => !l.2.requested.contains c).map fun c => (c, l.1))
    fun x s => execPlacementRequest x.1 x.2 s
  let s := s.each (s.liveCores.filter fun c => !(s.core c).requests.isEmpty) execPlacementGrant
  let s := s.each (s.suspended.foldl (fun l g => sput l g.core) []) execGroupResume
  let s := s.drainClocks
  let ls := s.launches.map (·.1)
  let s := s.each ls execLaunchStart
  let s := s.each (ls.filter fun l => (s.launch l).drain.isSome) fun l s =>
    execDrainClockPreempt l (s.after (execDrainClockMark l s))
  let s := s.each (ls.filter fun l => (s.launch l).tried.isSome) execPreemptRetry
  let s := (s.cores.filter fun c => !c.2.counted.isEmpty).foldl (fun s c => (s.dropCounted c.1).evictCounted c.1) s
  let gs := s.groups.map fun g => (g.1 / 16, g.1 % 16)
  let s := s.each gs fun x s => execGroupPreempt x.1 x.2 s
  let s := s.each (s.waveIds fun w => w.ended) fun x s => execWaveSlotReturn x.1 x.2 s
  let s := s.each gs fun x s => execGroupFree x.1 x.2 s
  s.each ls execLaunchCompletion

/-- A clock passes: everything inside the module that is enabled happens once, then tokens are granted (R96). [DESIGN CHOICE, log 10] -/
def State.tick (s : State) : State :=
  let s := ({ s with clock := s.clock + 1, turn := 0 } : State)
  let s := s.landings.homes.works.barts.queuesRun.trapsRun.packetsRun.launchesRun
  s.after (execTokenGrant s)

/-! ### Issue -/

/-- The pipe that issues next in this clock: the first from `turn` on that has a wave with work. -/
def State.nextTurn (s : State) : Option Nat :=
  (s.allWaves.filter fun w => !w.idle && w.slot < 64).foldl (fun b w =>
    let n := 4 * w.core + w.slot / 16
    if n < s.turn then b
    else
      match b with
      | none => some n
      | some m => some (min m n)) none

/-- What a chosen wave comes to. -/
inductive Todo where
  /-- It runs this instruction. -/
  | run (s : State) (i : Instr)
  /-- Nothing is left to run: a trap, a fault, a wait. -/
  | done (s : State)

/-- What stands at the PC of the wave in focus (R63, R65, R66, R83). -/
def State.fetchNext (s : State) : Todo :=
  let w := s.wave
  match s.fetch w.core w.pc.toNat with
  | .ok t bs =>
    match decode bs with
    | .ok (i, _) => .run t i
    | .error e =>
      match t.refusal (.error e) with
      | some (code, detail) => .done (t.faultAt code detail w.pc)
      | none => .done t
  | .wait t => .done { t with wave := { t.wave with hold := .unissued } }
  | .absent va => .done (s.holdFault va 1)
  | .trap code detail addr => .done (s.faultAt code detail addr)

/-- The chosen wave: a deferred report comes first (R385); inside a prefix the next repeat or covered instruction (R79, R80,
R129, R130); else what stands at its PC. -/
def State.nextToRun (s : State) : Todo :=
  let s := landDue { s with chosen := false }
  if !s.wave.reports.isEmpty && !s.wave.recovery then .done s.takeReport
  else
    match s.wave.rep, s.wave.pblk with
    | some r, _ =>
      match stepped r.ins r.std r.sta r.stb r.stc r.j with
      | some i => .run s i
      | none => .done (s.faultAt 2 (256 * (r.insAt - s.wave.pc).toNat) r.insAt)
    | none, some p =>
      match p.body with
      | x :: _ => .run s x.2
      | [] => .done s
    | none, none => s.fetchNext

/-- After an instruction of the wave at a core and slot: a grant that it has not used is given back (R101). -/
def State.settleToken (s : State) (core slot : Nat) : State :=
  let w := s.wave
  if w.at_ core slot && w.granted && w.lastIssue == s.clock + 1 then s.withdrawToken else s

end Sys2Proof.Machine
end

