-- ==== Sys2Proof/Machine/Dispatch.lean ====
section
/-! DEFINITION. One arm per constructor of Instr: the direct call of its meaning. -/

namespace Sys2Proof.Machine

/-- The meaning of an instruction, or of an event, at a state. -/
def exec (i : Instr) (s : State) : Host.Outcome State Fault Refusal :=
  match i with
  | .nopK32 f => Sys2Proof.Machine.execNopK32 f s
  | .nopL64 f => Sys2Proof.Machine.execNopL64 f s
  | .smov f => Sys2Proof.Machine.execSmov f s
  | .smoviK32 f => Sys2Proof.Machine.execSmoviK32 f s
  | .smoviL64 f => Sys2Proof.Machine.execSmoviL64 f s
  | .saddK32 f => Sys2Proof.Machine.execSaddK32 f s
  | .saddG64 f => Sys2Proof.Machine.execSaddG64 f s
  | .ssubK32 f => Sys2Proof.Machine.execSsubK32 f s
  | .ssubG64 f => Sys2Proof.Machine.execSsubG64 f s
  | .smulK32 f => Sys2Proof.Machine.execSmulK32 f s
  | .smulG64 f => Sys2Proof.Machine.execSmulG64 f s
  | .smulh f => Sys2Proof.Machine.execSmulh f s
  | .sandK32 f => Sys2Proof.Machine.execSandK32 f s
  | .sandG64 f => Sys2Proof.Machine.execSandG64 f s
  | .sorK32 f => Sys2Proof.Machine.execSorK32 f s
  | .sorG64 f => Sys2Proof.Machine.execSorG64 f s
  | .sxorK32 f => Sys2Proof.Machine.execSxorK32 f s
  | .sxorG64 f => Sys2Proof.Machine.execSxorG64 f s
  | .sshlK32 f => Sys2Proof.Machine.execSshlK32 f s
  | .sshlG64 f => Sys2Proof.Machine.execSshlG64 f s
  | .sshrK32 f => Sys2Proof.Machine.execSshrK32 f s
  | .sshrG64 f => Sys2Proof.Machine.execSshrG64 f s
  | .scmpK32 f => Sys2Proof.Machine.execScmpK32 f s
  | .scmpL64 f => Sys2Proof.Machine.execScmpL64 f s
  | .ssel f => Sys2Proof.Machine.execSsel f s
  | .sminmax f => Sys2Proof.Machine.execSminmax f s
  | .sbfx f => Sys2Proof.Machine.execSbfx f s
  | .braB32 f => Sys2Proof.Machine.execBraB32 f s
  | .braL64 f => Sys2Proof.Machine.execBraL64 f s
  | .brcB32 f => Sys2Proof.Machine.execBrcB32 f s
  | .brcL64 f => Sys2Proof.Machine.execBrcL64 f s
  | .brmB32 f => Sys2Proof.Machine.execBrmB32 f s
  | .brmL64 f => Sys2Proof.Machine.execBrmL64 f s
  | .callB32 f => Sys2Proof.Machine.execCallB32 f s
  | .callL64 f => Sys2Proof.Machine.execCallL64 f s
  | .ret f => Sys2Proof.Machine.execRet f s
  | .jmpi f => Sys2Proof.Machine.execJmpi f s
  | .mlog f => Sys2Proof.Machine.execMlog f s
  | .mmov f => Sys2Proof.Machine.execMmov f s
  | .mcnt f => Sys2Proof.Machine.execMcnt f s
  | .srd f => Sys2Proof.Machine.execSrd f s
  | .swr f => Sys2Proof.Machine.execSwr f s
  | .wait f => Sys2Proof.Machine.execWait f s
  | .bart f => Sys2Proof.Machine.execBart f s
  | .loop f => Sys2Proof.Machine.execLoop f s
  | .exit f => Sys2Proof.Machine.execExit f s
  | .yield f => Sys2Proof.Machine.execYield f s
  | .vaddK32 f => Sys2Proof.Machine.execVaddK32 f s
  | .vaddG64 f => Sys2Proof.Machine.execVaddG64 f s
  | .vaddC16 f => Sys2Proof.Machine.execVaddC16 f s
  | .vsubK32 f => Sys2Proof.Machine.execVsubK32 f s
  | .vsubG64 f => Sys2Proof.Machine.execVsubG64 f s
  | .vsubC16 f => Sys2Proof.Machine.execVsubC16 f s
  | .vmul f => Sys2Proof.Machine.execVmul f s
  | .vmulC16 f => Sys2Proof.Machine.execVmulC16 f s
  | .vmulh f => Sys2Proof.Machine.execVmulh f s
  | .vmad f => Sys2Proof.Machine.execVmad f s
  | .vandK32 f => Sys2Proof.Machine.execVandK32 f s
  | .vandG64 f => Sys2Proof.Machine.execVandG64 f s
  | .vandC16 f => Sys2Proof.Machine.execVandC16 f s
  | .vorK32 f => Sys2Proof.Machine.execVorK32 f s
  | .vorG64 f => Sys2Proof.Machine.execVorG64 f s
  | .vorC16 f => Sys2Proof.Machine.execVorC16 f s
  | .vxorK32 f => Sys2Proof.Machine.execVxorK32 f s
  | .vxorG64 f => Sys2Proof.Machine.execVxorG64 f s
  | .vxorC16 f => Sys2Proof.Machine.execVxorC16 f s
  | .vshl f => Sys2Proof.Machine.execVshl f s
  | .vshlC16 f => Sys2Proof.Machine.execVshlC16 f s
  | .vshr f => Sys2Proof.Machine.execVshr f s
  | .vshrC16 f => Sys2Proof.Machine.execVshrC16 f s
  | .vmin f => Sys2Proof.Machine.execVmin f s
  | .vminC16 f => Sys2Proof.Machine.execVminC16 f s
  | .vmax f => Sys2Proof.Machine.execVmax f s
  | .vmaxC16 f => Sys2Proof.Machine.execVmaxC16 f s
  | .vbfx f => Sys2Proof.Machine.execVbfx f s
  | .vpopc f => Sys2Proof.Machine.execVpopc f s
  | .vsel f => Sys2Proof.Machine.execVsel f s
  | .vcmpiK32 f => Sys2Proof.Machine.execVcmpiK32 f s
  | .vcmpiG64 f => Sys2Proof.Machine.execVcmpiG64 f s
  | .fadd f => Sys2Proof.Machine.execFadd f s
  | .faddC16 f => Sys2Proof.Machine.execFaddC16 f s
  | .fsub f => Sys2Proof.Machine.execFsub f s
  | .fsubC16 f => Sys2Proof.Machine.execFsubC16 f s
  | .fmul f => Sys2Proof.Machine.execFmul f s
  | .fmulC16 f => Sys2Proof.Machine.execFmulC16 f s
  | .ffma f => Sys2Proof.Machine.execFfma f s
  | .fmin f => Sys2Proof.Machine.execFmin f s
  | .fminC16 f => Sys2Proof.Machine.execFminC16 f s
  | .fmax f => Sys2Proof.Machine.execFmax f s
  | .fmaxC16 f => Sys2Proof.Machine.execFmaxC16 f s
  | .fcmp f => Sys2Proof.Machine.execFcmp f s
  | .fclass f => Sys2Proof.Machine.execFclass f s
  | .frnd f => Sys2Proof.Machine.execFrnd f s
  | .fmed3 f => Sys2Proof.Machine.execFmed3 f s
  | .flerp f => Sys2Proof.Machine.execFlerp f s
  | .fdot2 f => Sys2Proof.Machine.execFdot2 f s
  | .fpk f => Sys2Proof.Machine.execFpk f s
  | .hadd2 f => Sys2Proof.Machine.execHadd2 f s
  | .hmul2 f => Sys2Proof.Machine.execHmul2 f s
  | .hfma2 f => Sys2Proof.Machine.execHfma2 f s
  | .cvt f => Sys2Proof.Machine.execCvt f s
  | .cvtq f => Sys2Proof.Machine.execCvtq f s
  | .frcp f => Sys2Proof.Machine.execFrcp f s
  | .frsq f => Sys2Proof.Machine.execFrsq f s
  | .fsqrt f => Sys2Proof.Machine.execFsqrt f s
  | .flog2 f => Sys2Proof.Machine.execFlog2 f s
  | .fexp2 f => Sys2Proof.Machine.execFexp2 f s
  | .fsin f => Sys2Proof.Machine.execFsin f s
  | .fcos f => Sys2Proof.Machine.execFcos f s
  | .ftanh f => Sys2Proof.Machine.execFtanh f s
  | .fdiv f => Sys2Proof.Machine.execFdiv f s
  | .idiv f => Sys2Proof.Machine.execIdiv f s
  | .vrand f => Sys2Proof.Machine.execVrand f s
  | .vsobol f => Sys2Proof.Machine.execVsobol f s
  | .vmoviK32 f => Sys2Proof.Machine.execVmoviK32 f s
  | .vmoviL64 f => Sys2Proof.Machine.execVmoviL64 f s
  | .vmov f => Sys2Proof.Machine.execVmov f s
  | .vmovC16 f => Sys2Proof.Machine.execVmovC16 f s
  | .vmovx f => Sys2Proof.Machine.execVmovx f s
  | .xset f => Sys2Proof.Machine.execXset f s
  | .xbnd f => Sys2Proof.Machine.execXbnd f s
  | .vtrn f => Sys2Proof.Machine.execVtrn f s
  | .vpack f => Sys2Proof.Machine.execVpack f s
  | .vunpk f => Sys2Proof.Machine.execVunpk f s
  | .vbyte f => Sys2Proof.Machine.execVbyte f s
  | .vext f => Sys2Proof.Machine.execVext f s
  | .vins f => Sys2Proof.Machine.execVins f s
  | .vaddc f => Sys2Proof.Machine.execVaddc f s
  | .vsubb f => Sys2Proof.Machine.execVsubb f s
  | .vmul64 f => Sys2Proof.Machine.execVmul64 f s
  | .vshl64 f => Sys2Proof.Machine.execVshl64 f s
  | .vshr64 f => Sys2Proof.Machine.execVshr64 f s
  | .vcmp64 f => Sys2Proof.Machine.execVcmp64 f s
  | .vabsd f => Sys2Proof.Machine.execVabsd f s
  | .shfl f => Sys2Proof.Machine.execShfl f s
  | .vote f => Sys2Proof.Machine.execVote f s
  | .ballot f => Sys2Proof.Machine.execBallot f s
  | .matchLanes f => Sys2Proof.Machine.execMatchLanes f s
  | .red f => Sys2Proof.Machine.execRed f s
  | .scan f => Sys2Proof.Machine.execScan f s
  | .fred f => Sys2Proof.Machine.execFred f s
  | .bcast f => Sys2Proof.Machine.execBcast f s
  | .qswz f => Sys2Proof.Machine.execQswz f s
  | .vcompact f => Sys2Proof.Machine.execVcompact f s
  | .laclr f => Sys2Proof.Machine.execLaclr f s
  | .laadd f => Sys2Proof.Machine.execLaadd f s
  | .lafma f => Sys2Proof.Machine.execLafma f s
  | .lard f => Sys2Proof.Machine.execLard f s
  | .lasave f => Sys2Proof.Machine.execLasave f s
  | .larst f => Sys2Proof.Machine.execLarst f s
  | .fndef f => Sys2Proof.Machine.execFndef f s
  | .fnfree f => Sys2Proof.Machine.execFnfree f s
  | .fnfit f => Sys2Proof.Machine.execFnfit f s
  | .fnld f => Sys2Proof.Machine.execFnld f s
  | .fnst f => Sys2Proof.Machine.execFnst f s
  | .fnadd f => Sys2Proof.Machine.execFnadd f s
  | .fnmul f => Sys2Proof.Machine.execFnmul f s
  | .fnscl f => Sys2Proof.Machine.execFnscl f s
  | .fncomp f => Sys2Proof.Machine.execFncomp f s
  | .fnint f => Sys2Proof.Machine.execFnint f s
  | .fnder f => Sys2Proof.Machine.execFnder f s
  | .fneval f => Sys2Proof.Machine.execFneval f s
  | .fnroot f => Sys2Proof.Machine.execFnroot f s
  | .fnext f => Sys2Proof.Machine.execFnext f s
  | .fnrestr f => Sys2Proof.Machine.execFnrestr f s
  | .fncoef f => Sys2Proof.Machine.execFncoef f s
  | .ld f => Sys2Proof.Machine.execLd f s
  | .st f => Sys2Proof.Machine.execSt f s
  | .lds f => Sys2Proof.Machine.execLds f s
  | .sts f => Sys2Proof.Machine.execSts f s
  | .ldk f => Sys2Proof.Machine.execLdk f s
  | .atom f => Sys2Proof.Machine.execAtom f s
  | .atomn f => Sys2Proof.Machine.execAtomn f s
  | .atoms f => Sys2Proof.Machine.execAtoms f s
  | .cas f => Sys2Proof.Machine.execCas f s
  | .fence f => Sys2Proof.Machine.execFence f s
  | .trans f => Sys2Proof.Machine.execTrans f s
  | .trinv f => Sys2Proof.Machine.execTrinv f s
  | .pref f => Sys2Proof.Machine.execPref f s
  | .cache f => Sys2Proof.Machine.execCache f s
  | .cpa f => Sys2Proof.Machine.execCpa f s
  | .cpcommit f => Sys2Proof.Machine.execCpcommit f s
  | .cpb f => Sys2Proof.Machine.execCpb f s
  | .cpr f => Sys2Proof.Machine.execCpr f s
  | .cpsm f => Sys2Proof.Machine.execCpsm f s
  | .cwprd f => Sys2Proof.Machine.execCwprd f s
  | .binit f => Sys2Proof.Machine.execBinit f s
  | .barr f => Sys2Proof.Machine.execBarr f s
  | .bwait f => Sys2Proof.Machine.execBwait f s
  | .bexp f => Sys2Proof.Machine.execBexp f s
  | .seal f => Sys2Proof.Machine.execSeal f s
  | .unseal f => Sys2Proof.Machine.execUnseal f s
  | .worel f => Sys2Proof.Machine.execWorel f s
  | .smap f => Sys2Proof.Machine.execSmap f s
  | .sunmap f => Sys2Proof.Machine.execSunmap f s
  | .enq f => Sys2Proof.Machine.execEnq f s
  | .deq f => Sys2Proof.Machine.execDeq f s
  | .fetchw f => Sys2Proof.Machine.execFetchw f s
  | .tcfg f => Sys2Proof.Machine.execTcfg f s
  | .tld f => Sys2Proof.Machine.execTld f s
  | .tst f => Sys2Proof.Machine.execTst f s
  | .tzero f => Sys2Proof.Machine.execTzero f s
  | .tmovv f => Sys2Proof.Machine.execTmovv f s
  | .vmovt f => Sys2Proof.Machine.execVmovt f s
  | .mma f => Sys2Proof.Machine.execMma f s
  | .mmas f => Sys2Proof.Machine.execMmas f s
  | .mmat f => Sys2Proof.Machine.execMmat f s
  | .mmax f => Sys2Proof.Machine.execMmax f s
  | .accld f => Sys2Proof.Machine.execAccld f s
  | .accst f => Sys2Proof.Machine.execAccst f s
  | .accq f => Sys2Proof.Machine.execAccq f s
  | .ttrl f => Sys2Proof.Machine.execTtrl f s
  | .tscl f => Sys2Proof.Machine.execTscl f s
  | .txp f => Sys2Proof.Machine.execTxp f s
  | .dice f => Sys2Proof.Machine.execDice f s
  | .gridacq f => Sys2Proof.Machine.execGridacq f s
  | .gridrel f => Sys2Proof.Machine.execGridrel f s
  | .rast f => Sys2Proof.Machine.execRast f s
  | .rayq f => Sys2Proof.Machine.execRayq f s
  | .rayrd f => Sys2Proof.Machine.execRayrd f s
  | .bkt f => Sys2Proof.Machine.execBkt f s
  | .spill f => Sys2Proof.Machine.execSpill f s
  | .rep f => Sys2Proof.Machine.execRep f s
  | .pblk f => Sys2Proof.Machine.execPblk f s
  | .trap f => Sys2Proof.Machine.execTrap f s
  | .rte f => Sys2Proof.Machine.execRte f s
  | .prd f => Sys2Proof.Machine.execPrd f s
  | .pwr f => Sys2Proof.Machine.execPwr f s
  | .bkpt f => Sys2Proof.Machine.execBkpt f s
  | .logev f => Sys2Proof.Machine.execLogev f s
  | .pipeIssue core pipe => Sys2Proof.Machine.execPipeIssue core pipe s
  | .wavePromote core slot => Sys2Proof.Machine.execWavePromote core slot s
  | .distElapsed core slot => Sys2Proof.Machine.execDistElapsed core slot s
  | .tokenGrant => Sys2Proof.Machine.execTokenGrant s
  | .counterCompletion core slot id => Sys2Proof.Machine.execCounterCompletion core slot id s
  | .functionDecisionPoint core => Sys2Proof.Machine.execFunctionDecisionPoint core s
  | .matrixCompletion core => Sys2Proof.Machine.execMatrixCompletion core s
  | .bartRelease launch tag => Sys2Proof.Machine.execBartRelease launch tag s
  | .yieldExpiry core slot => Sys2Proof.Machine.execYieldExpiry core slot s
  | .copyBatchComplete core slot => Sys2Proof.Machine.execCopyBatchComplete core slot s
  | .cpbByteAddition core id => Sys2Proof.Machine.execCpbByteAddition core id s
  | .rastComplete core slot id => Sys2Proof.Machine.execRastComplete core slot id s
  | .rayqComplete core slot id => Sys2Proof.Machine.execRayqComplete core slot id s
  | .nopPacket stream ticket => Sys2Proof.Machine.execNopPacket stream ticket s
  | .launch stream ticket => Sys2Proof.Machine.execLaunch stream ticket s
  | .waitv stream ticket => Sys2Proof.Machine.execWaitv stream ticket s
  | .signal stream ticket => Sys2Proof.Machine.execSignal stream ticket s
  | .harvest stream ticket => Sys2Proof.Machine.execHarvest stream ticket s
  | .shootdown stream ticket => Sys2Proof.Machine.execShootdown stream ticket s
  | .packetClaim core stream => Sys2Proof.Machine.execPacketClaim core stream s
  | .parkedPacketReexamine stream ticket => Sys2Proof.Machine.execParkedPacketReexamine stream ticket s
  | .parkRecheckTimer stream ticket => Sys2Proof.Machine.execParkRecheckTimer stream ticket s
  | .placementRequest core launch => Sys2Proof.Machine.execPlacementRequest core launch s
  | .placementGrant core => Sys2Proof.Machine.execPlacementGrant core s
  | .launchStart launch => Sys2Proof.Machine.execLaunchStart launch s
  | .launchCompletion launch => Sys2Proof.Machine.execLaunchCompletion launch s
  | .drainClockMark launch => Sys2Proof.Machine.execDrainClockMark launch s
  | .drainClockPreempt launch => Sys2Proof.Machine.execDrainClockPreempt launch s
  | .preemptRetry launch => Sys2Proof.Machine.execPreemptRetry launch s
  | .groupPreempt core gslot => Sys2Proof.Machine.execGroupPreempt core gslot s
  | .groupResume core => Sys2Proof.Machine.execGroupResume core s
  | .waveSlotReturn core slot => Sys2Proof.Machine.execWaveSlotReturn core slot s
  | .groupFree core gslot => Sys2Proof.Machine.execGroupFree core gslot s
  | .bucketFill queue shard tail => Sys2Proof.Machine.execBucketFill queue shard tail s
  | .queueCloseWake queue => Sys2Proof.Machine.execQueueCloseWake queue s
  | .queueHeaderRevalidate queue => Sys2Proof.Machine.execQueueHeaderRevalidate queue s
  | .queueWaiterServe queue shard => Sys2Proof.Machine.execQueueWaiterServe queue shard s
  | .stealOptimistic queue die => Sys2Proof.Machine.execStealOptimistic queue die s
  | .stealLocked queue die => Sys2Proof.Machine.execStealLocked queue die s
  | .evconsWrite value => Sys2Proof.Machine.execEvconsWrite value s
  | .leaseExpiry line => Sys2Proof.Machine.execLeaseExpiry line s
  | .reqs die line => Sys2Proof.Machine.execReqs die line s
  | .reqm die line => Sys2Proof.Machine.execReqm die line s
  | .data die line => Sys2Proof.Machine.execData die line s
  | .forward die line => Sys2Proof.Machine.execForward die line s
  | .inv die line => Sys2Proof.Machine.execInv die line s
  | .invAck die line => Sys2Proof.Machine.execInvAck die line s
  | .recall die line => Sys2Proof.Machine.execRecall die line s
  | .cleanEvict die line => Sys2Proof.Machine.execCleanEvict die line s
  | .wbdata die line => Sys2Proof.Machine.execWbdata die line s
  | .snoopFilterEviction line => Sys2Proof.Machine.execSnoopFilterEviction line s
  | .snpinv half => Sys2Proof.Machine.execSnpinv half s
  | .snpdata half => Sys2Proof.Machine.execSnpdata half s
  | .birsp line half => Sys2Proof.Machine.execBirsp line half s
  | .hostAtomicHelperCas core slot id success => Sys2Proof.Machine.execHostAtomicHelperCas core slot id success s
  | .hostAccess addr write bytes => Sys2Proof.Machine.execHostAccess addr write bytes s
  | .translationWalk core slot id => Sys2Proof.Machine.execTranslationWalk core slot id s
  | .sideLogReplay core => Sys2Proof.Machine.execSideLogReplay core s
  | .genRefusalRetry core slot id => Sys2Proof.Machine.execGenRefusalRetry core slot id s
  | .moveCopyStep entry => Sys2Proof.Machine.execMoveCopyStep entry s
  | .frespMapped tag => Sys2Proof.Machine.execFrespMapped tag s
  | .frespDeclined tag => Sys2Proof.Machine.execFrespDeclined tag s
  | .fltconsWrite value => Sys2Proof.Machine.execFltconsWrite value s
  | .fpcmdRead => Sys2Proof.Machine.execFpcmdRead s
  | .fpcmdWrite => Sys2Proof.Machine.execFpcmdWrite s
  | .mvdoorStart => Sys2Proof.Machine.execMvdoorStart s
  | .mvdoorEnd => Sys2Proof.Machine.execMvdoorEnd s
  | .ctrlGo => Sys2Proof.Machine.execCtrlGo s
  | .ctrlCommit => Sys2Proof.Machine.execCtrlCommit s
  | .ctrlWarmrst => Sys2Proof.Machine.execCtrlWarmrst s
  | .plimitWrite value => Sys2Proof.Machine.execPlimitWrite value s
  | .powerThrottle watts => Sys2Proof.Machine.execPowerThrottle watts s
  | .powerRecover watts => Sys2Proof.Machine.execPowerRecover watts s
  | .hcfgWrite head value => Sys2Proof.Machine.execHcfgWrite head value s
  | .timingWrite head value => Sys2Proof.Machine.execTimingWrite head value s
  | .registerWrite offset value => Sys2Proof.Machine.execRegisterWrite offset value s
  | .headScanDecision head => Sys2Proof.Machine.execHeadScanDecision head s
  | .vblank head => Sys2Proof.Machine.execVblank head s
  | .perstDeassert => Sys2Proof.Machine.execPerstDeassert s
  | .recoveryBoot => Sys2Proof.Machine.execRecoveryBoot s
  | .recoveryProgram => Sys2Proof.Machine.execRecoveryProgram s
  | .recoveryBootslot => Sys2Proof.Machine.execRecoveryBootslot s
  | .scrub die place unit uncorrectable => Sys2Proof.Machine.execScrub die place unit uncorrectable s
  | .deferredReport core slot => Sys2Proof.Machine.execDeferredReport core slot s
  | .trapDelivery core slot => Sys2Proof.Machine.execTrapDelivery core slot s
  | .replicaUpdate die line => Sys2Proof.Machine.execReplicaUpdate die line s
  | .replicaAcknowledge die line => Sys2Proof.Machine.execReplicaAcknowledge die line s
  | .cxlCacheResponse half => Sys2Proof.Machine.execCxlCacheResponse half s

end Sys2Proof.Machine
end

