-- ==== Sys2Proof/Machine/Held.lean ====
section
/-! DEFINITION. Held instructions between issues: those that have issued go on in each clock (R88, R89, R384), and those whose
conditions of issue do not hold are looked at again (R99). Neither takes a clock of a pipe. -/

namespace Sys2Proof.Machine

/-- Waves inside a held instruction that goes on by itself, in issue order. -/
def State.heldWaves (s : State) : List (Nat × Nat) :=
  (sortBy (fun (w : Wave) => (w.held.map Held.since).getD 0)
    (s.allWaves.filter fun w => w.held.isSome && w.hold.goesOn && !w.ended)).map fun w => (w.core, w.slot)

/-- The held instruction of a wave goes on. [DESIGN CHOICE, log 154] -/
def State.goOn (s : State) (core slot : Nat) : State :=
  let t := s.focus core slot
  match t.wave.held with
  | some h => if t.wave.at_ core slot && t.wave.hold.goesOn then t.after (exec h.ins t) else s
  | none => s

/-- Would the instruction at which the wave in focus stands still not issue? What it would do is tried and not kept. -/
def State.notYet (s : State) : Bool :=
  match State.nextToRun { s with wave := { s.wave with hold := .none } } with
  | .done t => t.wave.hold == .unissued
  | .run t i => (t.after (exec i t)).wave.hold == .unissued

/-- A wave whose instruction could not issue is Ready again once it can. -/
def State.lookAgain (s : State) (core slot : Nat) : State :=
  let t := s.focus core slot
  if !t.wave.at_ core slot || t.wave.hold != .unissued || t.notYet then s
  else { t with wave := { t.wave with hold := .none } }

/-- Held instructions go on, and those that wait to issue are looked at again. -/
def State.heldRun (s : State) : State :=
  let s := s.heldWaves.foldl (fun s p => s.goOn p.1 p.2) s
  (s.waveIds fun w => w.hold == .unissued && !w.ended && !w.suspended && w.trap.isNone).foldl (fun s p => s.lookAgain p.1 p.2) s

end Sys2Proof.Machine
end

