-- ==== Sys2Proof/Machine/Step.lean ====
section
/-! DEFINITION. One step of the module, and how an instruction is put where the next step runs it. -/

namespace Sys2Proof.Machine

/-- The step of the module. A chosen wave runs its instruction (R100), unless its fetch would walk from a reserved address;
else the oldest step of an outside agent happens;
else the next pipe of this clock issues; when every pipe has, the clock passes, and held instructions go on. [DESIGN CHOICE, log 11] -/
def step (s : State) : Host.Outcome State Fault Refusal :=
  if s.chosen then
    if s.rootReserved then .fault (.reservedAddress s.mgmt.ptroot.toNat)
    else
    match s.nextToRun with
    | .done t => .next t
    | .run t i =>
      match exec i t with
      | .next u => .next (u.settleToken t.wave.core t.wave.slot)
      | .fault r => .fault r
      | .refused r => .refused r
  else
    match s.agenda with
    | e :: l => exec e { s with agenda := l }
    | [] =>
      match s.nextTurn with
      | some n => exec (.pipeIssue (n / 4) (n % 4)) { s with turn := n + 1 }
      | none => .next s.tick.heldRun

/-- The state in which the wave in focus has been chosen and stands at an instruction of `nbits` bits `w`, the bits above
being 0: at virtual address 0x100, in a page of 256 MiB that starts at frame 0 of die 0, with page tables in host memory and
on die 1. It stands for the loading of a program from outside. [DESIGN CHOICE, log 7] -/
def State.withFetchWord (s : State) (nbits w : Nat) : State :=
  let root := 2 ^ 51
  let level3 := 2 ^ 36 + 0x1000
  let level2 := 2 ^ 36 + 0x2000
  let leaf := 2 ^ 96 * 0xFF01 + 0x53
  let put (m : Cells 8) (key x : Nat) : Cells 8 := csetList m key (toBytes x 16)
  let mem := put s.mem root (level3 + 1)
  let mem := put mem (store level3 (tpw 1) 0).key (level2 + 1)
  let mem := put mem (store level2 (tpw 1) 0).key leaf
  let mem := csetList mem (store 0 0xFF01 0x100).key (toBytes (w % 2 ^ nbits) 16)
  let wave := s.wave
  let core := s.core wave.core
  let die := s.die (dieOf wave.core)
  let cores := tset (s.cores.map fun c => (c.1, { c.2 with smap := [] })) wave.core { core with tlb := [], icacheUnits := [], smap := [] }
  let frames := [0, level3 / 4096, level2 / 4096].foldl (fun c f => cset c f 0) s.frames
  { s with
    mem := mem, frames := frames, moves := [], dir := [], copies := [], msgs := [], cores := cores, chosen := true,
    dies := tset s.dies (dieOf wave.core) { die with tlb := [], walk := [] }, mgmt := { s.mgmt with ptroot := bv root },
    wave := { wave with
      idle := false, ended := false, suspended := false, pc := 0x100, rep := none, pblk := none, resume := .none, hold := .none,
      held := none, trap := none, reports := [], pend := [] } }

end Sys2Proof.Machine
end

