-- ==== Sys2Proof/Safety.lean ====
section
/-! DEFINITION. What counts as a safe run: every step answers a next state. The canonical form of the memory, in which equal
memories are equal data. -/

namespace Sys2Proof

/-- A step answers a next state: no fault, no refusal. -/
def Safe (s : Machine.State) : Prop := ∃ t, Machine.step s = .next t

/-- The state after `n` steps, where all of them answer one. -/
def stateAfter : Nat → Machine.State → Option Machine.State
  | 0, s => some s
  | n + 1, s =>
    match Machine.step s with
    | .next t => stateAfter n t
    | _ => none

/-- A run of `n` steps is safe. -/
def SafeRun (n : Nat) (s : Machine.State) : Prop := (stateAfter n s).isSome = true

/-- The memory is in its one form: addresses rising, and no listed byte equal to what an unlisted address reads as (zero). -/
def Machine.Memory.wf (m : List Host.Cell) : Bool := Machine.cellsWf m

end Sys2Proof
end

