-- ==== Sys2Proof/Certificates/Slice0/Obligations.lean ====
section
/-! DEFINITION. The statements for the provers. Most give the next state of an instruction whole, as a record update of
the state before: what the update does not name (every other register, special register, accumulator, and every byte
of storage) is unchanged, so each is its instruction's frame as well. -/

namespace Sys2Proof.Claims

open Sys2Proof.Machine

/-! ### What the statements are said in -/

/-- The wave in focus can issue `i`: no instruction that has issued holds it (R88), it passes checks 2 to 6 of R83, no counter that
`i` raises stands at 63 (R92), if a PBLK covers it, a lane is active (R80), and its vector and function registers are sound (R253). -/
def Ready (i : Instr) (s : State) : Prop :=
  s.wave.held = none ∧ s.wave.hold = .none ∧ s.check i = none ∧ (s.wave.pblk.isSome = true → s.wave.act ≠ 0) ∧
    (s.wave.countersFull (classOf (insOp i)) (insCf i) || s.wave.commitFull i) = false ∧ s.wave.vbad = []

/-- The state in which an instruction of `len` bytes has retired, with the wave in focus otherwise `w`. -/
def after (s : State) (len : Nat) (w : Wave) : State := { s with wave := w.advance len s.clock }

/-- `t`, in which the instruction `i`, issued in `s`, holds its wave: the wave keeps what `i` has read (R88, R89). -/
def heldAt (s : State) (i : Instr) (t : State) : State :=
  let w := s.wave
  let h : Held := { ins := i, since := s.fresh, em := w.em, scc := w.scc, m := w.m, s := w.s, v := w.v, tr := t.wave.tr }
  { t with fresh := t.fresh + 1, wave := { t.wave with held := some h, lastIssue := s.clock + 1 } }

/-- The wave in focus with results that land `n` clocks after this one. -/
def landing (s : State) (n : Nat) (xs : List WaveWrite) : Wave :=
  { s.wave with pend := xs.foldl (fun l x => postAt l (s.clock + n) x) s.wave.pend }

/-- A result of the scalar path: one scalar, or an even pair. -/
def scalar (d : BitVec 8) (wide : Bool) (x : DWord) : List WaveWrite :=
  if wide then [.sreg d.toNat (x.setWidth 32), .sreg (d.toNat + 1) ((x >>> 32).setWidth 32)]
  else [.sreg d.toNat (x.setWidth 32)]

/-- A 32-bit or 64-bit scalar operand, as 64 bits. -/
def operand (w : Wave) (wide : Bool) (f : BitVec 8) : DWord := if wide then w.sop64 f else (w.sop f).setWidth 64

/-- Vector register `d` takes `g L` in each active lane `L`. -/
def vector (w : Wave) (d : Nat) (g : Nat → Word) : WaveWrite := .vreg d w.act (w.perLane g)

/-- Vector registers `d` and `d + 1` take the halves of `g L` in each active lane. -/
def vector64 (w : Wave) (d : Nat) (g : Nat → DWord) : List WaveWrite :=
  [vector w d fun L => (g L).setWidth 32, vector w (d + 1) fun L => (g L >>> 32).setWidth 32]

/-- Mask `d` takes `g L` in each active lane `L`. -/
def maskLanes (w : Wave) (d : Nat) (g : Nat → Bool) : WaveWrite := .mask d w.act (lanesOf g)

/-- The comparisons of integers by number: eq, ne, lt, le, ltu, leu, gt, ge. -/
def compare {n : Nat} (p : Nat) (a b : BitVec n) : Bool :=
  match p with
  | 0 => a == b
  | 1 => a != b
  | 2 => a.slt b
  | 3 => a.sle b
  | 4 => a.ult b
  | 5 => a.ule b
  | 6 => b.slt a
  | _ => b.sle a

/-- No lane's index register reaches its bound, where operand A goes through one (R132). -/
def IndexOk (w : Wave) (f : G64) : Prop := f.xe = true → w.xFail f.xi.toNat = none

/-- The clocks after which results of the vector class land (R88). -/
def vlat (w : Wave) : Nat := if w.width = 64 then 5 else 4

end Sys2Proof.Claims

section

open Sys2Proof Sys2Proof.Machine Sys2Proof.Claims

/-! ### The scalar path (R103 to R109) -/

/-- R108: each scalar instruction with an 11-bit immediate replaces s[D] by its operation on s[D] and the immediate, sign-extended,
2 clocks later, and nothing else changes but the place of the wave. -/
def Sys2Proof.Claims.ScalarImmediateResults : Prop := ∀ (s : State) (f : K32),
  let a := s.wave.sreg f.d.toNat
  let b : Word := f.imm.signExtend 32
  let n := (f.imm.extractLsb' 0 5).toNat
  ∀ p ∈ ([(.smoviK32 f, b), (.saddK32 f, a + b), (.ssubK32 f, a - b), (.smulK32 f, a * b), (.sandK32 f, a &&& b),
      (.sorK32 f, a ||| b), (.sxorK32 f, a ^^^ b), (.sshlK32 f, a <<< n),
      (.sshrK32 f, if f.imm.getLsbD 5 then a.sshiftRight n else a >>> n)] : List (Instr × Word)),
    Ready p.1 s → exec p.1 s = .next (after s 4 (landing s 2 [.sreg f.d.toNat p.2]))

/-- R108: NOP changes nothing but the place of the wave; the long SMOVI writes its immediate, or the immediate
sign-extended to a pair. -/
def Sys2Proof.Claims.NopAndLongImmediate : Prop :=
  (∀ (s : State) (f : K32), Ready (.nopK32 f) s → exec (.nopK32 f) s = .next (after s 4 s.wave)) ∧
  (∀ (s : State) (f : L64), Ready (.nopL64 f) s → exec (.nopL64 f) s = .next (after s 8 s.wave)) ∧
  ∀ (s : State) (f : L64), Ready (.smoviL64 f) s →
    exec (.smoviL64 f) s = .next (after s 8 (landing s 2 (scalar f.d (f.sub7.getLsbD 0) (f.imm.signExtend 64))))

/-- R107: sums and differences of the scalar path, of 32 or 64 bits; SUB 1 and 2 write the carry or borrow to scc, SUB 2 takes
one from it. -/
def Sys2Proof.Claims.ScalarSums : Prop := ∀ (s : State) (f : G64),
  let w := s.wave
  let wide := f.mod.getLsbD 0
  let a := operand w wide f.a
  let b := operand w wide f.b
  let c : Nat := if f.sub = 2 ∧ w.scc = true then 1 else 0
  let size : Nat := if wide then 64 else 32
  let flag (x : Bool) : List WaveWrite := if f.sub = 0 then [] else [.scc x]
  (Ready (.saddG64 f) s → exec (.saddG64 f) s = .next (after s 8 (landing s 2
      (scalar f.d wide (a + b + BitVec.ofNat 64 c) ++ flag (decide (2 ^ size ≤ a.toNat + b.toNat + c)))))) ∧
  (Ready (.ssubG64 f) s → exec (.ssubG64 f) s = .next (after s 8 (landing s 2
      (scalar f.d wide (a - b - BitVec.ofNat 64 c) ++ flag (decide (a.toNat < b.toNat + c))))))

/-- R107: the other scalar operations on operands of 32 or 64 bits. A shift amount is a 32-bit operand, and an amount of
the width or more gives 0, or the sign in every bit. -/
def Sys2Proof.Claims.ScalarOperations : Prop := ∀ (s : State) (f : G64),
  let w := s.wave
  let wide := f.mod.getLsbD 0
  let a := operand w wide f.a
  let b := operand w wide f.b
  let n := (w.sop f.b).toNat
  let less : Bool := if f.sub.toNat ≤ 1 then (if wide then a.sle b else (w.sop f.a).sle (w.sop f.b)) else a.ule b
  ∀ p ∈ ([(.smov f, a), (.sandG64 f, a &&& b), (.sorG64 f, a ||| b), (.sxorG64 f, a ^^^ b), (.smulG64 f, a * b),
      (.sshlG64 f, a <<< n),
      (.sshrG64 f,
        if f.sub = 1 then (if wide then a.sshiftRight n else ((w.sop f.a).sshiftRight n).setWidth 64) else a >>> n),
      (.ssel f, if w.scc then a else b),
      (.sminmax f, if less = f.sub.getLsbD 0 then b else a)] : List (Instr × DWord)),
    Ready p.1 s → exec p.1 s = .next (after s 8 (landing s 2 (scalar f.d wide p.2)))

/-- R107: SMULH gives the high half of the signed (SUB 0) or unsigned product; SBFX a field of 32-bit operand A, from bit b, of c
bits as far as the word goes, extended with zeros or (SUB 1) with its highest bit. -/
def Sys2Proof.Claims.ScalarHighProductAndField : Prop := ∀ (s : State) (f : G64),
  let w := s.wave
  let a := w.sop f.a
  let b := w.sop f.b
  let pos := b.toNat % 32
  let wid := min ((w.sop f.c).toNat % 64) (32 - pos)
  let high : DWord := if f.sub = 0 then a.signExtend 64 * b.signExtend 64 else a.setWidth 64 * b.setWidth 64
  let field := a.extractLsb' pos wid
  (Ready (.smulh f) s → exec (.smulh f) s = .next (after s 8 (landing s 2 [.sreg f.d.toNat ((high >>> 32).setWidth 32)]))) ∧
  (Ready (.sbfx f) s → exec (.sbfx f) s = .next (after s 8 (landing s 2
    [.sreg f.d.toNat (if f.sub = 1 then field.signExtend 32 else field.setWidth 32)])))

/-- R73, R107, R108: SCMP writes one comparison, of 32 or 64 bits, to scc, and nothing else. -/
def Obligations.ScalarCompares : Prop :=
  (∀ (s : State) (f : K32), Ready (.scmpK32 f) s →
    exec (.scmpK32 f) s = .next (after s 4 (landing s 2 [.scc
      (let y : BitVec 8 := (f.imm.extractLsb' 0 6).setWidth 8
       let p := (f.imm.extractLsb' 7 3).toNat
       if f.imm.getLsbD 6 then compare p (s.wave.sop64 f.d) (s.wave.sop64 y) else compare p (s.wave.sop f.d) (s.wave.sop y))]))) ∧
  (∀ (s : State) (f : L64), Ready (.scmpL64 f) s →
    exec (.scmpL64 f) s = .next (after s 8 (landing s 2 [.scc
      (let p := (f.sub7.extractLsb' 0 3).toNat
       if f.sub7.getLsbD 3 then compare p (s.wave.sop64 f.d) (f.imm.signExtend 64) else compare p (s.wave.sop f.d) f.imm)])))

/-- R69, R104: a scalar field of 128 to 255 is the constant of its low seven bits; below 64 it names a register, and as
a 64-bit operand the pair that starts there, low word first. -/
def Sys2Proof.Claims.ScalarOperandForms : Prop := ∀ (w : Wave) (f : BitVec 8),
  (128 ≤ f.toNat → w.sop f = BitVec.ofNat 32 (f.toNat - 128) ∧ w.sop64 f = BitVec.ofNat 64 (f.toNat - 128)) ∧
  (f.toNat < 128 → w.sop f = w.sreg f.toNat ∧ w.sop64 f = w.sreg (f.toNat + 1) ++ w.sreg f.toNat) ∧
  (∀ k : BitVec 8, 128 ≤ k.toNat → ∀ x : Word, (w.setS k.toNat x).sop f = w.sop f)

/-! ### Control transfer, masks, special registers, waiting, prefixes (R79, R80, R94, R110 to R130) -/

/-- The wave in focus has gone to `target` (R63, R87, R111): nothing issues for two clocks more. -/
def Sys2Proof.Claims.gone (s : State) (w : Wave) (target : DWord) : State :=
  { s with wave := { w with pc := target, lastIssue := s.clock + 1, notBefore := s.clock + 3, resume := .none, dropped := [] } }

/-- A target that passes the checks of R111. -/
def Sys2Proof.Claims.Reachable (target : DWord) : Prop := target.getLsbD 0 = false ∧ target.toNat < 2 ^ 52

/-- The branches of a wave: instruction, condition, target. -/
def Sys2Proof.Claims.branches (s : State) (b : B32) (l : L64) (k : K32) : List (Instr × Bool × DWord) :=
  let w := s.wave
  let dest {n : Nat} (off : BitVec n) : DWord := w.pc + 2 * off.signExtend 64
  let mask (m c : Nat) : Bool :=
    let lanes := if m = 0 then w.live else w.em
    let x := if m = 0 then w.em else w.mask m
    match c with
    | 0 => lanes &&& x == 0
    | 1 => lanes &&& x != 0
    | 2 => lanes &&& x == lanes
    | _ => lanes &&& x != lanes
  [(.braB32 b, true, dest b.off), (.braL64 l, true, dest l.imm),
   (.brcB32 b, w.scc == b.off.getLsbD 0, dest (b.off.extractLsb' 1 18)),
   (.brcL64 l, w.scc == l.sub7.getLsbD 0, dest l.imm),
   (.brmB32 b, mask (b.off.extractLsb' 2 4).toNat (b.off.extractLsb' 0 2).toNat, dest (b.off.extractLsb' 6 13)),
   (.brmL64 l, mask l.d.toNat (l.sub7.extractLsb' 0 2).toNat, dest l.imm),
   (.ret k, true, w.spair k.d.toNat), (.jmpi k, true, w.spair k.d.toNat + 2 * k.imm.signExtend 64)]

/-- R110 to R112: a branch whose condition holds goes to its target and changes nothing else; one whose condition does not hold
goes on to the next instruction, whatever its target is. -/
def Sys2Proof.Claims.BranchesGoToTheirTarget : Prop := ∀ (s : State) (b : B32) (l : L64) (k : K32),
  ∀ p ∈ branches s b l k, Ready p.1 s →
    (p.2.1 = true → Reachable p.2.2 → exec p.1 s = .next (gone s s.wave p.2.2)) ∧
    (p.2.1 = false → exec p.1 s = .next (after s (insLen p.1) s.wave))

/-- R111: a taken transfer to an odd address raises MISALIGNED (code 5), one to an address of 2^52 or above raises PROTECTION with
detail 4; both log the target, and the frame records the branch. -/
def Sys2Proof.Claims.BranchTargetTraps : Prop := ∀ (s : State) (b : B32) (l : L64) (k : K32),
  ∀ p ∈ branches s b l k, Ready p.1 s → p.2.1 = true →
    (p.2.2.getLsbD 0 = true → exec p.1 s = .next (s.faultAt 5 0 p.2.2)) ∧
    (p.2.2.getLsbD 0 = false → 2 ^ 52 ≤ p.2.2.toNat → exec p.1 s = .next (s.faultAt 8 4 p.2.2))

/-- R110, R112: CALL puts the address of the next instruction into s62:s63 and goes to its target. -/
def Sys2Proof.Claims.CallsLinkAndGo : Prop := ∀ (s : State) (b : B32) (l : L64),
  ∀ p ∈ ([(.callB32 b, s.wave.pc + 2 * b.off.signExtend 64, s.wave.pc + 4),
      (.callL64 l, s.wave.pc + 2 * l.imm.signExtend 64, s.wave.pc + 8)] : List (Instr × DWord × DWord)),
    Ready p.1 s → Reachable p.2.1 →
      exec p.1 s = .next (gone s ((s.wave.setS 62 (p.2.2.setWidth 32)).setS 63 ((p.2.2 >>> 32).setWidth 32)) p.2.1)

/-- R113: LOOP takes one from s[D], wrapping, and branches while the result is not zero; the new counter can be read after 2
clocks, on both paths. Its target is checked as R111 says, where it branches: one that fails leaves the counter as it is. Its fields are those
that R113 allows. -/
def Obligations.LoopCountsDown : Prop := ∀ (s : State) (f : L64),
  let x := s.wave.sreg f.d.toNat - 1
  let w := landing s 2 [.sreg f.d.toNat x]
  let target := s.wave.pc + 2 * f.imm.signExtend 64
  insOp (.loop f) = 0x1D ∧
  (fieldsOk s.limits (.loop f) = true ↔ f.d.toNat < 64 ∧ f.sub7 = 0 ∧ f.cf = 15) ∧
  (Ready (.loop f) s →
    (x = 0 → exec (.loop f) s = .next (after s 8 w)) ∧
    (x ≠ 0 → Reachable target → exec (.loop f) s = .next (gone s w target)) ∧
    (x ≠ 0 → target.getLsbD 0 = true → exec (.loop f) s = .next (s.faultAt 5 0 target)) ∧
    (x ≠ 0 → target.getLsbD 0 = false → 2 ^ 52 ≤ target.toNat → exec (.loop f) s = .next (s.faultAt 8 4 target)))

/-- R114 to R116: MLOG combines whole masks, MMOV moves between masks, scalars and vectors, MCNT counts or finds lanes and tells in scc
whether there is one. -/
def Sys2Proof.Claims.MaskOperations : Prop := ∀ (s : State) (f : G64),
  let w := s.wave
  let a := w.mask f.a.toNat
  let b := w.mask f.b.toNat
  let d := f.d.toNat
  (Ready (.mlog f) s → ∀ r : Lanes,
    [a &&& b, a ||| b, a ^^^ b, a &&& ~~~b, a ||| ~~~b, ~~~a, w.live, 0][f.sub.toNat]? = some r →
    exec (.mlog f) s = .next (after s 8 (landing s 2 [.mask d (BitVec.allOnes 64) r]))) ∧
  (Ready (.mmov f) s → IndexOk w f → ∀ r : List WaveWrite,
    [[.mask d (BitVec.allOnes 64) a], scalar f.d true a, [.mask d (BitVec.allOnes 64) (w.sop64 f.a)],
      [maskLanes w d fun L => w.opA f L != 0], [vector w d fun L => if a.getLsbD L then 1 else 0]][f.sub.toNat]? = some r →
    exec (.mmov f) s = .next (after s 8 (landing s (if f.sub.toNat ≤ 2 then 2 else vlat w) r))) ∧
  (Ready (.mcnt f) s →
    ∃ n : Nat, exec (.mcnt f) s = .next (after s 8 (landing s 2 [.sreg d (BitVec.ofNat 32 n), .scc (a != 0)])) ∧
      (f.sub = 0 → n = (List.range 64).countP fun L => a.getLsbD L) ∧
      (f.sub ≠ 0 → a = 0 → n = 0xFFFFFFFF) ∧
      (f.sub ≠ 0 → a ≠ 0 → a.getLsbD n = true ∧ ∀ L < 64, a.getLsbD L = true → if f.sub = 1 then n ≤ L else L ≤ n))

/-- R117, R118: SRD of the scalar form reads a special register that a wave holds, its place, its die and its width; SWR writes FPCTL,
FNCTL, TRAPCODE and TRAPADDR 2 clocks later, and raises ILLEGAL_OPERAND for a value with a reserved bit or rounding mode. -/
def Sys2Proof.Claims.SpecialRegisters : Prop := ∀ (s : State) (f : K32),
  let w := s.wave
  let n := (f.imm.extractLsb' 0 8).toNat
  let scalarForm := f.imm.getLsbD 8 = false
  let value : Option DWord :=
    [some w.wid, none, some (BitVec.ofNat 64 w.slot), if w.priv then none else some (BitVec.ofNat 64 w.gslot),
      some (BitVec.ofNat 64 w.core), some (BitVec.ofNat 64 (w.core / 96)), some (BitVec.ofNat 64 w.width), none,
      some (w.fpctl.setWidth 64), some (w.fnctl.setWidth 64), some (w.qdepth.setWidth 64), some (w.trapcode.setWidth 64),
      some w.trapaddr].getD n none
  let x : DWord := if n = 12 then w.sop64 f.d else (w.sop f.d).setWidth 64
  let held : Bool := match n with
    | 8 => x.toNat % 8 ≤ 4 ∧ x.toNat / 8 % 32 = 0 ∧ x.toNat / 512 = 0
    | 9 => x.toNat < 4
    | 11 => x.toNat < 2 ^ 24
    | _ => true
  (Ready (.srd f) s → scalarForm → ∀ v, value = some v →
    exec (.srd f) s = .next (after s 4 (landing s 2 (scalar f.d (n = 0 ∨ n = 7 ∨ n = 12) v)))) ∧
  (Ready (.swr f) s → scalarForm →
    exec (.swr f) s = .next (if held then after s 4 (landing s 2 [.special n x]) else s.faultAt 2 0 w.insAddr))

/-- R118: SRD of the vector form gives every active lane the register, and its own number for LANEID; CLOCK is at most 15 clocks
from the clock of the module. -/
def Sys2Proof.Claims.SpecialRegistersByLane : Prop := ∀ (s : State) (f : K32),
  let w := s.wave
  let n := (f.imm.extractLsb' 0 8).toNat
  Ready (.srd f) s →
    (f.imm.getLsbD 8 = true → n = 1 →
      exec (.srd f) s = .next (after s 4 (landing s (vlat w) [vector w f.d.toNat fun L => BitVec.ofNat 32 L]))) ∧
    (f.imm.getLsbD 8 = true → n = 6 →
      exec (.srd f) s = .next (after s 4 (landing s (vlat w) [vector w f.d.toNat fun _ => BitVec.ofNat 32 w.width]))) ∧
    (f.imm.getLsbD 8 = true → n = 0 →
      exec (.srd f) s = .next (after s 4 (landing s (vlat w) (vector64 w f.d.toNat fun _ => w.wid)))) ∧
    (f.imm.getLsbD 8 = false → n = 7 →
      ∃ k < 16, exec (.srd f) s = .next (after s 4 (landing s 2 (scalar f.d true (BitVec.ofNat 64 (s.clock + k))))))

/-- R94: WAIT goes on exactly when every class counter it names is at most its limit (15: no condition) and every general
counter it names is zero, and otherwise leaves the state as it is; of the instructions that engines carry out it then keeps
unordered none that counts on a general counter named (R351). Its fields stand in its word as R94 places them, and those
that it does not use are zero, CF 15, or it raises ILLEGAL_OPERAND. -/
def Obligations.WaitHoldsUntilCounters : Prop := ∀ (s : State) (f : L64),
  let limit (j : Nat) : Nat := (f.imm.extractLsb' (4 * j) 4).toNat
  let holds : Prop := (∀ j < 4, limit j = 15 ∨ (cget s.wave.k j).toNat ≤ limit j) ∧
    ∀ j < 8, f.imm.getLsbD (16 + j) = true → cget s.wave.k (4 + j) = 0
  let reserved : Prop := f.imm.extractLsb' 24 8 = 0 ∧ f.sub7 = 0 ∧ f.d = 0 ∧ f.cf = 15
  (∀ z : BitVec 64, z.extractLsb' 0 2 = 3 → z.extractLsb' 9 8 = 0x1B →
    let g : L64 := { imm := z.extractLsb' 32 32, sub7 := z.extractLsb' 25 7, d := z.extractLsb' 17 8,
                     cf := z.extractLsb' 5 4, dist := z.extractLsb' 2 3 }
    decodeTableWord 64 z.toNat = if z.extractLsb' 56 8 = 0 ∧ g.sub7 = 0 ∧ g.d = 0 ∧ g.cf = 15 then some (.wait g) else none) ∧
  (¬reserved → s.wave.held = none → exec (.wait f) s = .next (s.faultAt 2 (256 * (s.wave.insAddr - s.wave.pc).toNat) s.wave.insAddr)) ∧
  (Ready (.wait f) s → reserved ∧
    (holds → exec (.wait f) s = .next (after s 8 (s.wave.waited_ f.imm)) ∧
      (∃ hb u, s.wave.waited_ f.imm = { s.wave with hb := hb, unwaited := u } ∧ (s.wave.unwaited = [] → hb = s.wave.hb ∧ u = []) ∧
        ∀ p ∈ u, p ∈ s.wave.unwaited ∧ ∀ j < 8, f.imm.getLsbD (16 + j) = true → p.1 ≠ 4 + j)) ∧
    (¬holds → exec (.wait f) s = .next s))

/-- R123: BART on a tag of its launch makes the wave's arrival and holds it there, where another wave of the launch has still
to arrive; with ORD, it waits first until the wave's earlier accesses have been performed (R124). A tag that the launch does not
hold raises ILLEGAL_OPERAND. -/
def Sys2Proof.Claims.BartArrivesAndHolds : Prop := ∀ (s : State) (f : K32), Ready (.bart f) s →
  let w := s.wave
  let t := (f.imm.extractLsb' 0 3).toNat
  (s.myLaunch.btags.getLsbD t = false → exec (.bart f) s = .next (s.faultAt 2 0 w.insAddr)) ∧
  (w.priv = false → s.myLaunch.btags.getLsbD t = true → (f.imm.getLsbD 3 = true → s.accessesDone s.fresh = true) →
    (∃ v ∈ s.waves, v.alive w.launch = true ∧ v.arrived ≠ some t) →
    exec (.bart f) s = .next { s with wave := { w with
      arrived := some t, arrOrd := f.imm.getLsbD 3, hold := .bart t, lastIssue := s.clock + 1, resume := .none } }) ∧
  (w.priv = false → s.myLaunch.btags.getLsbD t = true → f.imm.getLsbD 3 = true → s.accessesDone s.fresh = false →
    exec (.bart f) s = .next (heldAt s (.bart f) { s with wave := { w with hold := .pipeline } }))

/-- R123: the last arrival completes the phase: the arrival is cleared, the BART has retired, and the release of the tag stands 40
clocks ahead, for a launch on cores of one die. -/
def Sys2Proof.Claims.BartLastArrivalCompletes : Prop := ∀ (s : State) (f : K32), Ready (.bart f) s →
  let w := s.wave
  let t := (f.imm.extractLsb' 0 3).toNat
  let la := s.launch w.launch
  w.priv = false → la.btags.getLsbD t = true → f.imm.getLsbD 3 = false → w.idle = false → w.ended = false →
  (∀ v ∈ s.waves, v.alive w.launch = false) → s.suspended = [] → (∀ c ∈ la.cmask, c / 96 = w.core / 96) →
  exec (.bart f) s = .next
    { s with
      launches := tset s.launches w.launch { la with phase := la.phase ++ [(t, s.clock + 40)] },
      wave := { w with
        hb := w.hb, arrived := none, arrOrd := false, hold := .bart t, lastIssue := s.clock + 1, resume := .none, pc := w.pc + 4 },
      waves := s.waves }

/-- R126, R128: EXIT of some lanes takes them from LIVE and clears em, and EXIT of all that are left, or of the wave, ends it: it
commits its batch and discards results in flight, but for those bound for its group; EXIT in the privileged slot does nothing; YIELD gives the wave
a new Age and keeps it from issuing for Y clocks. -/
def Obligations.ExitAndYield : Prop := ∀ (s : State) (f : K32),
  let w := s.wave
  (Ready (.exit f) s → w.priv = true → exec (.exit f) s = .next (after s 4 w)) ∧
  (Ready (.exit f) s → w.priv = false → f.imm.getLsbD 0 = true → w.live &&& ~~~w.em ≠ 0 →
    exec (.exit f) s = .next (after s 4 { w with live := w.live &&& ~~~w.em, em := 0 })) ∧
  (Ready (.exit f) s → w.priv = false → f.imm.getLsbD 0 = false →
    exec (.exit f) s = .next s.endWave) ∧
  (Ready (.exit f) s → w.priv = false → f.imm.getLsbD 0 = true → w.live &&& ~~~w.em = 0 →
    exec (.exit f) s = .next (State.endWave { s with wave := { w with live := 0, em := 0 } })) ∧
  (w.priv = false → s.endWave.wave.ended = true ∧ s.endWave.wave.pend = (w.pend.filter fun p => p.2.toGroup) ∧
      s.endWave.wave.batch = [] ∧ s.endWave.wave.arrived = none) ∧
  (Ready (.yield f) s →
    exec (.yield f) s = .next (after
      { s with cores := tset s.cores w.core { s.core w.core with nextAge := (s.core w.core).nextAge + 1 } } 4
      { w with age := (s.core w.core).nextAge, waited := 0, promoted := false,
               notBefore := s.clock + (f.imm.extractLsb' 0 10).toNat + 1 }))

/-- R79, R80, R129, R130: where the covered instructions can be read and stepped, REP stands before its first repeat and PBLK before its first covered
instruction, with the condition captured; the PC stays at the prefix. -/
def Sys2Proof.Claims.PrefixesStart : Prop :=
  (∀ (s t : State) (f : Rep) (i : Instr) (at_ next : DWord), Ready (.rep f) s →
    s.readCovered repCovers s.wave.pc (s.wave.pc + 4) 1 = .ok t [(at_, i)] next → s.wave.resume = .none →
    (opForm i).2 ≠ .c16 → s.stepsBad f (s.wave.pc + 4) = false →
    (f.std = 0 ∨ stepOk i 0 = true) → (f.sta = 0 ∨ stepOk i 1 = true) →
    (f.stb = 0 ∨ stepOk i 2 = true) → (f.stc = 0 ∨ stepOk i 3 = true) →
    let step (x : BitVec 2) : Nat := [0, 1, 2, 4].getD x.toNat 0
    let r : RepState :=
      { j := 0, n := f.cnt.toNat + 1, std := step f.std, sta := step f.sta, stb := step f.stb, stc := step f.stc,
        ins := i, insAt := at_, after := next }
    exec (.rep f) s = .next { t with wave := { s.wave with lastIssue := s.clock + 1, resume := .none, rep := some r } }) ∧
  (∀ (s t : State) (f : Pblk) (body : List (DWord × Instr)) (next : DWord), Ready (.pblk f) s →
    s.readCovered pblkCovers s.wave.pc (s.wave.pc + 4) (f.cnt.toNat + 1) = .ok t body next → s.wave.resume = .none →
    let m := cget s.wave.m f.cm.toNat
    let p : PblkState := { j := 0, cond := if f.sense then m else ~~~m, pat := f.pat, body := body, after := next }
    exec (.pblk f) s = .next { t with wave := { s.wave with lastIssue := s.clock + 1, resume := .none, pblk := some p } })

/-- R63, R129, R130: an instruction that has retired leaves the PC past it; in a REP it leaves the next repeat, with the PC
where it was, until the last, which leaves the REP; in a PBLK the next covered instruction. -/
def Sys2Proof.Claims.RetiringAdvances : Prop := ∀ (w : Wave) (len clock : Nat),
  let v := { w with lastIssue := clock + 1, resume := .none, held := none, dropped := [] }
  (w.rep = none → w.pblk = none → w.advance len clock = { v with pc := w.pc + BitVec.ofNat 64 len }) ∧
  (∀ r, w.rep = some r → r.j + 1 < r.n → w.advance len clock = { v with rep := some { r with j := r.j + 1 } }) ∧
  (∀ r, w.rep = some r → r.n ≤ r.j + 1 → w.advance len clock = { v with rep := none, pc := r.after }) ∧
  (∀ p x b bs, w.rep = none → w.pblk = some p → p.body = x :: b :: bs →
    w.advance len clock = { v with pblk := some { p with j := p.j + 1, body := b :: bs } }) ∧
  (∀ p x, w.rep = none → w.pblk = some p → p.body = [x] → w.advance len clock = { v with pblk := none, pc := p.after })

/-! ### Vector integer instructions (R115, R131 to R134, R143 to R151) -/

/-- An operation on 32-bit, 16-bit or 8-bit elements of two words (R133: MOD 0, 1, 2). -/
def Sys2Proof.Claims.packed (mod : Nat) (g : (n : Nat) → BitVec n → BitVec n → BitVec n) (a b : Word) : Word :=
  let at_ (n i : Nat) : BitVec n := g n (a.extractLsb' i n) (b.extractLsb' i n)
  match mod with
  | 0 => g 32 a b
  | 1 => at_ 16 16 ++ at_ 16 0
  | _ => at_ 8 24 ++ at_ 8 16 ++ at_ 8 8 ++ at_ 8 0

/-- Addition or subtraction that wraps (0), or clamps to the signed (1) or unsigned (2) range. -/
def Sys2Proof.Claims.clamped (sub : Bool) (how n : Nat) (a b : BitVec n) : BitVec n :=
  let t (x y : Int) : Int := if sub then x - y else x + y
  match how with
  | 0 => if sub then a - b else a + b
  | 1 => BitVec.ofInt n (max (-(2 ^ (n - 1) : Nat)) (min (t a.toInt b.toInt) ((2 ^ (n - 1) : Nat) - 1)))
  | _ => BitVec.ofInt n (max 0 (min (t a.toNat b.toNat) ((2 ^ n : Nat) - 1)))

/-- The lesser or greater of two numbers, as signed or unsigned ones. -/
def Sys2Proof.Claims.extreme (greater unsigned : Bool) (n : Nat) (a b : BitVec n) : BitVec n :=
  if (if unsigned then a.ule b else a.sle b) = greater then b else a

/-- R72, R134, R145: each vector instruction with an 11-bit immediate, and each compact one, replaces v[D] in the active lanes by its
operation on v[D] and the immediate, or on v[VD] and v[VB]; it is 4 bytes or 2 bytes long. -/
def Obligations.VectorImmediateAndCompactResults : Prop :=
  (∀ (s : State) (f : K32),
    let a (L : Nat) : Word := s.wave.vlane f.d.toNat L
    let b : Word := f.imm.signExtend 32
    ∀ p ∈ ([(.vaddK32 f, fun L => a L + b), (.vsubK32 f, fun L => a L - b), (.vandK32 f, fun L => a L &&& b),
        (.vorK32 f, fun L => a L ||| b), (.vxorK32 f, fun L => a L ^^^ b), (.vmoviK32 f, fun _ => b)] :
        List (Instr × (Nat → Word))),
      Ready p.1 s → exec p.1 s = .next (after s 4 (landing s (vlat s.wave) [vector s.wave f.d.toNat p.2]))) ∧
  (∀ (s : State) (f : C16),
    let a (L : Nat) : Word := s.wave.vlane f.vd.toNat L
    let b (L : Nat) : Word := s.wave.vlane f.vb.toNat L
    ∀ p ∈ ([(.vmovC16 f, b), (.vaddC16 f, fun L => a L + b L), (.vsubC16 f, fun L => a L - b L),
        (.vmulC16 f, fun L => a L * b L), (.vandC16 f, fun L => a L &&& b L), (.vorC16 f, fun L => a L ||| b L),
        (.vxorC16 f, fun L => a L ^^^ b L), (.vshlC16 f, fun L => a L <<< (b L).toNat),
        (.vshrC16 f, fun L => a L >>> (b L).toNat), (.vminC16 f, fun L => extreme false false 32 (a L) (b L)),
        (.vmaxC16 f, fun L => extreme true false 32 (a L) (b L))] : List (Instr × (Nat → Word))),
      Ready p.1 s → exec p.1 s = .next (after s 2 (landing s (vlat s.wave) [vector s.wave f.vd.toNat p.2]))) ∧
  (∀ (s : State) (f : L64), Ready (.vmoviL64 f) s →
    exec (.vmoviL64 f) s = .next (after s 8 (landing s (vlat s.wave) [vector s.wave f.d.toNat fun _ => f.imm])))

/-- R133, R145, R150, R155: the vector instructions that write v[D] in each active lane from that lane's 32-bit operands (or a
neighbour's). -/
def Sys2Proof.Claims.VectorOperationResults : Prop := ∀ (s : State) (f : G64),
  let w := s.wave
  let a := w.opA f
  let b := w.opB f
  let c := w.opC f
  let high (L : Nat) : DWord :=
    if f.sub = 0 then (a L).signExtend 64 * (b L).signExtend 64 else (a L).setWidth 64 * (b L).setWidth 64
  let field (L : Nat) : Word :=
    let pos := (b L).toNat % 32
    let wid := min ((c L).toNat % 64) (32 - pos)
    let x := (a L).extractLsb' pos wid
    if f.sub = 1 then x.signExtend 32 else x.setWidth 32
  ∀ p ∈ ([(.vmul f, fun L => a L * b L), (.vmulh f, fun L => (high L >>> 32).setWidth 32), (.vmad f, fun L => a L * b L + c L),
      (.vandG64 f, fun L => a L &&& b L), (.vorG64 f, fun L => a L ||| b L), (.vxorG64 f, fun L => a L ^^^ b L),
      (.vshl f, fun L => a L <<< (b L).toNat),
      (.vshr f, fun L => if f.sub = 1 then (a L).sshiftRight (b L).toNat else a L >>> (b L).toNat),
      (.vbfx f, field), (.vsel f, fun L => if (w.mask f.c.toNat).getLsbD L then a L else b L), (.vmov f, b),
      (.bcast f, fun L => w.vlane f.a.toNat ((b L).toNat % w.width)),
      (.qswz f, fun L => w.vlane f.a.toNat (L / 4 * 4 + (f.c.extractLsb' (2 * (L % 4)) 2).toNat))] :
      List (Instr × (Nat → Word))),
    Ready p.1 s → IndexOk w f →
      exec p.1 s = .next (after s 8 (landing s (vlat w) [vector w f.d.toNat p.2]))

/-- R133: sums, differences, minima, maxima and absolute differences of 32-, 16- or 8-bit elements, each element by itself; SUB makes sums
and differences clamp, and the others unsigned. -/
def Sys2Proof.Claims.VectorElementResults : Prop := ∀ (s : State) (f : G64),
  let w := s.wave
  let a := w.opA f
  let b := w.opB f
  let on (g : (n : Nat) → BitVec n → BitVec n → BitVec n) (L : Nat) : Word := packed f.mod.toNat g (a L) (b L)
  let apart (n : Nat) (x y : BitVec n) : BitVec n :=
    if f.sub = 0 then BitVec.ofNat n (x.toInt - y.toInt).natAbs else if x.ule y then y - x else x - y
  ∀ p ∈ ([(.vaddG64 f, on (clamped false f.sub.toNat)), (.vsubG64 f, on (clamped true f.sub.toNat)),
      (.vmin f, on (extreme false (f.sub == 1))), (.vmax f, on (extreme true (f.sub == 1))), (.vabsd f, on apart)] :
      List (Instr × (Nat → Word))),
    Ready p.1 s → IndexOk w f →
      exec p.1 s = .next (after s 8 (landing s (vlat w) [vector w f.d.toNat p.2]))

/-- R133, R149: VPOPC counts ones, leading zeros or trailing zeros, or reverses the bits; VPACK puts two halves together,
clamped by SUB; VUNPK takes out and extends a half or byte; VBYTE chooses each byte by a nibble of b. -/
def Sys2Proof.Claims.VectorBitAndByteResults : Prop := ∀ (s : State) (f : G64),
  let w := s.wave
  let a := w.opA f
  let b := w.opB f
  let c := w.opC f
  let count (p : Nat → Bool) : Word := BitVec.ofNat 32 ((List.range 32).countP p)
  let pop (L : Nat) : Word := match f.sub.toNat with
    | 0 => count fun i => (a L).getLsbD i
    | 1 => count fun i => a L >>> i == 0
    | 2 => count fun i => a L <<< i == 0
    | _ => (a L).reverse
  let half (x : Word) : BitVec 16 := match f.sub.toNat with
    | 0 => x.setWidth 16
    | 1 => BitVec.ofInt 16 (max (-32768) (min x.toInt 32767))
    | _ => BitVec.ofInt 16 (max 0 (min x.toInt 65535))
  let part (L : Nat) : Word :=
    let n := f.sub.toNat
    let h := (a L).extractLsb' (16 * (n / 2)) 16
    let y := (a L).extractLsb' (8 * (n % 4)) 8
    if n < 4 then (if n % 2 = 1 then h.signExtend 32 else h.setWidth 32)
    else if n < 8 then y.setWidth 32 else y.signExtend 32
  let chosen (L i : Nat) : BitVec 8 :=
    let n := ((b L).extractLsb' (4 * i) 4).toNat
    if n < 4 then (a L).extractLsb' (8 * n) 8 else if n < 8 then (c L).extractLsb' (8 * (n - 4)) 8 else 0
  ∀ p ∈ ([(.vpopc f, pop), (.vpack f, fun L => half (b L) ++ half (a L)), (.vunpk f, part),
      (.vbyte f, fun L => chosen L 3 ++ chosen L 2 ++ chosen L 1 ++ chosen L 0)] : List (Instr × (Nat → Word))),
    Ready p.1 s → IndexOk w f →
      exec p.1 s = .next (after s 8 (landing s (vlat w) [vector w f.d.toNat p.2]))

/-- R73, R133, R134, R147, R148: the compares write a mask in the active lanes; VADDC and VSUBB chain a carry or borrow
through mask C; the 64-bit instructions work on pairs. -/
def Obligations.VectorCompareCarryAndWideResults : Prop := ∀ (s : State) (k : K32) (f : G64),
  let w := s.wave
  let a := w.opA f
  let b := w.opB f
  let a2 := w.vop64 f.sa f.a
  let b2 := w.vop64 f.sb f.b
  let d := f.d.toNat
  let cy (L : Nat) : Nat := if (w.mask f.c.toNat).getLsbD L then 1 else 0
  let product (L : Nat) : DWord := match f.sub.toNat with
    | 0 => (a L).setWidth 64 * (b L).setWidth 64
    | 1 => (a L).signExtend 64 * (b L).signExtend 64
    | _ => a2 L * b2 L
  (Ready (.vcmpiK32 k) s → exec (.vcmpiK32 k) s = .next (after s 4 (landing s (vlat w)
    [maskLanes w 1 fun L => compare (k.d.extractLsb' 5 3).toNat (w.vlane (k.d.extractLsb' 0 5).toNat L) (k.imm.signExtend 32)]))) ∧
  (∀ p ∈ ([(.vcmpiG64 f, [maskLanes w d fun L => compare f.sub.toNat (a L) (b L)]),
      (.vcmp64 f, [maskLanes w d fun L => compare f.sub.toNat (a2 L) (b2 L)]),
      (.vaddc f, [vector w d fun L => a L + b L + BitVec.ofNat 32 (cy L),
        maskLanes w f.c.toNat fun L => decide (2 ^ 32 ≤ (a L).toNat + (b L).toNat + cy L)]),
      (.vsubb f, [vector w d fun L => a L - b L - BitVec.ofNat 32 (cy L),
        maskLanes w f.c.toNat fun L => decide ((a L).toNat < (b L).toNat + cy L)]),
      (.vmul64 f, vector64 w d product),
      (.vshl64 f, vector64 w d fun L => a2 L <<< (b L).toNat),
      (.vshr64 f, vector64 w d fun L => if f.sub = 1 then (a2 L).sshiftRight (b L).toNat else a2 L >>> (b L).toNat)] :
      List (Instr × List WaveWrite)),
    Ready p.1 s → IndexOk w f → exec p.1 s = .next (after s 8 (landing s (vlat w) p.2)))

/-- R143, R144: VRAND and VSOBOL give a 32-bit number, or that number's high 24 bits as a fraction in FP32; the raw sequence of
dimension 0 is the index with its bits reversed. -/
def Sys2Proof.Claims.VectorSequenceResults : Prop :=
  (∀ (s : State) (f : G64),
    let w := s.wave
    let unit (x : Word) : Word := fround 0 (.num false (x >>> 8).toNat (-24))
    let mixed (L : Nat) : Word := mix32 (w.opA f L) (w.opB f L)
    let point (L : Nat) : Word :=
      sobolRaw (w.opA f L) f.sub.toNat ^^^ (if f.mod.getLsbD 1 then 0 else mix32 (w.opB f L) (f.sub.setWidth 32))
    ∀ p ∈ ([(.vrand f, fun L => if f.sub = 1 then unit (mixed L) else mixed L),
        (.vsobol f, fun L => if f.mod.getLsbD 0 then unit (point L) else point L)] : List (Instr × (Nat → Word))),
      Ready p.1 s → IndexOk w f →
        exec p.1 s = .next (after s 8 (landing s (vlat w) [vector w f.d.toNat p.2]))) ∧
  ∀ i : Word, sobolRaw i 0 = i.reverse

/-- R132, R146, R150, R151: VMOVX reads or writes the register that an index register gives each lane, XSET and XBND set an index and its
bound, VEXT and VINS move one lane, VTRN transposes a block of lanes and registers. -/
def Sys2Proof.Claims.VectorIndexLaneAndBlockMoves : Prop := ∀ (s : State) (f : G64) (l : L64),
  let w := s.wave
  let d := f.d.toNat
  let n := (w.sop f.b).toNat % w.width
  let to_ (k L : Nat) : Nat := (tget { xb := 0, xl := 0 } w.bound k).xb + (cget w.x (64 * k + L)).toNat
  let put (xs : List WaveWrite) : State := after s 8 (landing s (vlat w) xs)
  let size := 2 ^ (f.mod.toNat + 1)
  (Ready (.vmovx f) s → f.sub = 0 → w.xFail f.a.toNat = none →
    exec (.vmovx f) s = .next (put [vector w d fun L => w.vlane (to_ f.a.toNat L) L])) ∧
  (Ready (.vmovx f) s → f.sub = 1 → w.xFail d = none →
    exec (.vmovx f) s = .next (put (w.actList.map fun L => .vreg (to_ d L) (lanesOf (· == L)) (w.perLane (w.opB f))))) ∧
  (Ready (.xset f) s → IndexOk w f →
    exec (.xset f) s = .next (put [.xreg d w.act
      ((List.range 64).map fun L => if (w.opA f L).toNat ≤ 0xFFFF then (w.opA f L).setWidth 16 else 0xFFFF)])) ∧
  (Ready (.xbnd l) s →
    exec (.xbnd l) s = .next
      (if (l.imm.extractLsb' 0 8).toNat + (l.imm.extractLsb' 8 9).toNat ≤ w.vregs then
        put [.bound l.d.toNat (l.imm.extractLsb' 0 8).toNat (l.imm.extractLsb' 8 9).toNat]
      else s.faultAt 2 0 w.insAddr)) ∧
  (Ready (.vext f) s → f.xe = false → exec (.vext f) s = .next (put [.sreg d (w.opA f n)])) ∧
  (Ready (.vins f) s → exec (.vins f) s = .next (put [.vreg d (w.act &&& lanesOf (· == n)) (w.perLane fun _ => w.sop f.a)])) ∧
  (Ready (.vtrn f) s → size ≤ w.width →
    exec (.vtrn f) s = .next (put ((List.range size).map fun i =>
      vector w (d + i) fun L => w.vlane (f.a.toNat + L % size) (L / size * size + i)))) ∧
  (Ready (.vtrn f) s → w.width < size → exec (.vtrn f) s = .next (s.faultAt 2 0 w.insAddr))

/-- R132: an active lane whose index reaches the bound raises REG_INDEX (code 4), for the lowest such lane, with the index register
in bits 15:8 of the detail, and nothing is written. -/
def Sys2Proof.Claims.IndexBoundTraps : Prop := ∀ (s : State) (f : G64) (L : Nat),
  let w := s.wave
  (f.xe = true → w.xFail f.xi.toNat = some L →
    ∀ i ∈ ([.vaddG64 f, .vsubG64 f, .vmul f, .vmulh f, .vmad f, .vandG64 f, .vorG64 f, .vxorG64 f, .vshl f, .vshr f, .vmin f,
        .vmax f, .vbfx f, .vpopc f, .vsel f, .vcmpiG64 f, .vabsd f, .mmov f, .fadd f, .fsub f, .fmul f, .ffma f, .fmin f, .fmax f,
        .fcmp f, .fclass f, .frnd f, .fmed3 f, .flerp f, .fdot2 f, .fpk f, .hadd2 f, .hmul2 f, .hfma2 f, .cvt f, .cvtq f,
        .frcp f, .frsq f, .fsqrt f, .flog2 f, .fexp2 f, .fsin f, .fcos f, .ftanh f, .fdiv f, .idiv f, .vrand f, .vsobol f,
        .xset f, .vpack f, .vunpk f, .vbyte f, .vaddc f, .vsubb f, .vmul64 f, .laadd f, .lafma f] : List Instr),
      Ready i s → exec i s = .next (s.faultAt 4 (L + 256 * f.xi.toNat) w.insAddr)) ∧
  (w.xFail f.xi.toNat = some L →
    w.act.getLsbD L = true ∧ (w.bnd f.xi.toNat).xl ≤ w.xlane f.xi.toNat L ∧
    ∀ j < L, w.act.getLsbD j = true → w.xlane f.xi.toNat j < (w.bnd f.xi.toNat).xl)

/-! ### Floating point, conversions, special functions (R135 to R142, R167, R174, R178, R180) -/

/-- The rounding mode that SUB gives: 0 takes that of FPCTL, 1 to 5 name one (R135). -/
def Sys2Proof.Claims.mode (w : Wave) (sub : BitVec 4) : Nat := if sub = 0 then w.fpctl.toNat % 8 else sub.toNat - 1

/-- Lane `L` is the lowest active lane in which `made` holds. -/
def Sys2Proof.Claims.LowestLane (w : Wave) (made : Nat → Bool) (L : Nat) : Prop :=
  L < 64 ∧ w.act.getLsbD L = true ∧ made L = true ∧ ∀ j < L, w.act.getLsbD j = true → made j = false

/-- What an FP32 instruction gives: in every active lane the value `v L`, computed exactly from the operands `ops L`, rounded once;
with NANTRAP set, a NaN made from operands that hold none raises NAN_FIRST at the lowest such lane, which names the engine (R178,
R180), and writes nothing. -/
def Sys2Proof.Claims.RoundsOnce (i : Instr) (s : State) (len engine d m : Nat) (ops : Nat → List FV) (v : Nat → FV) : Prop :=
  let w := s.wave
  let made (L : Nat) : Bool := (v L).isNan && !(ops L).any FV.isNan
  ((w.fpctl.getLsbD 8 = false ∨ ∀ L < 64, w.act.getLsbD L = true → made L = false) →
    exec i s = .next (after s len (landing s (vlat w) [vector w d fun L => fround m (v L)]))) ∧
  (w.fpctl.getLsbD 8 = true → ∀ L, LowestLane w made L → exec i s = .next (s.faultAt 0x0E L (BitVec.ofNat 64 engine)))

/-- R72, R135, R136, R178: FADD, FSUB, FMUL, FFMA, FLERP and FDOT2 compute exactly and round once, in the mode that SUB or FPCTL
gives; the compact forms use the mode of FPCTL. -/
def Sys2Proof.Claims.FloatArithmeticResults : Prop := ∀ (s : State),
  let w := s.wave
  (∀ f : G64,
    let m := mode w f.sub
    let sum := FV.sum (m == 2)
    let a (L : Nat) : FV := fval (w.fa f L)
    let b (L : Nat) : FV := fval (w.fb f L)
    let c (L : Nat) : FV := fval (w.fc f L)
    let p (L : Nat) : FV := fval (w.fa0 f L)
    let q (L : Nat) : FV := fval (w.fb0 f L)
    let half (sc : Bool) (x : BitVec 8) (y : Word) (h : Nat) : FV := halfOf sc x (halfFmt f.mod) y h
    let x (L h : Nat) : FV := half f.sa f.a (w.opA f L) h
    let y (L h : Nat) : FV := half f.sb f.b (w.opB f L) h
    ∀ r ∈ ([(.fadd f, fun L => [a L, b L], fun L => sum [a L, b L]),
        (.fsub f, fun L => [a L, b L], fun L => sum [a L, (b L).negate]),
        (.fmul f, fun L => [a L, b L], fun L => (a L).mul (b L)),
        (.ffma f, fun L => [a L, b L, c L], fun L => sum [(a L).mul (b L), c L]),
        (.flerp f, fun L => [p L, q L, c L], fun L => sum [p L, (c L).mul (sum [q L, (p L).negate])]),
        (.fdot2 f, fun L => [x L 0, x L 1, y L 0, y L 1, c L],
          fun L => sum [(x L 0).mul (y L 0), (x L 1).mul (y L 1), c L])] :
        List (Instr × (Nat → List FV) × (Nat → FV))),
      Ready r.1 s → IndexOk w f → RoundsOnce r.1 s 8 0 f.d.toNat m r.2.1 r.2.2) ∧
  (∀ f : C16,
    let m := w.fpctl.toNat % 8
    let a (L : Nat) : FV := fval (w.vlane f.vd.toNat L)
    let b (L : Nat) : FV := fval (w.vlane f.vb.toNat L)
    ∀ r ∈ ([(.faddC16 f, fun L => FV.sum (m == 2) [a L, b L]), (.fsubC16 f, fun L => FV.sum (m == 2) [a L, (b L).negate]),
        (.fmulC16 f, fun L => (a L).mul (b L))] : List (Instr × (Nat → FV))),
      Ready r.1 s → RoundsOnce r.1 s 2 0 f.vd.toNat m (fun L => [a L, b L]) r.2)

/-- R136: the paired instructions compute each half exactly and round it once to the half format; the state is given where
NANTRAP is clear. -/
def Sys2Proof.Claims.PairedHalfResults : Prop := ∀ (s : State) (f : G64),
  let w := s.wave
  let fmt := halfFmt f.mod
  let m := mode w f.sub
  let a (L h : Nat) : FV := halfOf f.sa f.a fmt (w.opA f L) h
  let b (L h : Nat) : FV := halfOf f.sb f.b fmt (w.opB f L) h
  let c (L h : Nat) : FV := halfOf f.sc f.c fmt (w.opC f L) h
  ∀ p ∈ ([(.hadd2 f, fun L h => FV.sum (m == 2) [a L h, b L h]), (.hmul2 f, fun L h => (a L h).mul (b L h)),
      (.hfma2 f, fun L h => FV.sum (m == 2) [(a L h).mul (b L h), c L h])] : List (Instr × (Nat → Nat → FV))),
    Ready p.1 s → IndexOk w f → w.fpctl.getLsbD 8 = false →
      exec p.1 s = .next (after s 8 (landing s (vlat w) [vector w f.d.toNat fun L =>
        BitVec.ofNat 32 (fmt.round m (p.2 L 0) + 65536 * fmt.round m (p.2 L 1))]))

/-- R137: FMIN and FMAX put −0 below +0, and a NaN yields the other operand, two NaNs the canonical one; FMED3 is the middle of
three; FCMP orders values, and with a NaN only ne (1) and unordered (7) hold; none of them traps. FCLASS, FRND and FPK are given by the
functions that classify, round to an integer, and convert. -/
def Sys2Proof.Claims.FloatCompareResults : Prop := ∀ (s : State),
  let w := s.wave
  let below (x y : Word) : Bool :=
    let c := (fval x).cmp (fval y)
    decide (c < 0) || (c == 0 && (fval x).neg && !(fval y).neg)
  let pick (greater : Bool) (x y : Word) : Word :=
    if (fval x).isNan && (fval y).isNan then 0x7FC00000
    else if (fval x).isNan then y
    else if (fval y).isNan then x
    else if below x y = greater then y else x
  (∀ f : G64,
    let m := mode w f.sub
    let a := w.fa f
    let b := w.fb f
    let x := w.fa0 f
    let y := w.fb0 f
    let fmt := halfFmt f.mod
    let holds (L : Nat) : Bool :=
      let un := (fval (a L)).isNan || (fval (b L)).isNan
      let c := (fval (a L)).cmp (fval (b L))
      match f.sub.toNat with
      | 0 => !un && c == 0
      | 1 => un || c != 0
      | 2 => !un && decide (c < 0)
      | 3 => !un && decide (c ≤ 0)
      | 4 => !un && decide (0 < c)
      | 5 => !un && decide (0 ≤ c)
      | 6 => !un
      | _ => un
    ∀ p ∈ ([(.fmin f, [vector w f.d.toNat fun L => pick false (a L) (b L)]),
        (.fmax f, [vector w f.d.toNat fun L => pick true (a L) (b L)]),
        (.fmed3 f, [vector w f.d.toNat fun L => pick true (pick false (x L) (y L)) (pick false (pick true (x L) (y L)) (w.fc f L))]),
        (.fcmp f, [maskLanes w f.d.toNat holds]),
        (.fclass f, [vector w f.d.toNat fun L => BitVec.ofNat 32 (fclassOf (x L).toNat)]),
        (.frnd f, [vector w f.d.toNat fun L => BitVec.ofNat 32 (frndOf m (x L).toNat)]),
        (.fpk f, [vector w f.d.toNat fun L => BitVec.ofNat 32
          (fmt.convert m 0 true (fval (x L)) + 65536 * fmt.convert m 0 true (fval (y L)))])] : List (Instr × List WaveWrite)),
      Ready p.1 s → IndexOk w f → exec p.1 s = .next (after s 8 (landing s (vlat w) p.2))) ∧
  (∀ f : C16,
    let a := w.vlane f.vd.toNat
    let b := w.vlane f.vb.toNat
    ∀ p ∈ ([(.fminC16 f, false), (.fmaxC16 f, true)] : List (Instr × Bool)),
      Ready p.1 s → exec p.1 s = .next (after s 2 (landing s (vlat w) [vector w f.vd.toNat fun L => pick p.2 (a L) (b L)])))

/-- R69, R135: as a floating-point operand the constant n is the number n; MOD makes operand a absolute (bit 2) and then negates it
(bit 0), and operand b likewise (bits 3 and 1). -/
def Sys2Proof.Claims.FloatOperandForms : Prop := ∀ (w : Wave) (f : G64) (L : Nat),
  (f.xe = false → f.sa = true → 128 ≤ f.a.toNat → w.fa0 f L = fround 0 (FV.ofInt (f.a.toNat - 128 : Nat))) ∧
  (f.sb = true → 128 ≤ f.b.toNat → w.fb0 f L = fround 0 (FV.ofInt (f.b.toNat - 128 : Nat))) ∧
  (f.sb = false → w.fb0 f L = w.vlane f.b.toNat L) ∧
  (f.xe = false → f.sa = false → w.fa0 f L = w.vlane f.a.toNat L) ∧
  w.fa f L = (let x := if f.mod.getLsbD 2 then w.fa0 f L &&& 0x7FFFFFFF else w.fa0 f L
    if f.mod.getLsbD 0 then x ^^^ 0x80000000 else x) ∧
  w.fb f L = (let x := if f.mod.getLsbD 3 then w.fb0 f L &&& 0x7FFFFFFF else w.fb0 f L
    if f.mod.getLsbD 1 then x ^^^ 0x80000000 else x)

/-- R135, R167: rounding an FP32 number to FP32 gives it back in every mode; a NaN gives the canonical NaN, an infinity itself;
a value that is not above the largest number in magnitude gives no infinity. -/
def Sys2Proof.Claims.RoundingKeepsFp32Numbers : Prop := ∀ (x : Word) (m : Nat),
  ((fval x).isNan = false → fround m (fval x) = x) ∧ ((fval x).isNan = true → fround m (fval x) = 0x7FC00000)

/-- R138 to R140, R174: CVT and CVTQ convert the exact value of the source, by the mode named; where NANTRAP is set, a NaN that the
conversion makes raises NAN_FIRST of engine 5. -/
def Sys2Proof.Claims.ConversionResults : Prop := ∀ (s : State) (f : G64),
  let w := s.wave
  let src := numType f.sub.toNat
  let dst := numType f.mod.toNat
  let x (L : Nat) : Nat := if src.wide then (w.vop64 f.sa f.a L).toNat else (w.opA f L).toNat
  let v (L : Nat) : FV := src.val f.sa f.a (x L)
  let m := if f.c.toNat % 8 = 0 then w.fpctl.toNat % 8 else if f.c.toNat % 8 = 6 then 6 else f.c.toNat % 8 - 1
  let r (L : Nat) : Nat := dst.convert m (w.opB f L).toNat (!f.c.getLsbD 3) (v L)
  let made (L : Nat) : Bool := dst.isNan (r L) && !(v L).isNan
  let y (L : Nat) : FV := (fval (w.fa0 f L)).mul (fval (w.fb0 f L))
  let n := if f.sub = 0 then w.fpctl.toNat % 8 else if f.sub = 6 then 6 else f.sub.toNat - 1
  let q (L : Nat) : Nat := (quantType f.mod.toNat).convert n (w.opC f L).toNat true (y L)
  let put (xs : List WaveWrite) : State := after s 8 (landing s (vlat w) xs)
  (Ready (.cvt f) s → IndexOk w f → (w.fpctl.getLsbD 8 = false ∨ ∀ L < 64, w.act.getLsbD L = true → made L = false) →
    exec (.cvt f) s = .next (put (vector w f.d.toNat (fun L => BitVec.ofNat 32 (r L)) ::
      if dst.wide then [vector w (f.d.toNat + 1) fun L => BitVec.ofNat 32 (r L / 2 ^ 32)] else []))) ∧
  (Ready (.cvt f) s → IndexOk w f → w.fpctl.getLsbD 8 = true → ∀ L, LowestLane w made L →
    exec (.cvt f) s = .next (s.faultAt 0x0E L 5)) ∧
  (Ready (.cvtq f) s → IndexOk w f → w.fpctl.getLsbD 8 = false → f.mod ≠ 5 →
    exec (.cvtq f) s = .next (put [vector w f.d.toNat fun L => BitVec.ofNat 32 (q L)])) ∧
  (Ready (.cvtq f) s → IndexOk w f → f.mod = 5 →
    exec (.cvtq f) s = .next (put [vector w f.d.toNat fun L => BitVec.ofNat 32 (ternary n (w.opC f L).toNat (y L))]))

/-- R139, R167: conversion to an integer gives 0 for NaN and the bound for an infinity, and stays within the bounds; conversion
to a format gives its canonical NaN for NaN, and with saturation never an infinity for a finite value of FP16. -/
def Sys2Proof.Claims.ConversionBounds : Prop := ∀ (w m r : Nat) (signed : Bool) (v : FV), 1 ≤ w →
  let lo : Int := if signed then -((2 ^ (w - 1) : Nat) : Int) else 0
  let hi : Int := if signed then ((2 ^ (w - 1) : Nat) : Int) - 1 else ((2 ^ w : Nat) : Int) - 1
  let x := convertInt w signed m r v
  lo ≤ x ∧ x ≤ hi ∧ (v = .nan → x = 0) ∧ (v = .inf false → x = hi) ∧ (v = .inf true → x = lo) ∧
    (∀ y : Int, v = FV.ofInt y → lo ≤ y → y ≤ hi → x = y)

/-- The next state of an instruction of variable latency (R88, R92, R93): it has issued, its counters have risen, and with no
counter it holds the wave; `e` is what its completion will do. What an engine carries out stays unordered until a WAIT (R351). -/
def Sys2Proof.Claims.issued (s : State) (cls cf : Option Nat) (e : Effect) : State :=
  let up (w : Wave) (n : Option Nat) : Wave := match n with
    | some k => { w with k := cset w.k k (cget w.k k + 1) }
    | none => w
  let w := up (up s.wave cls) cf
  let o : Outst :=
    { id := s.fresh, cls := cls, cf := cf, pc := s.wave.insAddr, issued := s.clock, holds := false, token := false, eff := e,
      wait := .ready, vc := s.wave.hb }
  let note := if e.byEngine then [cls, cf].filterMap fun k => k.map fun k => (k, s.fresh) else []
  after { s with fresh := s.fresh + 1 } 8
    { w with outst := w.outst ++ [o], unwaited := w.unwaited ++ note, hold := if cls = none ∧ cf = none then .outst s.fresh else w.hold }

/-- The general counter that CF names (R81): 0 to 7 are k4 to k11. -/
def Sys2Proof.Claims.general (cf : BitVec 4) : Option Nat := if cf.toNat < 8 then some (4 + cf.toNat) else none

/-- R141, R142: an instruction of the special-function unit issues, and its result lands at its completion; division rounds the
exact quotient once; integer division by zero gives all ones, or the dividend as remainder. -/
def Sys2Proof.Claims.SpecialFunctionResults : Prop := ∀ (s : State) (f : G64),
  let w := s.wave
  let m := w.fpctl.toNat % 8
  let a := w.fa0 f
  let b := w.fb0 f
  let x := w.opA f
  let y := w.opB f
  let unary (op : Nat) (L : Nat) : Word × Bool :=
    let r := sfuOp op f.mod.toNat m (a L)
    (r, (fval r).isNan && !(fval (a L)).isNan)
  let quotient (L : Nat) : Word × Bool :=
    let r := fround m (FV.div 64 (fval (a L)) (fval (b L)))
    (r, (fval r).isNan && !((fval (a L)).isNan || (fval (b L)).isNan))
  let whole (L : Nat) : Word × Bool := (match f.sub.toNat with
    | 0 => if y L = 0 then 0xFFFFFFFF else (x L).sdiv (y L)
    | 1 => if y L = 0 then 0xFFFFFFFF else x L / y L
    | 2 => if y L = 0 then x L else (x L).srem (y L)
    | _ => if y L = 0 then x L else x L % y L, false)
  ∀ p ∈ ([(.frcp f, unary 0x42), (.frsq f, unary 0x43), (.fsqrt f, unary 0x44), (.flog2 f, unary 0x45), (.fexp2 f, unary 0x46),
      (.fsin f, unary 0x47), (.fcos f, unary 0x48), (.ftanh f, unary 0x49), (.fdiv f, quotient), (.idiv f, whole)] :
      List (Instr × (Nat → Word × Bool))),
    Ready p.1 s → IndexOk w f →
      ((w.fpctl.getLsbD 8 = false ∨ ∀ L < 64, w.act.getLsbD L = true → (p.2 L).2 = false) →
        exec p.1 s = .next (issued s none (general f.cf) (.writes [vector w f.d.toNat fun L => (p.2 L).1]))) ∧
      (w.fpctl.getLsbD 8 = true → ∀ L, LowestLane w (fun L => (p.2 L).2) L →
        exec p.1 s = .next (s.faultAt 0x0E L 1))

/-- R142: the special-function unit at NaN, the infinities and the zeros; the square root and reciprocal square root and
logarithm of a negative number are NaN; by functions 0x42 rcp, 0x43 rsq, 0x44 sqrt, 0x45 log2, 0x46 exp2, 0x47 sin, 0x48 cos,
0x49 tanh. -/
def Sys2Proof.Claims.SpecialFunctionCorners : Prop := ∀ (mod m : Nat),
  let nan : Word := 0x7FC00000
  let inf : Word := 0x7F800000
  let neg : Word := 0x80000000
  (∀ op ∈ [0x42, 0x43, 0x44, 0x45, 0x46, 0x47, 0x48, 0x49], ∀ x : Word, (fval x).isNan = true → sfuOp op mod m x = nan) ∧
  (∀ p ∈ ([(0x42, 0, neg), (0x43, 0, nan), (0x44, inf, nan), (0x45, inf, nan), (0x46, inf, 0), (0x47, nan, nan), (0x48, nan, nan),
      (0x49, 0x3F800000, 0xBF800000)] : List (Nat × Word × Word)),
    sfuOp p.1 mod m inf = p.2.1 ∧ sfuOp p.1 mod m (inf ||| neg) = p.2.2) ∧
  (∀ p ∈ ([(0x42, inf, inf ||| neg), (0x43, inf, inf ||| neg), (0x44, 0, neg), (0x45, inf ||| neg, inf ||| neg),
      (0x46, 0x3F800000, 0x3F800000), (0x47, 0, neg), (0x48, 0x3F800000, 0x3F800000), (0x49, 0, neg)] :
      List (Nat × Word × Word)),
    sfuOp p.1 mod m 0 = p.2.1 ∧ sfuOp p.1 mod m neg = p.2.2) ∧
  (∀ op ∈ [0x43, 0x44, 0x45], ∀ x : Word, x.toNat < 0x7F800000 → x ≠ 0 → sfuOp op mod m (x ||| neg) = nan)

/-! ### Cross-lane instructions and the long accumulator (R152 to R165) -/

/-- R154 to R157: SHFL reads another lane of its segment (a segment wider than the wave raises ILLEGAL_OPERAND), VOTE, BALLOT and MATCH
compare the active lanes. -/
def Obligations.LaneExchangeResults : Prop := ∀ (s : State) (f : G64),
  let w := s.wave
  let d := f.d.toNat
  let put (xs : List WaveWrite) : State := after s 8 (landing s (vlat w) xs)
  let size := if f.mod = 0 then w.width else 2 ^ f.mod.toNat
  let from_ (L : Nat) : Nat :=
    let b := (w.opB f L).toNat
    let base := L / size * size
    let p := L % size
    match f.sub.toNat with
    | 0 => base + b % size
    | 1 => if b ≤ p then L - b else L
    | 2 => if p + b < size then L + b else L
    | _ => base + (p ^^^ b % size)
  let on : Lanes := w.act &&& lanesOf fun L => w.vlane f.a.toNat L != 0
  let truth : Bool := match f.sub.toNat with
    | 0 => on == 0
    | 1 => on != 0
    | 2 => on == w.act
    | _ => on != w.act
  let value (L : Nat) : DWord :=
    if f.mod = 1 then w.vlane (f.a.toNat + 1) L ++ w.vlane f.a.toNat L else (w.vlane f.a.toNat L).setWidth 64
  let same (L : Nat) : Lanes := w.act &&& lanesOf fun j => value j == value L
  (Ready (.shfl f) s →
    (size ≤ w.width → exec (.shfl f) s = .next (put [vector w d fun L => w.vlane f.a.toNat (from_ L)])) ∧
    (w.width < size → exec (.shfl f) s = .next (s.faultAt 2 0 w.insAddr))) ∧
  (Ready (.vote f) s →
    exec (.vote f) s = .next (put [.scc truth, .mask d w.act (if truth then BitVec.allOnes 64 else 0)])) ∧
  (Ready (.ballot f) s → exec (.ballot f) s = .next (put (scalar f.d true on ++ [.scc (on != 0)]))) ∧
  (Ready (.matchLanes f) s → exec (.matchLanes f) s = .next (put (match f.sub.toNat with
    | 0 => vector64 w d same
    | 1 => [vector w d fun L => BitVec.ofNat 32 ((List.range 64).countP fun j => (same L).getLsbD j)]
    | _ => [vector w d fun L => if same L &&& lanesBelow L = 0 then 1 else 0])))

/-- R158 to R160: RED and SCAN combine the active lanes, by rising lane, from the operation's identity; FRED combines them by a tree; VCOMPACT
moves active lanes to the lowest lanes, or back. -/
def Sys2Proof.Claims.ReductionResults : Prop := ∀ (s : State) (f : G64),
  let w := s.wave
  let d := f.d.toNat
  let x (L : Nat) : Word := w.vlane f.a.toNat L
  let put (xs : List WaveWrite) : State := after s 8 (landing s (vlat w) xs)
  let op (a b : Word) : Word := match f.sub.toNat with
    | 0 => a + b
    | 1 => if a.sle b then a else b
    | 2 => if a.sle b then b else a
    | 3 => if a.ule b then a else b
    | 4 => if a.ule b then b else a
    | 5 => a &&& b
    | 6 => a ||| b
    | _ => a ^^^ b
  let unit : Word := [0, 0x7FFFFFFF, 0x80000000, 0xFFFFFFFF, 0, 0xFFFFFFFF, 0, 0].getD f.sub.toNat 0
  let all (p : Nat → Bool) : Word :=
    ((List.range 64).filter fun L => w.act.getLsbD L && p L).foldl (fun a L => op a (x L)) unit
  let rank (L : Nat) : Nat := (List.range 64).countP fun j => w.act.getLsbD j && decide (j < L)
  (Ready (.red f) s → exec (.red f) s = .next (put
    (if f.mod = 1 then [.sreg d (all fun _ => true)] else [vector w d fun _ => all fun _ => true]))) ∧
  (Ready (.scan f) s → exec (.scan f) s = .next (put
    [vector w d fun L => all fun j => decide (j < L) || (f.mod == 0 && j == L)])) ∧
  (Ready (.fred f) s → w.fpctl.getLsbD 8 = false →
    exec (.fred f) s = .next (put
      (let r := (w.fredTree f.sub.toNat (w.fpctl.toNat % 8) f.a.toNat (Nat.log2 w.width) 0).1.getD
        ([0, 0x7F800000, 0xFF800000].getD f.sub.toNat 0xFF800000)
       if f.mod = 1 then [.sreg d r] else [vector w d fun _ => r]))) ∧
  (Ready (.vcompact f) s → f.sub ≠ 0 → exec (.vcompact f) s = .next (put [vector w d fun L => x (rank L)])) ∧
  (Ready (.vcompact f) s → f.sub = 0 →
    ∃ xs : List Word, exec (.vcompact f) s = .next (put [.vreg d (lanesBelow w.actList.length) xs]) ∧
      ∀ L < 64, w.act.getLsbD L = true → xs[rank L]? = some (x L))

/-- R161 to R165: the long accumulator adds the exact terms of the active lanes, each in units of 2^−320; LARD rounds it once;
LACLR, LASAVE and LARST clear, save and restore it. -/
def Sys2Proof.Claims.LongAccumulatorResults : Prop := ∀ (s : State) (k : K32) (f : G64),
  let w := s.wave
  let value (L : Nat) : FV := match f.sub.toNat with
    | 0 => fval (w.fa0 f L)
    | 1 => FV.ofInt (w.opA f L).toInt
    | _ => FV.ofInt (w.opA f L).toNat
  let product (L : Nat) : FV := (fval (w.fa0 f L)).mul (fval (w.fb0 f L))
  let signed (t : FV) : FV := if f.mod = 1 then t.negate else t
  let sum (t : Nat → FV) : Int := (w.actList.map fun L => (signed (t L)).scaled (-320)).foldl (· + ·) 0
  let word (i : Nat) : Word := if i < 20 then w.lacc.extractLsb' (32 * i) 32 else w.laccFlags
  let stored (i : Nat) : Word := w.vlane (f.a.toNat + i / 16) (i % 16)
  (Ready (.laclr k) s → exec (.laclr k) s = .next (after s 4 { w with lacc := 0, laccFlags := 0 })) ∧
  (∀ p ∈ ([(.laadd f, value), (.lafma f, product)] : List (Instr × (Nat → FV))), Ready p.1 s → IndexOk w f →
    (∀ L ∈ w.actList, (p.2 L).finite = true) →
    exec p.1 s = .next (after s 8 { w with lacc := w.lacc + BitVec.ofInt 640 (sum p.2) })) ∧
  (Ready (.laadd f) s → IndexOk w f → exec (.laadd f) s = .next (after s 8
    (w.actList.foldl (fun v L => v.laccAdd (signed (value L))) w))) ∧
  (Ready (.lard f) s → w.laccFlags = 0 → w.lacc.toInt ≠ 0 →
    let v := landing s (vlat w) [.sreg f.d.toNat
      (fround (mode w f.sub) (.num (decide (w.lacc.toInt < 0)) w.lacc.toInt.natAbs (-320)))]
    exec (.lard f) s = .next (after s 8 (if f.mod = 1 then { v with lacc := 0, laccFlags := 0 } else v))) ∧
  (Ready (.lasave f) s → exec (.lasave f) s = .next (after s 8 (landing s (vlat w)
    [.vreg f.d.toNat 0xFFFF ((List.range 16).map word),
     .vreg (f.d.toNat + 1) 0xFFFF ((List.range 16).map fun i => if i < 5 then word (16 + i) else 0)]))) ∧
  (Ready (.larst f) s →
    ((stored 20).toNat < 8 → ∃ x : BitVec 640,
      exec (.larst f) s = .next (after s 8 { w with lacc := x, laccFlags := stored 20 }) ∧
        ∀ i < 20, x.extractLsb' (32 * i) 32 = stored i) ∧
    (8 ≤ (stored 20).toNat → exec (.larst f) s = .next (s.faultAt 2 0 w.insAddr)))

/-! ### Function registers (R181 to R205) -/

/-- The next state of a function operation: it holds its wave until its decision point, at which it writes the function registers
(`regs`), and its other results land at its completion (R190). -/
def Sys2Proof.Claims.fnIssued (s : State) (cf : BitVec 4) (regs results : List WaveWrite) : State :=
  let t := issued s none (general cf) (.fn false regs results)
  { t with wave := { t.wave with hold := .outst s.fresh } }

/-- The second word of a header (R181): LOSSY, DEF, OFF, LEN, TE. -/
def Sys2Proof.Claims.headWord (lossy : Bool) (off len te : Nat) : Word :=
  (if lossy then (1 : BitVec 9) else 0) ++ (1 : BitVec 1) ++ BitVec.ofNat 8 off ++ BitVec.ofNat 6 len ++ BitVec.ofNat 8 te

/-- R181, R184, R188, R194, R195: FNDEF places a function of n zero coefficients on [a, b], or raises FN_DOMAIN 5 where a < b does not
hold of two finite numbers, or FN_POOL where it cannot be placed; FNFREE clears DEF of one register, or of all. -/
def Sys2Proof.Claims.FunctionDefinitionResults : Prop :=
  (∀ (s : State) (f : G64) (o k : Nat) (cut : Bool), Ready (.fndef f) s →
    let w := s.wave
    let a := w.fscalar f.a
    let b := w.fscalar f.b
    let n := f.mod.toNat * 16 + f.sub.toNat + 1
    let ok_ : Prop := (fval a).finite = true ∧ (fval b).finite = true ∧ (fval a).cmp (fval b) < 0
    (ok_ → w.place f.d.toNat n = .ok (o, k, cut) → o < 256 → k < 64 →
      exec (.fndef f) s = .next (after s 8 (landing s (vlat w) (.fnHead f.d.toNat a b (headWord cut o k f.c.toNat) ::
        (List.range k).map fun i => .pool (o + i) (lanesBelow w.width) (List.replicate 64 0))))) ∧
    (ok_ → ∀ m, w.place f.d.toNat n = .error m → exec (.fndef f) s = .next (s.faultAt 0x0D (n % 64 + 256 * m) w.insAddr)) ∧
    (¬ok_ → exec (.fndef f) s = .next (s.faultAt 0x0C 5 w.insAddr))) ∧
  (∀ (s : State) (f : K32), Ready (.fnfree f) s → (∀ p ∈ s.wave.pend, p.2.isFn = false) →
    let w := s.wave
    let freed (c : Nat) : WaveWrite :=
      .fnHead c (cget w.fn (3 * c)) (cget w.fn (3 * c + 1)) (cget w.fn (3 * c + 2) &&& 0xFFBFFFFF)
    exec (.fnfree f) s = .next (after s 4 (landing s (vlat w)
      (if f.imm = 1 then (List.range 16).map freed else [freed f.d.toNat]))))

/-- R184: Place takes the lowest run of free pool words that holds the result; where there is none it fails under STRICT, or where no word
is free, and otherwise shortens the result to the longest run. -/
def Sys2Proof.Claims.PoolPlacement : Prop := ∀ (w : Wave) (d n : Nat), 1 ≤ n → w.pend = [] →
  let free (i : Nat) : Prop := i < w.pwords ∧ ∀ c < 16, c ≠ d → (w.fnHead c).defd = true →
    i < (w.fnHead c).off ∨ (w.fnHead c).off + (w.fnHead c).len ≤ i
  let run (o k : Nat) : Prop := ∀ i, o ≤ i → i < o + k → free i
  (∀ o k cut, w.place d n = .ok (o, k, cut) → run o k ∧ k ≤ n ∧ (cut = false ↔ k = n) ∧
    (cut = false → ∀ q < o, ¬run q n) ∧ (cut = true → w.fnctl.getLsbD 0 = false ∧ ∀ q, ¬run q (k + 1))) ∧
  (∀ m, w.place d n = .error m → (∀ q, ¬run q n) ∧ (w.fnctl.getLsbD 0 = true ∨ m = 0))

/-- R188, R193: a function operation on a source that is not defined raises FN_DOMAIN 4, FNADD and FNMUL on different intervals FN_DOMAIN 1,
FNCOMP on an inner function that may leave the outer interval FN_DOMAIN 2; FNRESTR to an interval that is none of the source's
FN_DOMAIN 3. With no active lane, those that make a function have no effect (R187). -/
def Sys2Proof.Claims.FunctionDomainTraps : Prop := ∀ (s : State) (f : G64),
  let w := s.wave
  let a := w.fnHead f.a.toNat
  let b := w.fnHead f.b.toNat
  let trap (i : Instr) (detail : Nat) : Prop := exec i s = .next (s.faultAt 0x0C detail w.insAddr)
  (∀ i ∈ ([.fnadd f, .fnmul f, .fnscl f, .fncomp f, .fnint f, .fnder f, .fnrestr f] : List Instr), Ready i s →
    (w.act = 0 → exec i s = .next (after s 8 w)) ∧ (w.act ≠ 0 → a.defd = false → trap i 4)) ∧
  (∀ i ∈ ([.fneval f, .fnroot f, .fnext f] : List Instr), Ready i s → a.defd = false → trap i 4) ∧
  (∀ i ∈ ([.fnadd f, .fnmul f] : List Instr), Ready i s → w.act ≠ 0 → a.defd = true → b.defd = true →
    a.lo ≠ b.lo ∨ a.hi ≠ b.hi → trap i 1) ∧
  (Ready (.fncomp f) s → a.defd = true → b.defd = true →
    (∃ L ∈ w.actList, let r := rangeBound (w.fnVals b L); fpred 2 r.1 (fval a.lo) = true ∨ fpred 4 r.2 (fval a.hi) = true) →
    trap (.fncomp f) 2) ∧
  (Ready (.fnrestr f) s → w.act ≠ 0 → a.defd = true →
    0 ≤ (fval (w.fscalar f.b)).cmp (fval (w.fscalar f.c)) → trap (.fnrestr f) 3)

/-- R186, R190: Finish rounds the coefficients of every lane, drops trailing ones that are small in every active lane, places the
result and issues the writes of its header and rows; with no active lane there is no effect. -/
def Sys2Proof.Claims.FunctionFinish : Prop := ∀ (s : State) (cf : BitVec 4) (d : Nat) (r : FnResult),
  let w := s.wave
  let row (L : Nat) : List FV := if L < w.width then (r.coef L).map fun x => fval (fround 0 x) else []
  (w.act = 0 → settle s 8 (s.fnFinish (general cf) d r) = after s 8 w) ∧
  (w.act ≠ 0 → w.fpctl.getLsbD 8 = false → r.n ≤ 32 →
    let n := fnTrim r.te (w.actList.map fun L => (row L, rowMax ((row L).take r.n))) r.n
    ∀ o k cut, w.place d n = .ok (o, k, cut) → o < 256 → k < 64 → r.te < 256 →
      settle s 8 (s.fnFinish (general cf) d r) = fnIssued s cf
        (.fnHead d r.lo r.hi (headWord (r.lossy || cut) o k r.te) :: (List.range k).map fun j =>
          .pool (o + j) (lanesBelow w.width) ((List.range 64).map fun L => fround 0 ((row L).getD j (.num false 0 0)))) [])

/-- R196, R198 to R201: the function operations that make a function, where their sources pass the checks, finish with the coefficients,
interval, TE and LOSSY that their rules give. The model's choices, not the spec's, on which clauses rest: log entries 31, 32, 34. -/
def Obligations.FunctionOperationResults : Prop := ∀ (s : State) (f : G64),
  let w := s.wave
  let d := w.fnHead f.d.toNat
  let a := w.fnHead f.a.toNat
  let b := w.fnHead f.b.toNat
  let va (L : Nat) : List FV := w.fnVals a L
  let vb (L : Nat) : List FV := w.fnVals b L
  let zero : FV := .num false 0 0
  let half : FV := .num false 1 (-1)
  let same : Prop := a.defd = true ∧ b.defd = true ∧ a.lo = b.lo ∧ a.hi = b.hi
  let span : FV := fval (fround 0 (FV.sum false [fval a.hi, (fval a.lo).negate]))
  let hs (L : Nat) : List FV := (List.range d.len).map fun j => fval (w.vlane (f.a.toNat + j) L)
  let nc := min 32 ((a.len - 1) * (b.len - 1) + 1)
  let inner (L j : Nat) : FV := clenshaw (vb L) (cosTab (2 * j + 1) (2 * nc))
  let p := fval (w.fscalar f.b)
  let q := fval (w.fscalar f.c)
  let point (j : Nat) : FV :=
    fval (fround 0 ((FV.sum false [p, q, (FV.sum false [q, p.negate]).mul (cosTab (2 * j + 1) (2 * a.len))]).mul half))
  let finishes (i : Instr) (r : FnResult) : Prop := exec i s = .next (settle s 8 (s.fnFinish (general f.cf) f.d.toNat r))
  let result (lossy : Bool) (n : Nat) (coef : Nat → List FV) (ops : Nat → List FV) : FnResult :=
    { lo := a.lo, hi := a.hi, te := a.te, lossy := lossy, n := n, coef := coef, nan := fun L => (ops L).any FV.isNan }
  (Ready (.fnfit f) s → d.defd = true → f.a.toNat + d.len ≤ w.vregs →
    finishes (.fnfit f) { lo := d.lo, hi := d.hi, te := d.te, lossy := false, n := d.len,
                          coef := fun L => (List.range d.len).map (fitCoef (d.len - 1) (hs L)), nan := fun L => (hs L).any FV.isNan }) ∧
  (Ready (.fnadd f) s → same → finishes (.fnadd f) (result (a.lossy || b.lossy) (max a.len b.len)
    (fun L => (List.range (max (va L).length (vb L).length)).map fun k =>
      FV.sum false [(va L).getD k zero, if f.sub = 1 then ((vb L).getD k zero).negate else (vb L).getD k zero])
    fun L => va L ++ vb L)) ∧
  (Ready (.fnmul f) s → same → finishes (.fnmul f) (result (a.lossy || b.lossy) (a.len + b.len - 1)
    (fun L => fnMulCoef (va L) (vb L)) fun L => va L ++ vb L)) ∧
  (Ready (.fnscl f) s → a.defd = true → finishes (.fnscl f) (result a.lossy a.len
    (fun L => (va L).zipIdx.map fun x =>
      FV.sum false ((fval (w.fb0 f L)).mul x.1 :: if x.2 = 0 then [fval (w.fc f L)] else []))
    fun L => va L ++ [fval (w.fb0 f L), fval (w.fc f L)])) ∧
  (Ready (.fnint f) s → a.defd = true → finishes (.fnint f) (result a.lossy (a.len + 1)
    (fun L => fnIntCoef (fval (fround 0 (span.mul half))) (va L)) fun L => va L ++ [])) ∧
  (Ready (.fnder f) s → a.defd = true → finishes (.fnder f) (result a.lossy (max 1 (a.len - 1))
    (fun L => fnDerCoef (fval (fround 0 (FV.div 64 (FV.ofInt 2) span))) (va L)) fun L => va L ++ [])) ∧
  (Ready (.fncomp f) s → a.defd = true → b.defd = true →
    (∀ L ∈ w.actList, let r := rangeBound (vb L); fpred 2 r.1 (fval a.lo) = false ∧ fpred 4 r.2 (fval a.hi) = false) →
    finishes (.fncomp f) { lo := b.lo, hi := b.hi, te := a.te, lossy := a.lossy || b.lossy, n := nc,
                           coef := fun L => (List.range nc).map (nodeCoef ((List.range nc).map fun j =>
                             clenshaw (va L) (fnNorm (inner L j) (fval a.lo) (fval a.hi)))),
                           nan := fun L => (va L ++ vb L).any FV.isNan }) ∧
  (Ready (.fnrestr f) s → a.defd = true → p.finite = true → q.finite = true → p.cmp q < 0 → 0 ≤ p.cmp (fval a.lo) →
    q.cmp (fval a.hi) ≤ 0 →
    finishes (.fnrestr f) { lo := w.fscalar f.b, hi := w.fscalar f.c, te := a.te, lossy := a.lossy, n := a.len,
                            coef := fun L => (List.range a.len).map (nodeCoef ((List.range a.len).map fun j =>
                              clenshaw (va L) (fnNorm (point j) (fval a.lo) (fval a.hi)))),
                            nan := fun L => (va L).any FV.isNan })

/-- R197, R202 to R205: the function operations that read a function, and FNLD and FNCOEF.set: their results where NANTRAP is
clear. The model's choices, not the spec's, on which clauses rest: log entries 36, 37, 38. -/
def Obligations.FunctionReadAndLoadResults : Prop := ∀ (s : State) (f : G64), s.wave.fpctl.getLsbD 8 = false →
  let w := s.wave
  let a := w.fnHead f.a.toNat
  let h := w.fnHead f.d.toNat
  let d := f.d.toNat
  let k := (w.sop f.b).toNat
  let coefficient (i L : Nat) : Word := cget w.pool (64 * (a.off + i) + L)
  let full := lanesBelow w.width
  let x (i : Nat) : Word := w.vlane f.a.toNat i
  let given : FnHead := { lo := x 0, hi := x 1, w2 := x 2 }
  (Ready (.fneval f) s → a.defd = true → exec (.fneval f) s = .next (fnIssued s f.cf []
    [vector w d fun L => fround 0 (w.fnEval a (fval (w.fb0 f L)) L)])) ∧
  (Ready (.fnroot f) s → a.defd = true → exec (.fnroot f) s = .next (fnIssued s f.cf []
    [vector w d fun L => fnRootOf a.lo a.hi ((List.range a.len).map fun i => coefficient i L) (w.opB f L).toNat])) ∧
  (Ready (.fnext f) s → a.defd = true → exec (.fnext f) s = .next (fnIssued s f.cf []
    [vector w d fun L => fround 0 (w.fnExt a f.sub.toNat L)])) ∧
  (Ready (.fncoef f) s → f.sub = 0 → a.defd = true → exec (.fncoef f) s = .next (fnIssued s f.cf []
    [vector w d fun L => if k < a.len then coefficient k L else 0])) ∧
  (Ready (.fncoef f) s → f.sub = 1 → h.defd = true → k < h.len → w.act ≠ 0 →
    exec (.fncoef f) s = .next (fnIssued s f.cf [.pool (h.off + k) w.act (w.perLane (w.fa0 f))] [])) ∧
  (Ready (.fncoef f) s → f.sub = 2 → exec (.fncoef f) s = .next (fnIssued s f.cf []
    [.sreg d (if a.defd then BitVec.ofNat 32 a.len else 0), .scc a.lossy])) ∧
  (Ready (.fnst f) s → let n := if a.defd then a.len else 0
    d + 1 + n ≤ w.vregs → exec (.fnst f) s = .next (fnIssued s f.cf []
      (.vreg d full ([a.lo, a.hi, a.w2] ++ List.replicate 61 0) ::
        (List.range n).map fun i => .vreg (d + 1 + i) full ((List.range 64).map (coefficient i))))) ∧
  (Ready (.fnld f) s → x 0 = 0 → x 1 = 0 → x 2 = 0 → w.pend = [] → exec (.fnld f) s = .next (fnIssued s f.cf
    [.fnHead d h.lo h.hi (h.w2 &&& 0xFFBFFFFF)] [])) ∧
  (Ready (.fnld f) s → given.defd = true → given.w2.toNat < 2 ^ 24 → 1 ≤ given.len → given.len ≤ 32 →
    given.te = 0 ∨ 129 ≤ given.te → (fval given.lo).finite = true → (fval given.hi).finite = true →
    (fval given.lo).cmp (fval given.hi) < 0 → f.a.toNat + 1 + given.len ≤ w.vregs →
    ∀ o n cut, w.place d given.len = .ok (o, n, cut) → o < 256 → n < 64 → exec (.fnld f) s = .next (fnIssued s f.cf
      (.fnHead d given.lo given.hi (headWord (given.lossy || cut) o n given.te) :: (List.range n).map fun j =>
        .pool (o + j) full ((List.range 64).map fun L => w.vlane (f.a.toNat + 1 + j) L)) []))

/-! ### Memory instructions (R206 to R269, R352, R365) -/

/-- The offset of lane `L` of a memory instruction: operand A, zero-extended, plus the signed immediate (R255). -/
def Sys2Proof.Claims.offset (w : Wave) (f : M64) (L : Nat) : Int :=
  (if f.asc then (w.sop f.a).toNat else (w.vlane f.a.toNat L).toNat : Nat) + f.imm.toInt

/-- The virtual address of an offset through a translation register (R224). -/
def Sys2Proof.Claims.address (t : TransReg) (off : Int) : Nat := (((t.vbase.toNat : Int) + off) % (2 ^ 64 : Nat)).toNat

/-- An offset that a register translates without a walk (R224). -/
def Sys2Proof.Claims.Direct (t : TransReg) (off : Int) : Prop := t.stale = false ∧ 0 ≤ off ∧ off < (t.limit.toNat : Int)

/-- A memory instruction of `n` bytes a lane passes the checks of R255: its register is valid, every active lane's address is a multiple
of n below 2^52, and where the register translates it, its page may be so accessed. -/
def Sys2Proof.Claims.MemOk (w : Wave) (f : M64) (n : Nat) (acc : Access) : Prop :=
  let t := w.treg f.tr.toNat
  t.valid = true ∧ ∀ L ∈ w.actList,
    address t (offset w f L) % n = 0 ∧ address t (offset w f L) < 2 ^ 52 ∧
      (Direct t (offset w f L) → permFail t acc = none ∧ geomFail t = none)

/-- The state with the release part of an order noted (R352). -/
def Sys2Proof.Claims.released (s : State) (f : M64) : State :=
  if releases f.order.toNat then { s with wave := s.wave.tick } else s

/-- The memory instructions: instruction, kind of access, whether it writes, class counter, what each lane brings, effect. -/
def Sys2Proof.Claims.memInstrs (w : Wave) (f : M64) :
    List (Instr × Access × Bool × Nat × (Nat → List Byte) × (MemCap → Effect)) :=
  let n := 2 ^ f.size.toNat
  let d := f.d.toNat
  let own := w.regBytes d n
  let op := f.aop.toNat
  [(.ld f, .load, false, 0, fun _ => [], fun c => .load c d (f.aop.getLsbD 2) (op % 4 != 1)),
   (.st f, .store, true, 1, own, fun c => .store c), (.atom f, .atomic, false, 0, own, fun c => .atomic c op (some d)),
   (.atomn f, .store, true, 1, own, fun c => .atomic c op none)] ++
    if f.aop = 1 then [] else [(.cas f, .atomic, false, 0, w.regBytes d (2 * n), fun c => .cas c d)]

/-- R92, R255, R258, R262, R263: a load, store, atomic or CAS that passes its checks issues: its class counter and general counter rise, and
what it captured of its active lanes is outstanding; no register and no byte of storage changes at issue. (A store needs room in the side log
where a lane's page is not yet known; race-checked pages are apart.) -/
def Sys2Proof.Claims.MemoryInstructionsIssue : Prop := ∀ (s : State) (f : M64),
  let w := s.wave
  let n := 2 ^ f.size.toNat
  let s1 := released s f
  ∀ p ∈ memInstrs w f,
    let (i, acc, wr, cls, data, eff) := p
    let c := w.capture f n data
    Ready i s → MemOk w f n acc →
    (wr = true → s.logRoom w.core = true ∨ ∀ L ∈ w.actList, Direct c.tr (offset w f L)) →
    (∀ la ∈ c.lanes, s1.rcLane c la = false) →
    exec i s = .next (issued s1 (some cls) (general f.cf) (eff c))

/-- R248, R255: what a memory instruction captures: its register, and each active lane once with its offset and data, by rising 256-byte line;
lanes of one line stand in lane order. -/
def Sys2Proof.Claims.CaptureHoldsTheActiveLanes : Prop := ∀ (w : Wave) (f : M64) (n : Nat) (data : Nat → List Byte),
  let c := w.capture f n data
  let t := w.treg f.tr.toNat
  let line (la : LaneAcc) : Nat := address t la.off / 256
  c.tr = t ∧ c.done = [] ∧ c.nbytes = n ∧
    c.lanes.Perm (w.actList.map fun L => { lane := L, off := offset w f L, data := data L }) ∧
    c.lanes.Pairwise fun x y => line x < line y ∨ line x = line y ∧ x.lane < y.lane

/-- R224, R255: a register that is not valid raises ILLEGAL_OPERAND; then the lowest lane with a misaligned address raises MISALIGNED with its
number, one with an address of 2^52 or above PROTECTION 4, each with the address. -/
def Obligations.MemoryIssueTraps : Prop := ∀ (s : State) (f : M64),
  let w := s.wave
  let n := 2 ^ f.size.toNat
  let t := w.treg f.tr.toNat
  let va (L : Nat) : Nat := address t (offset w f L)
  ∀ p ∈ memInstrs w f, Ready p.1 s →
    (t.valid = false → exec p.1 s = .next (s.faultAt 2 0 w.insAddr)) ∧
    (t.valid = true → ∀ L, LowestLane w (fun L => va L % n != 0) L →
      exec p.1 s = .next (s.faultAt 5 L (BitVec.ofNat 64 (va L)))) ∧
    (t.valid = true → (∀ L ∈ w.actList, va L % n = 0) → ∀ L, LowestLane w (fun L => decide (2 ^ 52 ≤ va L)) L →
      exec p.1 s = .next (s.faultAt 8 4 (BitVec.ofNat 64 (va L))))

/-- R261, R263: what the atomic operations write, by number, on 32 or 64 bits; CAS writes the new value only where the old one equals the
comparand. -/
def Sys2Proof.Claims.AtomicValues : Prop := ∀ (n : Nat) (o b : BitVec n), n = 32 ∨ n = 64 →
  let minmax (g u : Bool) : BitVec n := if (if u then o.ule b else o.sle b) = g then b else o
  (∀ p ∈ ([(0, o + b), (1, o - b), (2, minmax false false), (3, minmax true false), (4, minmax false true), (5, minmax true true),
      (6, o &&& b), (7, o ||| b), (8, o ^^^ b), (9, b), (10, if b.ule o then 0 else o + 1),
      (11, if o = 0 ∨ b.ult o then b else o - 1)] : List (Nat × BitVec n)),
    BitVec.ofNat n (atomicOp p.1 n o.toNat b.toNat) = p.2) ∧
  (∀ (old new comparand : List Byte), comparand.length = old.length →
    casBytes (comparand ++ new) old = if old = comparand then new else old)

/-- An access of `n` bytes of one line, at offset `o` of page `t` of frame space, that nothing stands in the way of: neither a newer or
older generation (R227), nor a frame record of another placement (R222), a seal (R251), a move (R237), replicas (R220), a binding
(R246), a lease (R250) or a host copy (R378), nor another die's copy of the line or a message about it (R373); and the snoop filter
has room (R375). -/
def Sys2Proof.Claims.Free (s : State) (t : TransReg) (o n : Nat) (wr : Bool) : Prop :=
  let pa := t.ppage + o
  let r := s.frameRec pa
  let key := (store t.ppage t.pw o).key
  let line := key / 128
  key < 2 ^ 47 ∧ key % 128 + n ≤ 128 ∧ (s.copies.map Prod.fst).Pairwise (· < ·) ∧ s.dir.length < 16 ∧ tfind s.dir line = none ∧
    (∀ d < 4, tfind s.copies (2 ^ 40 * d + line) = none) ∧ (∀ m ∈ s.msgs, m.line ≠ line) ∧
  t.kind ≠ 2 ∧ t.kind ≠ 3 ∧ inChip pa = false ∧ recHgen r = t.gen.toNat ∧
    (recSet r = false ∨ recPw r = t.pw ∧ recPsize r = t.psize.toNat) ∧ s.moves = [] ∧ pwHome t.pw ≠ 2 ∧ s.boundAt pa = none ∧
    (wr = true → (t.kind = 1 → s.sealed pa = false) ∧ s.hostHolds line = false ∧ s.leased line = false) ∧ 0 < n

/-- R217, R222, R372: an unobstructed access of frame space reads the bytes at its storage key, and a write replaces exactly them: every other byte reads
as before, from storage or from the copy on a die that is newer; the frame's record gets its ACC bit, and its DIRTY bit for a write. The model's
choices, not the spec's, on which clauses rest: log entries 45, 62, 143. -/
def Obligations.FrameAccessReadsAndWrites : Prop :=
  ∀ (s : State) (core : Nat) (t : TransReg) (o n : Nat) (wr : Bool) (f : List Byte → List Byte),
    let key := (store t.ppage t.pw o).key
    let old := (List.range n).map fun i => cget s.mem (key + i)
    let byte (s : State) (k : Nat) : Byte := (s.valueAt k 1).headD 0
    cellsWf s.mem = true → Free s t o n wr → (f old).length = n →
      ∃ u bad, s.access core t o n wr false f = .ok u old bad ∧ u.wave = s.wave ∧ u.waves = s.waves ∧ u.cores = s.cores ∧
        (∀ k < 2 ^ 47, byte u k = if wr = true ∧ key ≤ k ∧ k < key + n then (f old).getD (k - key) 0 else byte s k) ∧
        (u.frameRec (t.ppage + o)).getLsbD 48 = true ∧ (wr = true → (u.frameRec (t.ppage + o)).getLsbD 49 = true)

/-- R244, R259, R262, R263: a scratchpad instruction that passes its checks issues: its counters rise, and what it captured of its active
lanes, through the group's own scratchpad, is outstanding; no register and no byte of storage changes at issue. -/
def Sys2Proof.Claims.ScratchpadInstructionsIssue : Prop := ∀ (s : State) (f : M64),
  let w := s.wave
  let n := 2 ^ f.size.toNat
  let d := f.d.toNat
  let own := w.regBytes d n
  let fits (wr rd : Bool) : Prop := s.myGroup.spadLen < 2 ^ 33 ∧ ∀ L ∈ w.actList, let off := offset w f L
    address TransReg.reset off % n = 0 ∧ 0 ≤ off ∧ off + n ≤ (s.myGroup.spadLen : Int) ∧
      (wr = true → s.objIn w.core w.gslot off.toNat n = none) ∧
      (rd = true → s.poisoned (spadPa w.core (s.myGroup.spadBase + off.toNat)) n = false)
  ∀ (i : Instr) (rd wr : Bool) (cls : Nat) (data : Nat → List Byte) (eff : MemCap → Effect),
    (i, rd, wr, cls, data, eff) ∈
      ([(.lds f, true, false, 0, fun _ => [], fun c => .load c d (f.aop.getLsbD 2) false),
      (.sts f, false, true, 1, own, fun c => .store c), (.atoms f, true, true, 0, own, fun c => .atomic c f.aop.toNat (some d))] ++
        (if f.aop = 1 then [(.cas f, true, true, 0, w.regBytes d (2 * n), fun c => .cas c d)] else []) :
      List (Instr × Bool × Bool × Nat × (Nat → List Byte) × (MemCap → Effect))) →
    let c := w.captureOn f 8 s.spadReg n (w.actList.map fun L => { lane := L, off := offset w f L, data := data L })
    Ready i s → fits wr rd → exec i s = .next (issued (released s f) (some cls) (general f.cf) (eff c))

/-- R241, R244, R259: a lane of a scratchpad instruction, when it is performed, reads the bytes of its group's scratchpad at its offset, and
a write replaces exactly them; global storage does not change. -/
def Sys2Proof.Claims.ScratchpadLane : Prop :=
  ∀ (s : State) (c : MemCap) (la : LaneAcc) (h : How) (g : List Byte → List Byte),
  let core := s.wave.core
  let n := c.nbytes
  let base := s.myGroup.spadBase + la.off.toNat
  let old := (List.range n).map fun i => cget (s.core core).spad (base + i)
  let wr : Prop := h.acc ≠ .load
  c.tr = s.spadReg → core < 384 → s.myGroup.spadBase + s.myGroup.spadLen ≤ 0x80000 → 1 ≤ n → 0 ≤ la.off →
  la.off + n ≤ (s.myGroup.spadLen : Int) → cellsWf (s.core core).spad = true → s.poisoned (spadPa core base) n = false →
  (wr → s.objAtPhys core base n = none ∧ s.spadHeld core base = none ∧ (g old).length = n) →
    ∃ u, s.laneDo c la h g = .ok u old none ∧ u.mem = s.mem ∧ ∀ d k,
      (wr → cget (u.core d).spad k = if d = core ∧ base ≤ k ∧ k < base + n then (g old).getD (k - base) 0 else cget (s.core d).spad k) ∧
      (¬wr → cget (u.core d).spad k = cget (s.core d).spad k)

/-- R258: the registers a load of `n` bytes lands: word i of a lane's bytes goes to register d + i, least significant byte first, extended
with zeros or, with `.s`, with the sign; lanes that were not read keep their value. -/
def Sys2Proof.Claims.LoadedRegisters : Prop := ∀ (w : Wave) (d n L i : Nat) (sx : Bool) (done : List LaneAcc) (la : LaneAcc),
  cellsWf w.v = true → n ∈ [1, 2, 4, 8, 16, 32] → L < 64 → i < max 1 (n / 4) → la ∈ done → la.lane = L → la.data.length = n →
  (∀ x ∈ done, x.lane = L → x = la) →
  let x := ((loadWrites d n sx done).foldl landWave w).vlane (d + i) L
  (4 ≤ n → x = BitVec.ofNat 32 (ofBytes ((la.data.drop (4 * i)).take 4))) ∧
  (n = 1 → x = if sx then (la.data.getD 0 0).signExtend 32 else (la.data.getD 0 0).setWidth 32) ∧
  (n = 2 → x = if sx then (la.data.getD 1 0 ++ la.data.getD 0 0).signExtend 32 else (la.data.getD 1 0 ++ la.data.getD 0 0).setWidth 32)

/-- R260, R266 to R269, R265: LDK reads the captured arguments, or issues a read of global memory; TRANS issues a walk; TRINV clears VALID of one
register or all; CACHE drops the cached code, constants or counted copies; PREF changes no register, nor, where no other die holds newer bytes, any byte of storage; FENCE retires
once the accesses before it are done, and until then holds; what it releases is what lay before it (R352). The model's choices, not the spec's, on which clauses rest: log entries 19, 56, 57, 60. -/
def Obligations.ConstantTranslationAndCacheResults : Prop := ∀ (s : State) (f : M64),
  let w := s.wave
  let n := 2 ^ f.size.toNat
  let d := f.d.toNat
  let off : Int := ((w.sop f.a).toNat : Int) + f.imm.toInt
  let t := w.treg f.tr.toNat
  let args := s.myLaunch.args
  let va := w.sop64 f.a + f.imm.signExtend 64
  let core := s.core w.core
  let releasing := releases f.order.toNat
  let acquiring := acquires f.order.toNat
  let blocked : Prop := (releasing = true ∧ s.accessesDone s.fresh = false) ∨ (acquiring = true ∧ s.readsDone = false)
  let put (c : Core) : State := after { s with cores := tset s.cores w.core c } 8 w
  (Ready (.ldk f) s → f.aop = 0 → address TransReg.reset off % n = 0 → 0 ≤ off → off + n ≤ (args.length : Int) →
    exec (.ldk f) s = .next (issued s (some 0) (general f.cf) (.writes
      ((wordsOf ((args.drop off.toNat).take n)).zipIdx.map fun x => .sreg (d + x.2) x.1)))) ∧
  (Ready (.ldk f) s → f.aop = 0 → address TransReg.reset off % n = 0 → off < 0 ∨ (args.length : Int) < off + n →
    exec (.ldk f) s = .next (s.faultAt 8 13 (BitVec.ofNat 64 (address TransReg.reset off)))) ∧
  (Ready (.ldk f) s → f.aop = 1 → t.valid = true → address t off % n = 0 → address t off < 2 ^ 52 →
    (Direct t off → permFail t .load = none ∧ geomFail t = none) →
    exec (.ldk f) s = .next (issued s (some 0) (general f.cf)
      (.ldk (w.captureOf f n [{ lane := 0, off := off, data := [] }]) d))) ∧
  (Ready (.trans f) s → va.toNat < 2 ^ 52 → exec (.trans f) s = .next (issued s (some 0) (general f.cf) (.trans f.tr.toNat va))) ∧
  (Ready (.trinv f) s → ∃ l : Table TransReg, exec (.trinv f) s = .next (after s 8 { w with tr := l }) ∧
    ∀ k < 8, tget TransReg.reset l k = if f.aop = 1 ∨ k = f.tr.toNat then { w.treg k with valid := false } else w.treg k) ∧
  (Ready (.cache f) s → f.aop = 0 → exec (.cache f) s = .next (put { core with icacheUnits := [], icache := [] })) ∧
  (Ready (.cache f) s → f.aop = 1 → exec (.cache f) s = .next (put { core with kcacheUnits := [], kcache := [] })) ∧
  (Ready (.cache f) s → f.aop = 3 → exec (.cache f) s = .next (put { core with counted := [] })) ∧
  (Ready (.cache f) s → f.aop = 2 → t.valid = true → ∃ l : List Nat, exec (.cache f) s = .next (put { core with counted := l }) ∧
    ∀ x ∈ l, x ∈ core.counted) ∧
  (Ready (.pref f) s → t.valid = true → ∃ u, exec (.pref f) s = .next u ∧ u.waves = s.waves ∧
    u.wave = w.advance 8 s.clock ∧ ((∀ p ∈ s.copies, p.2.state ≠ .m ∧ p.2.state ≠ .o) → u.mem = s.mem)) ∧
  (Ready (.fence f) s →
    (blocked → exec (.fence f) s = .next (heldAt s (.fence f) { s with wave := { w with hold := .issued } })) ∧
    (¬blocked → releasing = false → w.hbAcq = [] → exec (.fence f) s = .next (after s 8 w)) ∧
    (¬blocked → ∃ hb rl, exec (.fence f) s = .next (after s 8 { w with hb := hb, hbRel := rl }) ∧ (releasing = false → rl = w.hbRel) ∧
      (releasing = false → acquiring = false → hb = w.hb) ∧
      (releasing = true → acquiring = false → (f.scope.toNat, w.hb) ∈ rl ∧ hb = w.tick.hb)))
/-! ### Barrier objects, copies, write-once units and bindings (R236 to R251, R270 to R285) -/

/-- The offset that operand A and the immediate of a wave-uniform instruction give (R277, R284). -/
def Sys2Proof.Claims.uniform (w : Wave) (f : M64) : Int := ((w.sop f.a).toNat : Int) + f.imm.toInt

/-- Operand A and the immediate name the live barrier object `o` of the wave's group (R277). -/
def Sys2Proof.Claims.Names (s : State) (f : M64) (o : BarrierObj) : Prop :=
  let off := uniform s.wave f
  off % 16 = 0 ∧ 0 ≤ off ∧ off + 16 ≤ (s.myGroup.spadLen : Int) ∧ s.findObj s.wave.core s.wave.gslot off.toNat = some o

/-- PHASE has passed the phase number of operand D: it lies 1 to 32767 after it, modulo 2^16 (R279). -/
abbrev Sys2Proof.Claims.Passed (phase : BitVec 16) (x : Word) : Prop :=
  1 ≤ (phase - x.setWidth 16).toNat ∧ (phase - x.setWidth 16).toNat ≤ 32767

/-- The new object of BINIT (R277). -/
def Sys2Proof.Claims.newObj (g off : Nat) (n : BitVec 16) : BarrierObj :=
  { gslot := g, off := off, expcnt := n, arrcnt := 0, phase := 0, expbytes := 0, arrbytes := 0, users := 0,
    vc := [], vcDone := [], vcBytes := [], vcBytesDone := [] }

/-- R276: a step leaves an object with its new fields; where ARRCNT = EXPCNT and ARRBYTES = EXPBYTES the phase ends: PHASE rises by 1
and the three counts are cleared. Every other object stays, the 16 bytes of the object in scratchpad show it, and each BWAIT whose
phase number PHASE has passed retires, with what it acquires; of every wave nothing else changes. -/
def Sys2Proof.Claims.BarrierObjectStep : Prop := ∀ (s : State) (c : Nat) (o p : BarrierObj),
  s.findObj c o.gslot o.off = some p → cellsWf (s.core c).spad = true →
    let t := s.objStep c o
    let full : Prop := o.arrcnt = o.expcnt ∧ o.arrbytes = o.expbytes
    let phase := if o.arrcnt = o.expcnt ∧ o.arrbytes = o.expbytes then o.phase + 1 else o.phase
    let freed (q : BarrierObj) (w : Wave) : Wave := match w.hold with
      | .bwait off n acq =>
        if w.core = c ∧ w.gslot = o.gslot ∧ off = o.off ∧ Passed phase (BitVec.ofNat 32 n) then
          { (Wave.advance { (w.observe q n acq) with hold := .none } 8 s.clock) with lastIssue := w.lastIssue }
        else w
      | _ => w
    ∃ q, t.findObj c o.gslot o.off = some q ∧ q.expcnt = o.expcnt ∧ q.users = o.users ∧
      (full → q.phase = o.phase + 1 ∧ q.arrcnt = 0 ∧ q.arrbytes = 0 ∧ q.expbytes = 0) ∧ (¬full → q = o) ∧
      (∀ d g off, d ≠ c ∨ g ≠ o.gslot ∨ off ≠ o.off → t.findObj d g off = s.findObj d g off) ∧
      cgetList (t.core c).spad ((s.group c o.gslot).spadBase + o.off) 16 = toBytes q.expcnt.toNat 2 ++ [0, 0] ++
        toBytes q.arrcnt.toNat 2 ++ toBytes q.phase.toNat 2 ++ toBytes q.expbytes.toNat 4 ++ toBytes q.arrbytes.toNat 4 ∧
      t.mem = s.mem ∧ ((∀ w ∈ s.allWaves, ∀ off n a, w.hold = .bwait off n a → n < 2 ^ 16) →
        t.wave = freed q s.wave ∧ t.waves = s.waves.map (freed q)) ∧
      ∀ (w : Wave) (n : Nat) (a : Option Nat), ∃ hb, w.observe q n a = { w with hb := hb }

/-- R277 to R279: BINIT makes a live object with no arrival in phase 0, and BINIT.inv ends an idle one; BARR adds arrivals, at once or, behind
what it must follow, later; BEXP adds expected bytes; each is outstanding on k1. BWAIT retires once PHASE has passed its number, and
until then holds the wave. -/
def Sys2Proof.Claims.BarrierObjectResults : Prop := ∀ (s : State) (f : M64),
  let w := s.wave
  let x := w.sop f.d
  let off := uniform w f
  let core := s.core w.core
  let rel := releases f.order.toNat
  let acq := if acquires f.order.toNat then some f.scope.toNat else none
  let follows : Prop := w.barrWaits = true ∨ (rel = true ∧ s.accessesDone s.fresh = false)
  (Ready (.binit f) s → f.aop = 0 → off % 16 = 0 → 0 ≤ off → off + 16 ≤ (s.myGroup.spadLen : Int) → 1 ≤ x.toNat → x.toNat ≤ 65535 →
    s.findObj w.core w.gslot off.toNat = none → core.objs.length < 64 → w.barrWaits = false →
    ∃ u, exec (.binit f) s = .next (issued u (some 1) (general f.cf) (.writes [])) ∧
      u.findObj w.core w.gslot off.toNat = some (newObj w.gslot off.toNat (x.setWidth 16)) ∧
      (∀ c g k, c ≠ w.core ∨ g ≠ w.gslot ∨ k ≠ off.toNat → u.findObj c g k = s.findObj c g k) ∧
      u.wave = w ∧ u.waves = s.waves ∧ u.mem = s.mem) ∧
  ∀ o, Names s f o →
  (Ready (.binit f) s → f.aop = 1 → o.arrcnt = 0 → o.arrbytes = 0 → o.expbytes = 0 → o.users = 0 →
    (∀ v ∈ s.allWaves, v.core = w.core → v.gslot = w.gslot → ∀ n a, v.hold ≠ .bwait o.off n a) → w.barrWaits = false →
    exec (.binit f) s = .next (issued { s with cores := tset s.cores w.core { core with
      objs := core.objs.filter fun p => !(p.gslot == o.gslot && p.off == o.off) } } (some 1) (general f.cf) (.writes []))) ∧
  (Ready (.barr f) s → 1 ≤ x.toNat → x.toNat ≤ 65535 → ¬follows → o.arrcnt.toNat + x.toNat ≤ o.expcnt.toNat →
    let t := s.objStep w.core { o with
      arrcnt := o.arrcnt + x.setWidth 16, vc := (w.barrMsgs f.order.toNat f.scope.toNat).foldl addMsg o.vc }
    exec (.barr f) s = .next (issued (if rel then { t with wave := t.wave.tick } else t) (some 1) (general f.cf) (.writes []))) ∧
  (Ready (.barr f) s → 1 ≤ x.toNat → x.toNat ≤ 65535 → follows →
    exec (.barr f) s = .next (issued s (some 1) (general f.cf) (.barr o.off x.toNat (if rel then f.scope.toNat + 1 else 0)))) ∧
  (Ready (.bexp f) s → w.barrWaits = false →
    exec (.bexp f) s = .next (issued (s.objStep w.core { o with expbytes := o.expbytes + x }) (some 1) (general f.cf) (.writes []))) ∧
  (Ready (.bwait f) s → Passed o.phase x →
    exec (.bwait f) s = .next (after s 8 (w.observe o (x.toNat % 2 ^ 16) acq))) ∧
  (Ready (.bwait f) s → ¬Passed o.phase x →
    exec (.bwait f) s = .next { s with wave := { w with
      hold := .bwait o.off (x.toNat % 2 ^ 16) acq, lastIssue := s.clock + 1 } })

/-- R275, R277, R278: the traps of the instructions on barrier objects: a misaligned offset, one outside the group's scratchpad, no live object
(3), one already live (2), a 65th object of the core (4), a count outside 1 to 65535, a count above EXPCNT (5), BINIT.inv of an object in use (6). -/
def Sys2Proof.Claims.BarrierObjectTraps : Prop := ∀ (s : State) (f : M64),
  let w := s.wave
  let x := w.sop f.d
  let off := uniform w f
  let va := BitVec.ofInt 64 off
  let inside : Prop := off % 16 = 0 ∧ 0 ≤ off ∧ off + 16 ≤ (s.myGroup.spadLen : Int)
  let live := s.findObj w.core w.gslot off.toNat
  (∀ i ∈ ([.binit f, .barr f, .bwait f, .bexp f] : List Instr), Ready i s →
    (off % 16 ≠ 0 → exec i s = .next (s.faultAt 5 0 va)) ∧
    (off % 16 = 0 → off < 0 ∨ (s.myGroup.spadLen : Int) < off + 16 → exec i s = .next (s.faultAt 8 9 va)) ∧
    (i ≠ .binit f ∨ f.aop = 1 → inside → live = none → exec i s = .next (s.faultAt 0x0B 3 va))) ∧
  (Ready (.binit f) s → f.aop = 0 → inside →
    (x.toNat = 0 ∨ 65535 < x.toNat → exec (.binit f) s = .next (s.faultAt 2 0 w.insAddr)) ∧
    (1 ≤ x.toNat → x.toNat ≤ 65535 → live.isSome = true → exec (.binit f) s = .next (s.faultAt 0x0B 2 va)) ∧
    (1 ≤ x.toNat → x.toNat ≤ 65535 → live = none → 64 ≤ (s.core w.core).objs.length →
      exec (.binit f) s = .next (s.faultAt 0x0B 4 va))) ∧
  ∀ o, Names s f o →
  (Ready (.binit f) s → f.aop = 1 → o.arrcnt ≠ 0 ∨ o.arrbytes ≠ 0 ∨ o.expbytes ≠ 0 ∨ o.users ≠ 0 ∨
      (∃ v ∈ s.allWaves, v.core = w.core ∧ v.gslot = w.gslot ∧ ∃ n a, v.hold = .bwait o.off n a) →
    exec (.binit f) s = .next (s.faultAt 0x0B 6 va)) ∧
  (Ready (.barr f) s → x.toNat = 0 ∨ 65535 < x.toNat → exec (.barr f) s = .next (s.faultAt 2 0 w.insAddr)) ∧
  (Ready (.barr f) s → 1 ≤ x.toNat → x.toNat ≤ 65535 → w.barrWaits = false →
    (releases f.order.toNat = true → s.accessesDone s.fresh = true) → o.expcnt.toNat < o.arrcnt.toNat + x.toNat →
    exec (.barr f) s = .next (s.faultAt 0x0B 5 va))

/-- The wave's open batch goes to its copy channel, on k2 (R271). -/
def Sys2Proof.Claims.committed (s : State) (obj : Option Nat) (bytes : Nat) : State :=
  let w := s.wave
  let o : Outst :=
    { id := s.fresh, cls := some 2, cf := none, pc := w.insAddr, issued := s.clock, holds := false, token := false,
      eff := .batch w.batch obj bytes [], wait := .ready, vc := w.hb }
  { s with fresh := s.fresh + 1, wave := { w with
      batch := [], k := cset w.k 2 (cget w.k 2 + 1), outst := w.outst ++ [o], unwaited := w.unwaited ++ [(2, s.fresh)] } }

/-- The lanes of a CPA (R270): destination offset, source offset, valid bytes, bytes. -/
def Sys2Proof.Claims.copyLane (w : Wave) (f : M64) (L : Nat) : LaneCopy :=
  let n := 2 ^ f.size.toNat
  { lane := L, dst := (BitVec.ofInt 64 (((w.vlane f.d.toNat L).toNat : Int) + f.imm.toInt)).toNat,
    src := ((if f.asc then w.sop f.a else w.vlane f.a.toNat L).toNat : Int),
    valid := if f.aop = 0 then n else min (w.xlane (f.aop.toNat - 8) L) n, total := n }

/-- What R270 and R255 ask of one lane of a CPA. -/
def Sys2Proof.Claims.CopyOk (s : State) (t : TransReg) (x : LaneCopy) : Prop :=
  let al := min x.total 16
  x.dst % al = 0 ∧ x.dst + x.total ≤ s.myGroup.spadLen ∧ s.objIn s.wave.core s.wave.gslot x.dst x.total = none ∧
    (x.valid ≠ 0 → address t x.src % al = 0 ∧ address t x.src + x.valid - 1 < 2 ^ 52 ∧
      (Direct t x.src → permFail t .load = none ∧ geomFail t = none))

/-- R270, R271, R273, R280 to R282: CPA joins the open batch, and a 17th copy commits it first, which waits while k2 is full; CPCOMMIT commits it, and with an object declares its
bytes there; CPB declares its box and is outstanding; CPSM issues on k2; CWPRD reads a channel's write pointer. -/
def Sys2Proof.Claims.CopyInstructionResults : Prop := ∀ (s : State) (f : M64) (g : K32),
  let w := s.wave
  let t := w.treg f.tr.toNat
  let copy : CpaCopy := { trn := f.tr.toNat, tr := t, lanes := w.actList.map (copyLane w f) }
  let bytes := (w.batch.map fun c => (c.lanes.map fun l => l.total).sum).sum
  let from_ : Int := ((w.sop f.a).toNat : Int)
  let side : Int := ((w.sop f.d).toNat : Int) + f.imm.toInt
  let n : Nat := 256 * 2 ^ f.aop.toNat
  let x (i : Nat) : Word := cget w.s (f.a.toNat + i)
  let d := s.myLaunch.tensor (x 0).toNat
  let e (i : Nat) : Nat := bits (x (6 + i / 2)) (16 * (i % 2) + 15) (16 * (i % 2))
  let box := up16 (rowBytes d.fmt (e 0)) * (e 1 * e 2 * e 3)
  let b : Bulk :=
    { id := s.fresh, slot := w.slot, launch := w.launch, gslot := w.gslot, obj := side.toNat, st := f.aop.getLsbD 0,
      td := (x 0).toNat, spoff := (x 1).toNat, org := [(x 2).toInt, (x 3).toInt, (x 4).toInt, (x 5).toInt],
      ext := [e 0, e 1, e 2, e 3], bytes := box, items := none, dropped := [], wait := .ready, vc := w.hb }
  let own := 16 * (w.core % 96 / 12) + w.core % 96 % 12
  let count := cget (s.die (w.core / 96)).wptr (if g.imm.getLsbD 10 then bits g.imm 6 0 else own)
  (Ready (.cpa f) s → t.valid = true → (∀ c ∈ copy.lanes, CopyOk s t c) →
    (w.batch.length < 16 → exec (.cpa f) s = .next (after s 8 { w with batch := w.batch ++ [copy] })) ∧
    (16 ≤ w.batch.length → exec (.cpa f) s =
      .next (after (committed s none 0) 8 { (committed s none 0).wave with batch := [copy] }))) ∧
  (w.held = none → s.check (.cpa f) = none → (w.pblk.isSome = true → w.act ≠ 0) → 16 ≤ w.batch.length → w.cnt 2 = 63 →
    exec (.cpa f) s = .next s) ∧
  (Ready (.cpcommit g) s → g.imm = 0 → exec (.cpcommit g) s = .next (after (committed s none 0) 4 (committed s none 0).wave)) ∧
  (Ready (.cpcommit g) s → g.imm = 1024 → let off := (cget w.s g.d.toNat).toNat
    (∀ o, s.findObj w.core w.gslot off = some o → w.barrWaits = false →
      let u := committed (s.objStep w.core { o with expbytes := o.expbytes + BitVec.ofNat 32 bytes, users := o.users + 1 }) (some off) bytes
      exec (.cpcommit g) s = .next (after u 4 u.wave)) ∧
    (s.findObj w.core w.gslot off = none → exec (.cpcommit g) s = .next (s.faultAt 0x0B 3 (BitVec.ofNat 64 off)))) ∧
  (Ready (.cpb f) s → (x 1).toNat % 16 = 0 → (x 0).toNat < 256 → (x 0).toNat < s.myLaunch.tdcount → b.bad d = false →
    (x 1).toNat + box ≤ s.myGroup.spadLen → 0 ≤ side → s.objIn w.core w.gslot (x 1).toNat box = none → w.barrWaits = false →
    s.myBulks.length < 16 → ∀ o, s.findObj w.core w.gslot side.toNat = some o →
    let u := s.objStep w.core { o with
      expbytes := o.expbytes + BitVec.ofNat 32 (if f.aop.getLsbD 1 then 0 else box), users := o.users + 1 }
    let co := u.core w.core
    exec (.cpb f) s = .next (after
      { u with cores := tset u.cores w.core { co with bulks := co.bulks ++ [b] }, fresh := s.fresh + 1 } 8 u.wave)) ∧
  (Ready (.cpsm f) s → t.valid = true → side % 256 = 0 → 0 ≤ side → side + n ≤ 16384 → address t from_ % 256 = 0 → address t from_ < 2 ^ 52 →
    (Direct t from_ → permFail t .load = none ∧ geomFail t = none) → (∀ i < n / 128, address t (from_ + 128 * i) < 2 ^ 52) →
    exec (.cpsm f) s = .next (issued s (some 2) (general f.cf) (.cpsm (w.captureOf f 128
      ((List.range (n / 128)).map fun i => { lane := i, off := from_ + 128 * i, data := [] })) side.toNat))) ∧
  (Ready (.cwprd g) s → exec (.cwprd g) s = .next (after s 4 { w with
    s := cset (cset w.s g.d.toNat (count.setWidth 32)) (g.d.toNat + 1) ((count >>> 32).setWidth 32) }))

/-- R236, R239, R283: CPR.start enters a move at the lowest free entry, or writes why it is refused with scc = 0; CPR.end of a copied move removes it, raises
HGEN of each source frame by one and clears its SET, and refuses with 8 where no move stands and 7 where it is not copied; CPR.query writes the
progress pointer. -/
def Sys2Proof.Claims.MoveInstructionResults : Prop := ∀ (s : State) (f : M64),
  let w := s.wave
  let x (i : Nat) : Word := cget w.s (f.a.toNat + i)
  let src := (x 1 ++ x 0).toNat
  let dst := (x 3 ++ x 2).toNat
  let e := (x 0).toNat
  let m : Move := { src := src, dst := dst, psize := (x 6).toNat, oldPw := x 4, newPw := x 5, pp := 0, busy := false }
  let gives (y : Word) (c : Bool) : Wave := { w with s := cset w.s f.d.toNat y, scc := c }
  Ready (.cpr f) s →
  (f.aop = 0 → x 7 ≠ 0 ∨ 5 < (x 6).toNat → exec (.cpr f) s = .next (s.faultAt 2 0 w.insAddr)) ∧
  (f.aop = 0 → x 7 = 0 → (x 6).toNat ≤ 5 →
    (∀ c, s.moveRefused src dst (x 4) (x 5) (x 6).toNat = some c →
      exec (.cpr f) s = .next (after s 8 (gives (BitVec.ofNat 32 c) false))) ∧
    (s.moveRefused src dst (x 4) (x 5) (x 6).toNat = none → ∀ i < 64, tfind s.moves i = none → (∀ j < i, tfind s.moves j ≠ none) →
      exec (.cpr f) s = .next (after { s with moves := tset s.moves i m } 8 (gives (BitVec.ofNat 32 i) true)))) ∧
  (f.aop = 1 → tfind s.moves e = none → exec (.cpr f) s = .next (after s 8 (gives 8 false))) ∧
  (f.aop = 2 → tfind s.moves e = none → exec (.cpr f) s = .next (after s 8 (gives 8 false))) ∧
  ∀ m, tfind s.moves e = some m →
  let size := pageBytes m.psize
  (f.aop = 1 → m.pp ≠ size / 128 → exec (.cpr f) s = .next (after s 8 (gives 7 false))) ∧
  (f.aop = 2 → exec (.cpr f) s = .next (after s 8 (gives (BitVec.ofNat 32 m.pp) (m.pp == size / 128)))) ∧
  (f.aop = 1 → m.pp = size / 128 → cellsWf s.frames = true → m.src % 4096 = 0 → ∃ u, exec (.cpr f) s = .next (after u 8 (gives 0 true)) ∧
    u.moves = tdel s.moves e ∧ u.mem = s.mem ∧ u.waves = s.waves ∧
    ∀ p, (m.src / 4096 ≤ p → p < (m.src + size) / 4096 → recHgen (cget u.frames p) = (recHgen (cget s.frames p) + 1) % 2 ^ 16 ∧
      recSet (cget u.frames p) = false) ∧
    (p < m.src / 4096 ∨ (m.src + size) / 4096 ≤ p → cget u.frames p = cget s.frames p))

/-- R245 to R247, R251, R284, R285: SEAL seals its units once the stores at them are performed, UNSEAL opens them once no copy is counted, and both hold until
then; WOREL issues on k1; SMAP binds a range, with no byte of global memory changed where no other die holds newer ones, and SUNMAP writes a binding's written lines back, and no other byte of global memory changes. The model's choices, not the spec's, on which clauses rest: log entries 63, 64. -/
def Obligations.WriteOnceAndBindingResults : Prop := ∀ (s : State) (f : M64),
  let w := s.wave
  let t := w.treg f.tr.toNat
  let off := uniform w f
  let va := address t off
  let n := (w.sop f.d).toNat
  let range : Prop := t.valid = true ∧ va % 4096 = 0 ∧ va < 2 ^ 52 ∧ 1 ≤ n ∧ n ≤ 2 ^ 20
  let sound : Prop := t.valid = true ∧ t.stale = false
  let held (i : Instr) (u : State) : State := heldAt s i { u with wave := { u.wave with hold := .issued } }
  (range → t.stale = false → ∀ u l, s.units t off 1 2 n = .ok (u, l) → cellsWf u.seals = true →
    let page (x : TransReg × Nat) : Nat := u.sealFrame (x.1.ppage + x.2)
    let quiet : Prop := u.accessesDone u.fresh = true ∧ ∀ x ∈ l, ∀ i ∈ u.unitLines x, i ∉ u.waitWrites
    let lines := (l.filter fun x => cget u.seals (page x) == 1).flatMap u.unitLines
    let v := lines.foldl State.callBack u
    let free : Prop := ∀ i ∈ lines, u.copyCount i = 0
    (Ready (.seal f) s → (¬quiet → exec (.seal f) s = .next (held (.seal f) u)) ∧ (quiet →
      ∃ c, exec (.seal f) s = .next (after { u with seals := c } 8 u.wave) ∧
        ∀ p, cget c p = if ∃ x ∈ l, page x = p then 1 else cget u.seals p)) ∧
    (Ready (.unseal f) s → (¬free → exec (.unseal f) s = .next (held (.unseal f) v)) ∧ (free →
      ∃ c, exec (.unseal f) s = .next (after { v with seals := c } 8 v.wave) ∧
        ∀ p, cget c p = if ∃ x ∈ l, page x = p then 0 else cget u.seals p))) ∧
  (Ready (.worel f) s → range → (∀ i < n, Direct t (off + 4096 * i) → t.kind = 1 ∧ t.perm.getLsbD 0 = true ∧ geomFail t = none) →
    exec (.worel f) s = .next (issued s (some 1) (general f.cf) (.worel (w.captureOf f 1
      ((List.range n).map fun i => { lane := i, off := off + 4096 * i, data := [] })) n))) ∧
  (let sp := ((w.sop64 f.d).setWidth 32).toNat
   let len := (w.sop64 f.d >>> 32).toNat
   let rw (x : TransReg) : Option (Nat × Nat) := if x.perm.getLsbD 0 && x.perm.getLsbD 1 then none else some (8, 2)
   Ready (.smap f) s → sound → va % 256 = 0 → sp % 1024 = 0 → va < 2 ^ 52 → sp + len ≤ s.myGroup.spadLen → len % 256 = 0 → 256 ≤ len →
    len ≤ 524288 → ∀ u x o v z, s.unitPage t off rw = .page u x o → u.bindRefused x o len = false → u.objIn w.core w.gslot sp len = none →
    u.bindRecs x (o / 4096 * 4096) ((o % 4096 + len + 4095) / 4096) = .ok v →
    let b : Binding := { vbase := BitVec.ofNat 64 va, len := len / 256, spoff := sp / 1024, grp := w.gslot, tr := x.moveTo va, dirty := [] }
    v.tryBind w.core b = .ok z → exec (.smap f) s = .next (after z 8 w) ∧
      ((∀ p ∈ s.copies, p.2.state ≠ .m ∧ p.2.state ≠ .o) → z.mem = s.mem) ∧
      ∃ l, (z.core w.core).smap = l ++ [b] ∧ l.length = s.myCore.smap.length) ∧
  (Ready (.sunmap f) s → t.valid = true → va < 2 ^ 52 → ∀ b, s.myCore.smap.find? (fun b => b.grp == w.gslot && b.vbase == BitVec.ofNat 64 va) = some b →
    (∀ i ∈ b.dirty, (s.bindLine b i).isSome = true) → cellsWf s.mem = true → ∃ z, exec (.sunmap f) s = .next (after z 8 w) ∧
      (z.core w.core).smap = s.myCore.smap.filter (· != b) ∧
      ∀ k, (∀ i ∈ b.dirty, ∀ p, s.bindLine b i = some p → k < p.2 ∨ p.2 + 128 ≤ k) → cget z.mem k = cget s.mem k) ∧
  (Ready (.sunmap f) s → t.valid = true → va < 2 ^ 52 →
    s.myCore.smap.find? (fun b => b.grp == w.gslot && b.vbase == BitVec.ofNat 64 va) = none →
    exec (.sunmap f) s = .next (s.faultAt 9 6 (BitVec.ofNat 64 va)))
/-! ### Task queues, traps and privileged registers (R34 to R45, R381 to R395) -/

/-- R34, R38 to R40, R286: FETCHW takes the next linear index of the launch's dispenser, puts its coordinates into the fields of WID, and sets scc; once the
indices are out it clears scc and leaves D; with no dispenser it raises QUEUE 0x15. ENQ and DEQ on an accessible queue end as their step on the
queue does: stored, taken, closed and empty, waiting in order, or QUEUE with its code; behind an earlier waiter they wait. -/
def Sys2Proof.Claims.QueueInstructionResults : Prop := ∀ (s : State) (f : M64) (g : K32),
  let w := s.wave
  let la := s.myLaunch
  let i := la.dispNext
  let fields := 2 ^ fieldBits la.widfmt
  let t := w.treg f.tr.toNat
  let va := address t (uniform w f)
  let q := BitVec.ofNat 64 va
  let words := (List.range 8).map fun k => cget w.s (f.d.toNat + k)
  let die := w.core / 96
  let access (x : TransReg) : Option (Nat × Nat) := if x.perm.getLsbD 0 && x.perm.getLsbD 1 then none else some (8, 2)
  let open_ : Prop := t.valid = true ∧ va % 64 = 0 ∧ va < 2 ^ 52 ∧ ∃ u x o, s.unitPage t (uniform w f) access = .page u x o
  let waits (h : Hold) : State := { s with fresh := s.fresh + 1, wave := { w with hold := h, lastIssue := s.clock + 1 } }
  let given (v : Wave) (ws : List Word) : Wave :=
    { v with s := csetList v.s f.d.toNat ws, scc := true, qdepth := BitVec.ofNat 32 (bits (ws.headD 0) 11 8) }
  let next (i : Instr) (u : State) : Prop := exec i s = .next u
  (Ready (.fetchw g) s → la.disp = none → next (.fetchw g) (s.faultAt 0x12 0x15 0)) ∧
  (Ready (.fetchw g) s → la.disp ≠ none → la.dispN ≤ i → next (.fetchw g) (after s 4 { w with scc := false })) ∧
  (Ready (.fetchw g) s → la.disp ≠ none → i < la.dispN → ∃ wid, next (.fetchw g)
      (after { s with launches := tset s.launches w.launch { la with dispNext := i + 1 } } 4
        { w with s := cset w.s g.d.toNat (BitVec.ofNat 32 i), scc := true, wid := wid }) ∧
    wid = BitVec.ofNat 64 (la.widbase.toNat / fields * fields ||| packIndex i la.widfmt la.ext)) ∧
  (open_ → Ready (.enq f) s → s.accessesDone s.fresh = false → w.dropped = [] →
    next (.enq f) (heldAt s (.enq f) { s with wave := { w with hold := .pipeline } })) ∧
  (open_ → Ready (.enq f) s → s.accessesDone s.fresh = true →
    (s.enqWaiters q die ≠ [] → next (.enq f) (waits (.enq q s.fresh words))) ∧
    (s.enqWaiters q die = [] → ∀ u,
      (s.enqStep va words = .ok u .stored → next (.enq f) (after (u.unpark q) 8 u.wave)) ∧
      (s.enqStep va words = .ok u .wait → next (.enq f) (waits (.enq q s.fresh words))) ∧
      (∀ code, s.enqStep va words = .ok u (.fail code) → next (.enq f) (u.faultAt 0x12 code q)))) ∧
  (open_ → Ready (.deq f) s →
    (s.deqWaiters q die ≠ [] → next (.deq f) (waits (.deq q s.fresh f.d.toNat))) ∧
    (s.deqWaiters q die = [] → ∀ u,
      (∀ ws, ws.length = 8 → s.deqStep va = .ok u (.took ws) → u.wave.held = none → next (.deq f) (after u 8 (given u.wave ws))) ∧
      (s.deqStep va = .ok u .closed → u.wave.held = none → next (.deq f) (after u 8 { u.wave with scc := false })) ∧
      (s.deqStep va = .ok u .wait → next (.deq f) (waits (.deq q s.fresh f.d.toNat))) ∧
      (∀ code, s.deqStep va = .ok u (.fail code) → next (.deq f) (u.faultAt 0x12 code q))))

/-- R36 to R39, R44, R45: one step on a queue whose header reads as `h`: a queue in error fails with 0x14, an invalid header latches 0x10, a depth of
8 latches 0x11, a bad entry 0x12; otherwise ENQ writes its entry, of depth QDEPTH + 1, at the tail of its die's ring and then raises TAIL; with the
ring full it takes the reserved slot of its depth where that is free, and else waits. DEQ takes the highest reserved entry, else the entry at the
ring's head; on an empty queue that is closed it ends, else it waits. -/
def Sys2Proof.Claims.QueueSteps : Prop := ∀ (s u : State) (q : Nat) (ws : List Word) (h : QHead),
  let w := u.wave
  let die := w.core / 96
  let w0 := ws.headD 0
  let depth := w.qdepth.toNat + 1
  let shard := 2 ^ (h.log2n - 2)
  let slot (i : Nat) : Nat := h.ebase + 32 * (die * shard + i)
  let entry (rsv : Nat) : List Byte :=
    ((BitVec.ofNat 32 (w0.toNat / 2 ^ 16 % 256 * 2 ^ 16 + rsv * 2 ^ 12 + depth * 256 + w0.toNat % 256) :: ws.drop 1).flatMap fun x =>
      toBytes x.toNat 4)
  let stores (i rsv at_ : Nat) (bs : List Byte) : Try QOut :=
    (u.qwrite w.core (slot i) (entry rsv)).andThen fun v a => (v.qwrite w.core at_ bs).andThen fun v _ =>
      .ok { v.writeRel a.2 32 false [(4, w.hb)] with wave := v.wave.tick } .stored
  let reserved := (List.range 8).filter fun j => nbit (h.mask die) j
  s.qhead s.wave.core q = .ok u h → u.wave = s.wave →
  (h.qerr ≠ 0 → s.enqStep q ws = .ok u (.fail 0x14) ∧ s.deqStep q = .ok u (.fail 0x14)) ∧
  (h.qerr = 0 → h.valid = false → s.enqStep q ws = u.latch q 0x10 ∧ s.deqStep q = u.latch q 0x10) ∧
  (h.qerr = 0 → h.valid = true →
    (8 ≤ w.qdepth.toNat → s.enqStep q ws = u.latch q 0x11) ∧
    (w.qdepth.toNat < 8 → w0.toNat % 256 ≤ 1 ∨ 2 ^ 24 ≤ w0.toNat ∨ h.kind = 1 → s.enqStep q ws = u.latch q 0x12) ∧
    (w.qdepth.toNat < 8 → 2 ≤ w0.toNat % 256 → w0.toNat < 2 ^ 24 → h.kind = 0 → 8 < shard →
      (h.count die < shard - 8 →
        s.enqStep q ws = stores (8 + h.tail die % (shard - 8)) 0 (q + 72 + 64 * die) (toBytes (h.tail die + 1) 8)) ∧
      (shard - 8 ≤ h.count die → nbit (h.mask die) (depth - 1) = false →
        s.enqStep q ws = stores (depth - 1) depth (q + 80 + 64 * die) (toBytes (h.mask die + 2 ^ (depth - 1)) 1)) ∧
      (shard - 8 ≤ h.count die → nbit (h.mask die) (depth - 1) = true → s.enqStep q ws = .ok u .wait)) ∧
    (∀ j ∈ reserved, (∀ k ∈ reserved, k ≤ j) → h.mask die < 256 →
      s.deqStep q = u.takeSlot q h die j (j + 1) (q + 80 + 64 * die) (toBytes (h.mask die - 2 ^ j) 1)) ∧
    (h.mask die = 0 → h.count die ≠ 0 →
      s.deqStep q = u.takeSlot q h die (8 + h.head die % (shard - 8)) 0 (q + 64 + 64 * die) (toBytes (h.head die + 1) 8)) ∧
    (h.mask die = 0 → h.count die = 0 → s.deqStep q = .ok u (if h.close && (List.range 4).all (fun d => h.mask d == 0 && h.count d == 0) then
      .closed else .wait)))

/-- R392, R395: TRAP retires and raises SOFTWARE with its immediate as detail and its own address, and the frame's PC is that of the next
instruction; BKPT raises BREAKPOINT and does not retire, and the frame's PC is its own; neither depends on em. LOGEV puts a record of kind 8
before the others of its die's black box, whatever em holds. -/
def Obligations.SystemInstructionResults : Prop := ∀ (s : State) (f : K32),
  let w := s.wave
  let d := s.die (w.core / 96)
  let record : BoxRecord := { kind := 8, code := 0, detail := f.imm.toNat, core := w.core, wave := w.slot % 64, clock := (s.dieClock (w.core / 96)).toNat,
                              addr := w.sop64 f.d, pc := w.insAddr }
  let framePc (t : TrapReq) : Nat := frameNum (w.frame t s.clock) 0 8
  (Ready (.trap f) s → w.rep = none → w.pblk = none →
    let t : TrapReq := { code := 0x14, detail := f.imm.toNat, addr := w.pc, pc := w.pc + 4, retired := true }
    exec (.trap f) s = .next ((after s 4 w).raise t) ∧ framePc t = (w.pc + 4).toNat) ∧
  (Ready (.bkpt f) s → w.rep = none → w.pblk = none →
    let t : TrapReq := { code := 0x15, detail := f.imm.toNat, addr := w.pc, pc := w.pc, retired := false }
    exec (.bkpt f) s = .next (s.raise t) ∧ framePc t = w.pc.toNat) ∧
  (Ready (.logev f) s → exec (.logev f) s = .next (after { s with
    dies := tset s.dies (w.core / 96) { d with box := (record :: d.box).take 2048, wcount := d.wcount + 1 } } 4 w))

/-- A frame that RTE accepts (R393): an even PC below 2^52, no reserved flag, an FPCTL without reserved bits, not both a REP and a PBLK. -/
def Sys2Proof.Claims.FrameOk (bs : List Byte) : Prop :=
  let n (i k : Nat) : Nat := ofBytes ((bs.drop i).take k)
  n 0 8 % 2 = 0 ∧ n 0 8 < 2 ^ 52 ∧ n 28 4 < 2 ^ 12 ∧ n 48 4 % 8 ≤ 4 ∧ n 48 4 / 8 % 32 = 0 ∧ n 48 4 < 2 ^ 9 ∧
    ¬(nbit (n 28 4) 1 = true ∧ nbit (n 28 4) 8 = true)

/-- R393: RTE reads the frame that the link pair names and restores from it the PC, em within LIVE, the link pair, scc, FPCTL and the place in a prefix; it
clears the recovery-mode bit and satisfies DIST, with every result in flight landed before (R87). A frame with reserved bits raises ILLEGAL_OPERAND, an address of 2^52 or above PROTECTION 4, a
misaligned one MISALIGNED. -/
def Sys2Proof.Claims.ReturnFromHandler : Prop := ∀ (s : State) (f : K32), Ready (.rte f) s →
  let w := s.wave
  let va := cget w.s 63 ++ cget w.s 62
  (2 ^ 52 ≤ va.toNat → exec (.rte f) s = .next (s.faultAt 8 4 va)) ∧
  (va.toNat < 2 ^ 52 → va.toNat % 64 ≠ 0 → exec (.rte f) s = .next (s.faultAt 5 0 va)) ∧
  ∀ u t o v bs, va.toNat < 2 ^ 52 → va.toNat % 64 = 0 → s.xlate w.core va.toNat = .at_ u t o →
    u.ownReady w u.fresh true false false ((t.ppage + o) / 128) = true →
    u.accessAt w.core t o 64 va.toNat How.load id = .ok v bs none → bs.length = 64 →
    let n (i k : Nat) : Nat := ofBytes ((bs.drop i).take k)
    let flags := n 28 4
    (FrameOk bs → let z := landEvery v
      exec (.rte f) s = .next { z with wave := { z.wave with
        pc := BitVec.ofNat 64 (n 0 8), em := BitVec.ofNat 64 (n 8 8) &&& z.wave.live,
        s := cset (cset z.wave.s 62 (BitVec.ofNat 32 (n 16 4))) 63 (BitVec.ofNat 32 (n 20 4)), scc := nbit flags 0,
        fpctl := BitVec.ofNat 32 (n 48 4), recovery := false,
        resume := if nbit flags 1 then .rep (flags / 4 % 64) else if nbit flags 8 then .pblk (flags / 512 % 8) (BitVec.ofNat 64 (n 40 8))
          else .none, lastIssue := 0, notBefore := z.clock } }) ∧
    (¬FrameOk bs → exec (.rte f) s = .next (s.faultAt 2 0 w.insAddr))

/-- R391, R394, and the rules of each register in R98, R249, R317 and R386: PRD reads every privileged register, a pair for TRAPVEC, TRAPFRM, GAP and
GSP; PWR writes one that takes the value, and raises ILLEGAL_OPERAND where the value breaks the register's rule. -/
def Sys2Proof.Claims.PrivilegedRegisters : Prop := ∀ (s : State) (f : K32),
  let w := s.wave
  let core := s.core w.core
  let d := s.die (w.core / 96)
  let n := bits f.imm 7 0
  let x := w.sop f.d
  let y := w.sop64 f.d
  let feature (k : Nat) : Word := BitVec.ofNat 32 (s.mgmt.featacc.toNat / 2 ^ (32 * k))
  let closed : Prop := ∀ p ∈ d.geodes, p.2.open_ = none
  let onCore (c : Core) : State := { s with cores := tset s.cores w.core c }
  let onDie (d : Die) : State := { s with dies := tset s.dies (w.core / 96) d }
  (Ready (.prd f) s →
    (∀ p ∈ ([(0, core.lease1), (1, core.lease2), (2, BitVec.ofNat 32 (2 ^ 16 * (s.inuse % 2 ^ 11) + s.pool % 2 ^ 11)), (8, feature 0), (9, feature 1),
        (10, feature 2), (11, feature 3), (0x20, d.gcfg), (0x21, d.grate)] : List (Nat × Word)), n = p.1 →
      exec (.prd f) s = .next (after s 4 { w with s := cset w.s f.d.toNat p.2 })) ∧
    (∀ p ∈ ([(4, core.trapvec), (6, core.trapfrm), (0x22, d.gap), (0x24, d.gsp)] : List (Nat × DWord)), n = p.1 →
      exec (.prd f) s = .next (after s 4 { w with
        s := cset (cset w.s f.d.toNat (p.2.setWidth 32)) (f.d.toNat + 1) ((p.2 >>> 32).setWidth 32) }))) ∧
  (Ready (.pwr f) s →
    let cleared : List (Nat × Geode) := d.geodes.map fun g => (g.1, { g.2 with slots := g.2.slots.map fun t => (t.1, { t.2 with serial := 0 }) })
    ∀ p ∈ ([(0, x.toNat < 2 ^ 16, onCore { core with lease1 := x }), (1, x.toNat < 2 ^ 16, onCore { core with lease2 := x }),
        (2, bits x 31 27 = 0 ∧ bits x 15 11 = 0 ∧ 4 ≤ bits x 10 0 ∧ bits x 10 0 ≤ 1536, { s with pool := bits x 10 0 }),
        (4, y.toNat < 2 ^ 52 ∧ y.toNat / 2 % 128 = 0, onCore { core with trapvec := y }),
        (6, y.toNat < 2 ^ 52 ∧ y.toNat % 2 ^ 21 = 0, onCore { core with trapfrm := y }),
        (0x20, closed ∧ bits x 30 17 = 0 ∧ bits x 9 4 = 0 ∧ (bits x 16 10 = 0 → x.getLsbD 31 = false) ∧
          bits x 16 10 * (16384 * (bits x 3 0 + 1)) ≤ 2 ^ 21 - 2 ^ 14, onDie { d with gcfg := x, geodes := cleared }),
        (0x21, closed ∧ x.getLsbD 31 = false ∧ bits x 30 23 ≠ 255 ∧ bits x 30 0 ≠ 0, onDie { d with grate := x }),
        (0x22, closed ∧ y.toNat < 2 ^ 52 ∧ y.toNat % 2 ^ 27 = 0, onDie { d with gap := y }),
        (0x24, closed ∧ y.toNat < 2 ^ 52 ∧ y.toNat / 2 ^ 12 % 2 ^ 9 = 0, onDie { d with gsp := y, badUnits := [] })] :
        List (Nat × Prop × State)), n = p.1 →
      (p.2.1 → exec (.pwr f) s = .next (after p.2.2 4 w)) ∧ (¬p.2.1 → exec (.pwr f) s = .next (s.faultAt 2 0 w.insAddr)))
/-! ### Tile registers and matrix instructions (R174, R175, R289 to R313) -/

/-- The tensor whose descriptor tile `t` names (R290). -/
def Sys2Proof.Claims.tensorOf (s : State) (t : Nat) : Desc := s.myLaunch.tensor (cfgTid (s.tileSnap t).cfg)

/-- The origin of a tile transfer: the pair at A and, with SB, the pair at B, as signed words (R292). -/
def Sys2Proof.Claims.origins (w : Wave) (f : G64) : List Int :=
  let x (n : Nat) : Int := (cget w.s n).toInt
  [x f.a.toNat, x (f.a.toNat + 1)] ++ if f.sb then [x f.b.toNat, x (f.b.toNat + 1)] else [0, 0]

/-- R293, R299 to R303: TCFG lands a configuration; the tile transfers issue on k3 with what they captured, and TLD of a checked or ternary tensor is
performed at its issue; TXP captures the transpose. -/
def Sys2Proof.Claims.TileInstructionResults : Prop := ∀ (s : State) (f : G64),
  let w := s.wave
  let td := s.myLaunch.tensor f.a.toNat
  let rows := if f.sub = 0 then f.b.toNat + 1 else bits (w.sop f.b) 15 0
  let cols := if f.sub = 0 then f.c.toNat + 256 * f.mod.toNat + 1 else bits (w.sop f.b) 31 16
  let t := s.tileSnap f.d.toNat
  let d := tensorOf s f.d.toNat
  let src := s.tileSnap f.a.toNat
  let ds := tensorOf s f.a.toNat
  let org := origins w f
  let r := (w.sop f.b).toNat
  let row (d : Desc) (t : TileSnap) : Nat := tileRow d.fmt (cfgCols t.cfg)
  let on (e : Effect) : State := issued s (some 3) (general f.cf) e
  let items := t.storeItems d org
  (Ready (.tcfg f) s → 1 ≤ rows → rows ≤ 128 → 1 ≤ cols → cols ≤ 512 → cols % fmtBlock td.fmt = 0 →
    tileSize td.fmt rows cols ≤ Config.tileBytes → exec (.tcfg f) s = .next (after s 8 (landing s (vlat w)
      [.tcfg f.d.toNat (BitVec.ofNat 32 (2 ^ 31 + f.a.toNat * 2 ^ 16 + (cols - 1) * 2 ^ 7 + (rows - 1)))]))) ∧
  (Ready (.tld f) s → cfgValid t.cfg = true → originOk d.fmt org = true → (d.trl = true → (∀ x ∈ org, x = 0) ∧ d.trailerOk = true) →
    (d.trl = false → ternaryFmt d.fmt = false → exec (.tld f) s = .next (on (.tld f.d.toNat t.cfg org))) ∧
    (d.trl = true ∨ ternaryFmt d.fmt = true → w.cnt 3 = 0 → s.addrsReady s.fresh false (d.tldAddrs t.cfg org) = true → ∀ u bs,
      (s.tldRead d f.d.toNat t.cfg org true = .ok u (bs, none) → let core := u.wave.core
        let co := u.core core
        let at_ := Config.tileBytes * (u.group core u.wave.gslot).tile f.d.toNat
        exec (.tld f) s = .next (after { u.soundIn (tilePa core at_) bs.length with
          cores := tset u.cores core { co with tile := csetList co.tile at_ bs } } 8 u.wave)) ∧
      (∀ c, s.tldRead d f.d.toNat t.cfg org true = .ok u (bs, some c) → exec (.tld f) s = .next (s.faultAt 0x0F c w.insAddr)))) ∧
  (Ready (.tst f) s → cfgValid t.cfg = true → originOk d.fmt org = true → s.tileBad f.d.toNat = none → items = [] ∨ s.logRoom w.core = true →
    exec (.tst f) s = .next (on (.stores d.wo items))) ∧
  (Ready (.tzero f) s → exec (.tzero f) s = .next (on (.writes [.tileAll f.d.toNat []]))) ∧
  (Ready (.tmovv f) s → cfgValid t.cfg = true → r < cfgRows t.cfg → f.a.toNat + (row d t + 4 * w.width - 1) / (4 * w.width) ≤ w.vregs →
    exec (.tmovv f) s = .next (on (.writes [.tile f.d.toNat (r * row d t) ((List.range (row d t / 4)).flatMap fun i =>
      toBytes (w.vlane (f.a.toNat + i / w.width) (i % w.width)).toNat 4)]))) ∧
  (Ready (.vmovt f) s → cfgValid src.cfg = true → r < cfgRows src.cfg → s.tileBad f.a.toNat = none → let n := (row ds src + 4 * w.width - 1) / (4 * w.width)
    f.d.toNat + n ≤ w.vregs → exec (.vmovt f) s = .next (on (.writes ((List.range n).map fun j =>
      vector w (f.d.toNat + j) fun L => let i := j * w.width + L
        if 4 * i < row ds src then BitVec.ofNat 32 (ofBytes (cgetList src.bytes (r * row ds src + 4 * i) 4)) else 0)))) ∧
  (Ready (.txp f) s → cfgValid t.cfg = true → cfgValid src.cfg = true → cfgRows t.cfg = cfgCols src.cfg → cfgCols t.cfg = cfgRows src.cfg →
    fmtScaled ds.fmt = false → d.fmt = ds.fmt → s.tileBad f.a.toNat = none → exec (.txp f) s = .next (on (.writes [.tile f.d.toNat 0
      ((List.range (cfgRows t.cfg)).flatMap fun i => packRow ds.fmt ((List.range (cfgCols t.cfg)).map fun j => src.raw ds.fmt j i))]))) ∧
  (Ready (.ttrl f) s → td.trailerOk = true → exec (.ttrl f) s = .next (on (.ttrl f.d.toNat f.a.toNat)))

/-- An accumulator block lies in the group's memory (R295). -/
def Sys2Proof.Claims.BlockOk (g : Group) (a rows cols ty : Nat) : Prop :=
  let n := if ty = 2 then 2 * cols else cols
  a < 2 ^ 15 ∧ (ty = 2 → a % 2 = 0) ∧ 1 ≤ rows ∧ rows ≤ 128 ∧ 1 ≤ cols ∧ a % 256 + n ≤ 256 ∧ a + 256 * (rows - 1) + n ≤ g.accLen / 4

/-- An instruction of the matrix engine has issued on k3, with the wave's token where it takes one (R92, R95). -/
def Sys2Proof.Claims.started (s : State) (cf : Option Nat) (token : Bool) (e : Effect) : State :=
  let w := s.wave
  let k := cset w.k 3 (cget w.k 3 + 1)
  let o : Outst :=
    { id := s.fresh, cls := some 3, cf := cf, pc := w.insAddr, issued := s.clock, holds := false, token := token, eff := e, wait := .ready,
      vc := w.hb }
  { s with
    fresh := s.fresh + 1,
    wave := { w with
      k := (match cf with
        | some c => cset k c (cget k c + 1)
        | none => k),
      granted := if token then false else w.granted, outst := w.outst ++ [o] } }

/-- An instruction of the matrix engine goes on: it has retired, or, with NANTRAP, holds the wave until it completes (R179). -/
def Sys2Proof.Claims.engaged (s t : State) : State :=
  if s.wave.fpctl.getLsbD 8 then { t with wave := { t.wave with hold := .outst s.fresh, lastIssue := s.clock + 1 } } else after t 8 t.wave

/-- R304 to R313: a matrix instruction that has its token and passes the checks of R298 issues with its operands as they stand; without the token it
waits. ACCLD, ACCST and ACCQ issue on k3; TSCL issues without a token. The last of four joint MMAX joins them. -/
def Sys2Proof.Claims.MatrixInstructionsIssue : Prop := ∀ (s : State) (f : G64),
  let w := s.wave
  let g := s.myGroup
  let a := s.tileSnap f.a.toNat
  let b := s.tileSnap f.b.toNat
  let fa := (tensorOf s f.a.toNat).fmt
  let fb := (tensorOf s f.b.toNat).fmt
  let z := f.mod == 1
  let addr := (w.sop f.c).toNat
  let side := (cget w.s (f.c.toNat + 1)).toNat
  let kept := cfgCols a.cfg
  let meta_ := cgetList (s.core w.core).side side (cfgRows a.cfg * ((2 * kept + 7) / 8))
  let valid : Prop := cfgValid a.cfg = true ∧ cfgValid b.cfg = true
  let sound : Prop := s.tileBad f.a.toNat = none ∧ s.tileBad f.b.toNat = none
  let block (x : Nat) : Prop := BlockOk g x (cfgRows a.cfg) (cfgCols b.cfg) (accType fa fb)
  let run (e : Effect) : State := engaged s (started s (general f.cf) true e)
  let d := s.myLaunch.tensor f.d.toNat
  let ty := f.mod.toNat
  let shape := if f.sc then (bits (w.sop f.c) 15 0, bits (w.sop f.c) 31 16) else (d.dim 1, d.dim 0)
  let at_ := (w.sop f.a).toNat
  let i0 := (cget w.s f.b.toNat).toInt
  let i1 := (cget w.s (f.b.toNat + 1)).toInt
  let on (e : Effect) : State := issued s (some 3) (general f.cf) e
  (∀ i ∈ ([.mma f, .mmat f, .mmas f, .mmax f] : List Instr), Ready i s → w.granted = false →
    exec i s = .next s) ∧
  (w.granted = true → valid → sound → cfgRows b.cfg = kept → block addr →
    (Ready (.mma f) s → mmaPair fa fb = true → exec (.mma f) s = .next (run (.mma a b none addr z))) ∧
    (Ready (.mmat f) s → ternaryFmt fa = true → fb = 0x0B ∨ fb = 0x0C → a.reserved fa = false →
      exec (.mmat f) s = .next (run (.mma a b none addr z)))) ∧
  (Ready (.mmas f) s → w.granted = true → valid → sound → s.badIn (sidePa w.core side) meta_.length = none → cfgRows b.cfg = 2 * kept → kept % 2 = 0 → mmaPair fa fb = true → fmtScaled fa = false →
    fmtScaled fb = false → block (cget w.s f.c.toNat).toNat → side + meta_.length ≤ Config.sideBytes →
    metaBad meta_ (cfgRows a.cfg) kept = false →
    exec (.mmas f) s = .next (run (.mma a b (some meta_) (cget w.s f.c.toNat).toNat z))) ∧
  (Ready (.mmax f) s → w.granted = true → s.mmaxBadOp f = none → s.tileBad f.b.toNat = none →
    (w.core % 2 = 0 → s.tileBad f.a.toNat = none) →
    let u : State := { s with groups := tset s.groups (16 * w.core + w.gslot) { g with mmax := g.mmax + 1 } }
    let v := started u (general f.cf) true (.mmax (if w.core % 2 = 0 then some a else none) b addr z g.mmax)
    let held : State := if w.fpctl.getLsbD 8 then { v with wave := { v.wave with hold := .outst s.fresh, lastIssue := s.clock + 1 } } else v
    let bad : Prop := (w.core / 4, g.mmax) ∈ s.myLaunch.mmaxBad
    let t := if bad then held.failJoint w.launch (w.core / 4) g.mmax else held.join w.launch (w.core / 4) g.mmax
    exec (.mmax f) s = .next (if w.fpctl.getLsbD 8 then t else after t 8 t.wave) ∧
      ((v.partners w.launch (w.core / 4) g.mmax).length < 4 → ¬bad → t = held)) ∧
  (Ready (.accld f) s → accldFmt ty d.fmt = true → BlockOk g at_ shape.1 shape.2 ty →
    exec (.accld f) s = .next (on (.accld f.d.toNat at_ i0 i1 shape.1 shape.2 ty))) ∧
  (Ready (.accst f) s → accstFmt d.fmt = true → BlockOk g at_ shape.1 shape.2 ty → s.logRoom w.core = true →
    exec (.accst f) s = .next (on (.accst f.d.toNat at_ i0 i1 shape.1 shape.2 ty (w.roundMode f.sub.toNat)))) ∧
  (Ready (.accq f) s → accqFmt d.fmt = true → BlockOk g at_ (d.dim 1) (d.dim 0) ty → d.trailerOk = true → s.logRoom w.core = true →
    exec (.accq f) s = .next (on (.accq f.d.toNat at_ ty (w.roundMode f.sub.toNat) (fpBits true f.b (w.sop f.b))
      (if f.sc then w.sop f.c else 0)))) ∧
  (Ready (.tscl f) s → let x := w.sop f.b
    BlockOk g at_ (bits x 15 0) (bits x 31 16) 0 → exec (.tscl f) s = .next (engaged s (started s (general f.cf) false
      (.tscl at_ (bits x 15 0) (bits x 31 16) (fpBits true f.c (w.sop f.c)) (f.sub == 1)))))

/-- R298: the traps of tile and matrix instructions, the first that applies: an invalid configuration 2, a wrong shape 3, a format that the
instruction does not take 5, a block outside the accumulator 4, a row or an origin out of place 6, a tensor that cannot have a trailer 8. -/
def Sys2Proof.Claims.TileShapeTraps : Prop := ∀ (s : State) (f : G64),
  let w := s.wave
  let t := s.tileSnap f.d.toNat
  let src := s.tileSnap f.a.toNat
  let b := s.tileSnap f.b.toNat
  let fa := (tensorOf s f.a.toNat).fmt
  let fb := (tensorOf s f.b.toNat).fmt
  let d := tensorOf s f.d.toNat
  let td := s.myLaunch.tensor f.d.toNat
  let r := (w.sop f.b).toNat
  let org := origins w f
  let bad (i : Instr) (n : Nat) : Prop := exec i s = .next (s.faultAt 0x10 n 0)
  let shape := if f.sc then (bits (w.sop f.c) 15 0, bits (w.sop f.c) 31 16) else (td.dim 1, td.dim 0)
  (Ready (.tcfg f) s → ∀ rows cols, rows = (if f.sub = 0 then f.b.toNat + 1 else bits (w.sop f.b) 15 0) →
    cols = (if f.sub = 0 then f.c.toNat + 256 * f.mod.toNat + 1 else bits (w.sop f.b) 31 16) →
    rows = 0 ∨ 128 < rows ∨ cols = 0 ∨ 512 < cols ∨ cols % fmtBlock (s.myLaunch.tensor f.a.toNat).fmt ≠ 0 ∨
      Config.tileBytes < tileSize (s.myLaunch.tensor f.a.toNat).fmt rows cols → bad (.tcfg f) 1) ∧
  (∀ i ∈ ([.tld f, .tst f, .tmovv f] : List Instr), Ready i s → cfgValid t.cfg = false → bad i 2) ∧
  (Ready (.vmovt f) s → cfgValid src.cfg = false → bad (.vmovt f) 2) ∧
  (∀ i ∈ ([.tld f, .tst f] : List Instr), Ready i s → cfgValid t.cfg = true → originOk d.fmt org = false → bad i 6) ∧
  (Ready (.tld f) s → cfgValid t.cfg = true → originOk d.fmt org = true → d.trl = true → (∃ x ∈ org, x ≠ 0) → bad (.tld f) 6) ∧
  (Ready (.tld f) s → cfgValid t.cfg = true → originOk d.fmt org = true → d.trl = true → (∀ x ∈ org, x = 0) → d.trailerOk = false →
    bad (.tld f) 8) ∧
  (Ready (.tmovv f) s → cfgValid t.cfg = true → cfgRows t.cfg ≤ r → bad (.tmovv f) 6) ∧
  (Ready (.vmovt f) s → cfgValid src.cfg = true → cfgRows src.cfg ≤ r → bad (.vmovt f) 6) ∧
  (Ready (.ttrl f) s → (s.myLaunch.tensor f.a.toNat).trailerOk = false → bad (.ttrl f) 8) ∧
  (Ready (.txp f) s → (¬(cfgValid t.cfg = true ∧ cfgValid src.cfg = true) → bad (.txp f) 2) ∧
    (cfgValid t.cfg = true → cfgValid src.cfg = true → (cfgRows t.cfg ≠ cfgCols src.cfg ∨ cfgCols t.cfg ≠ cfgRows src.cfg → bad (.txp f) 3) ∧
      (cfgRows t.cfg = cfgCols src.cfg → cfgCols t.cfg = cfgRows src.cfg → fmtScaled fa = true ∨ d.fmt ≠ fa → bad (.txp f) 5))) ∧
  (∀ p ∈ ([(.mma f, cfgCols src.cfg, mmaPair fa fb), (.mmat f, cfgCols src.cfg, ternaryFmt fa && (fb == 0x0B || fb == 0x0C))] :
      List (Instr × Nat × Bool)), Ready p.1 s → w.granted = true →
    (¬(cfgValid src.cfg = true ∧ cfgValid b.cfg = true) → bad p.1 2) ∧
    (cfgValid src.cfg = true → cfgValid b.cfg = true → (cfgRows b.cfg ≠ p.2.1 → bad p.1 3) ∧
      (cfgRows b.cfg = p.2.1 → (p.2.2 = false → bad p.1 5) ∧
        (p.2.2 = true → ¬BlockOk s.myGroup (w.sop f.c).toNat (cfgRows src.cfg) (cfgCols b.cfg) (accType fa fb) → bad p.1 4)))) ∧
  (Ready (.accld f) s → (accldFmt f.mod.toNat td.fmt = false → bad (.accld f) 5) ∧
    (accldFmt f.mod.toNat td.fmt = true → ¬BlockOk s.myGroup (w.sop f.a).toNat shape.1 shape.2 f.mod.toNat → bad (.accld f) 4)) ∧
  (Ready (.accst f) s → (accstFmt td.fmt = false → bad (.accst f) 5) ∧
    (accstFmt td.fmt = true → ¬BlockOk s.myGroup (w.sop f.a).toNat shape.1 shape.2 f.mod.toNat → bad (.accst f) 4)) ∧
  (Ready (.tscl f) s → ¬BlockOk s.myGroup (w.sop f.a).toNat (bits (w.sop f.b) 15 0) (bits (w.sop f.b) 31 16) 0 → bad (.tscl f) 4)

/-- R175, R304: one k-block into an accumulator element: INT32 adds every product, modulo 2^32; FP32 and FP64 round the exact sum of the element and
the products once, to nearest, ties to even; and an element takes its k-blocks in rising order. -/
def Sys2Proof.Claims.MatrixElementValues : Prop :=
  (∀ (c : Nat) (l : List (Int × Int)), c < 2 ^ 32 →
    (mmaStep 1 c (l.map fun p => (FV.ofInt p.1, FV.ofInt p.2))).1 =
      (((BitVec.ofNat 32 c).toInt + (l.map fun p => p.1 * p.2).sum) % (2 ^ 32 : Nat)).toNat) ∧
  (∀ (c : Nat) (l : List (FV × FV)), (mmaStep 0 c l).1 = fp32.round 0 (FV.sum false (fp32.val c :: l.map fun p => p.1.mul p.2)) ∧
    (mmaStep 2 c l).1 = fp64.round 0 (FV.sum false (fp64.val c :: l.map fun p => p.1.mul p.2))) ∧
  (∀ (ty c n : Nat) (l : List (FV × FV)), n ∈ [0, 32, 64, 96] → n < l.length → l.length ≤ n + 32 →
    (mmaElem ty (kblocks 16 l) 0 c).1 = (mmaStep ty (mmaElem ty (kblocks 16 (l.take n)) 0 c).1 (l.drop n)).1)
/-! ### The micropolygon pipeline and rays (R314 to R342) -/

/-- What a DICE on an open bucket comes to (R321 to R323). -/
def Sys2Proof.Claims.dicing (s : State) (ft b : Nat) (h : Word) : Try Diced :=
  let d := handleDie h
  let g := handleGeode h
  (s.asGarnet.gframe ft).andThen fun s fr =>
    (s.garnet fr d g b (s.garnetFuel fr d g b) []).andThen fun s r =>
      match r.1 with
      | .stall => .ok s r.1
      | .grid _ => (s.applyOut fr b r.2).andThen fun s _ => .ok s r.1
      | .empty =>
        (s.applyOut fr b r.2).andThen fun s _ =>
          (s.gnum (fr.rec_ b + 40) 4).andThen fun s n => (s.gput (fr.rec_ b + 40) 4 (n ||| 256)).andThen fun s _ => .ok s r.1

/-- R336 to R341: what each instruction of the micropolygon pipeline and each ray instruction leaves: registers, scc, the grid's or bucket's state; one
whose condition does not hold yet waits. The model's choices, not the spec's, on which clauses rest: log entries 39, 84, 87, 88, 89, 90. -/
def Obligations.PipelineInstructionResults : Prop := ∀ (s : State) (f : G64),
  let w := s.wave
  let h := w.sop f.a
  let set (v : Wave) (x : Word) : Wave := { v with s := cset v.s f.d.toNat x, scc := true }
  let die := s.die (handleDie h)
  let waits (i : Instr) (u : State) : State :=
    heldAt s i { u with wave := { u.wave with hold := if u.wave.dropped.isEmpty then .pipeline else .issued } }
  let quiet : Prop := s.accessesDone s.fresh = true
  let acquired (g : Grid) : State :=
    let at_ := BitVec.ofNat 64 (bits (s.die (handleDie g.handle)).gap 51 0 + handleDie g.handle * 2 ^ 25 + handleGeode g.handle * 2 ^ 21 +
      gridSlot g.handle * (16384 * (bits (s.die (handleDie g.handle)).gcfg 3 0 + 1)))
    after (s.putGrid { g with state := 2 }) 8 { w with
      hb := vecJoin w.hb g.vc, scc := true,
      s := cset (cset (cset w.s f.d.toNat (at_.setWidth 32)) (f.d.toNat + 1) ((at_ >>> 32).setWidth 32)) (f.d.toNat + 2) g.handle }
  let next (i : Instr) (u : State) : Prop := exec i s = .next u
  (Ready (.dice f) s → ∀ ft b, s.openBucket h true = some (ft, b) →
    let die := handleDie h
    let first : Prop := ∀ v ∈ s.waves, v.dicesBefore die (handleGeode h) s.fresh = false
    let stalled (u : State) : State := heldAt s (.dice f) { u with wave := { w with hold := .dice die (handleGeode h) s.fresh } }
    (¬first → w.dropped = [] → next (.dice f) (stalled s)) ∧ (first → ∀ u,
    (∀ x, dicing s ft b h = .ok u (.grid x) → u.wave.held = none → next (.dice f) (after u 8 { set u.wave x with eng := none })) ∧
    (dicing s ft b h = .ok u .empty → u.wave.held = none → next (.dice f) (after u 8 { u.wave with scc := false, eng := none })) ∧
    (dicing s ft b h = .ok u .stall → w.dropped = [] → next (.dice f) (stalled (s.keepBad u die))))) ∧
  (Ready (.gridacq f) s → f.sub = 0 → ∀ g, tfind die.grids h.toNat = some g → g.state = 1 → next (.gridacq f) (acquired g)) ∧
  (Ready (.gridacq f) s → f.sub = 1 → (s.openBucket h true).isSome = true →
    let diced := (s.slotGrids (handleDie h) (handleGeode h)).filter fun x => x.2.state == 1
    (diced = [] → next (.gridacq f) (after s 8 { w with scc := false })) ∧
    (∀ x ∈ diced, (∀ y ∈ diced, y = x ∨ x.2.diced < y.2.diced) → next (.gridacq f) (acquired x.2))) ∧
  (Ready (.gridrel f) s → ∀ g, tfind die.grids h.toNat = some g → g.state = 2 → (¬quiet → next (.gridrel f) (waits (.gridrel f) s)) ∧
    (quiet → ∀ u n, s.releaseGrid g = .ok u n → u.wave.held = none → next (.gridrel f) (after u 8 { u.wave with
      hb := tset u.wave.hb u.wave.uid (u.wave.pos + 1), s := cset u.wave.s f.d.toNat (BitVec.ofNat 32 n) }))) ∧
  (Ready (.spill f) s → ∀ g, tfind die.grids h.toNat = some g →
    (g.state = 4 → next (.spill f) (after s 8 { w with scc := true })) ∧
    (g.state = 3 → g.infl ≠ 0 → next (.spill f) (after s 8 { w with scc := false })) ∧
    (g.state = 3 → g.infl = 0 → ∀ u b, s.spill g = .ok u b → u.wave.held = none → next (.spill f) (after u 8 { u.wave with scc := b }))) ∧
  (Ready (.bkt f) s → f.sub = 0 →
    let word (i : Nat) : Nat := (cget w.s (f.a.toNat + i)).toNat
    let ft := word 2 + 2 ^ 32 * word 3
    let b := word 1
    let me := w.core / 96
    (s.die me).gcfg.getLsbD 31 = true → b < 2 ^ 14 → (∀ i, 4 ≤ i → i < 8 → word i = 0) →
    ∀ u1 x1 u x2, s.gread ft 256 = .ok u1 x1 → let fr := frameOf ft x1.1
    fr.bad x1.1 = false → b < fr.cols * fr.rows → u1.gread (fr.rec_ b) 64 = .ok u x2 →
    let u2 := u.acqAt (fr.rec_ b + 40) 4
    let bstate := ofBytes ((x2.1.drop 40).take 4)
    (bstate % 4 ≠ 0 → u2.wave.held = none → next (.bkt f) (after u2 8 { u2.wave with scc := false })) ∧
    (bstate % 4 = 0 → u2.freeGeode me = none → next (.bkt f) (waits (.bkt f) u2)) ∧
    ∀ g u3 x3 u4 x4, u4.wave.held = none → bstate % 4 = 0 → u2.freeGeode me = some g → u2.gput (fr.rec_ b + 40) 4 (1 + 16 * me) = .ok u3 x3 →
      u3.clearSamples fr b (ofBytes ((x2.1.drop 16).take 8)) = .ok u4 x4 →
      let v := u4.setGeode me g { u4.geode me g with open_ := some (ft, b), stack := [], next := 0, rasts := 0, vc := [] }
      next (.bkt f) (after v 8 (set v.wave (BitVec.ofNat 32 (me * 2 ^ 30 + g * 2 ^ 26 + b))))) ∧
  (Ready (.bkt f) s → ∀ ft b u1 fr u2 x u3 es, s.openBucket h true = some (ft, b) → s.gframe ft = .ok u1 fr →
    u1.gread (fr.rec_ b) 64 = .ok u2 x → let num (i n : Nat) : Nat := ofBytes ((x.1.drop i).take n)
    u2.gentries (num 24 8) (num 36 4) = .ok u3 es →
    let open_ (e : Nat × Nat × Nat) : Option (Grid × Nat × Nat) :=
      if nbit e.2.1 0 then none
      else (u3.grid (BitVec.ofNat 32 e.1)).bind fun g => if g.state == 3 || g.state == 4 then some (g, e.2) else none
    (f.sub = 1 → (∀ g fl at_ u4 y, es.findSome? open_ = some (g, fl, at_) → u3.gput (at_ + 4) 4 (fl ||| 1) = .ok u4 y → u4.wave.held = none →
        next (.bkt f) (after u4 8 (set { u4.wave with hb := vecJoin u4.wave.hb g.vc } g.handle))) ∧
      (es.findSome? open_ = none → ¬(nbit (num 40 4) 8 = true ∧ num 12 4 = 0 ∧ ∀ e ∈ es, nbit e.2.1 0 = true) →
        next (.bkt f) (waits (.bkt f) u3)) ∧
      (es.findSome? open_ = none → nbit (num 40 4) 8 = true → num 12 4 = 0 → (∀ e ∈ es, nbit e.2.1 0 = true) →
        (u3.acqAt (fr.rec_ b + 12) 4).wave.held = none → next (.bkt f) (after (u3.acqAt (fr.rec_ b + 12) 4) 8 { (u3.acqAt (fr.rec_ b + 12) 4).wave with scc := false }))) ∧
    (f.sub = 2 → let y := u3.geode (handleDie h) (handleGeode h)
      (¬quiet → next (.bkt f) (waits (.bkt f) s)) ∧
      (quiet → y.rasts ≠ 0 ∨ (∃ e ∈ es, nbit e.2.1 1 = false) → next (.bkt f) (waits (.bkt f) u3)) ∧
      (quiet → y.rasts = 0 → (∀ e ∈ es, nbit e.2.1 1 = true) → ∀ u4 z5 u5 z,
        let left := y.stack.foldl (fun l x => noteOut l x.pnum.toNat x.patch.toNat false (-1)) []
        u3.applyOut fr b left = .ok u4 z5 → u4.gput (fr.rec_ b + 40) 4 (num 40 4 / 4 * 4 + 2) = .ok u5 z →
        let y := u5.geode (handleDie h) (handleGeode h)
        let v := State.relEvery { u5 with wave := u5.wave.joinHb y.vc } (fr.rec_ b + 40) 4 (u5.wave.joinHb y.vc).hb
        next (.bkt f) (after (v.setGeode (handleDie h) (handleGeode h) { y with open_ := none, stack := [] }) 8
          { v.wave with hb := tset v.wave.hb v.wave.uid (v.wave.pos + 1) })))) ∧
  (Ready (.rast f) s → ∀ ft b g u fl at_, s.openBucket h false = some (ft, b) → s.grid (w.sop f.b) = some g → g.state = 3 ∨ g.state = 4 →
    ((s.gframe ft).andThen fun s fr => s.entryOf (fr.rec_ b) (w.sop f.b)) = .ok u (some (fl, at_)) → nbit fl 1 = false →
    let v := (u.putGrid { g with infl := g.infl + 1 }).countRast h true
    next (.rast f) (issued { v with wave := v.wave.tick } none (general f.cf) (.rast h (w.sop f.b) [] v.wave.hb true))) ∧
  (Ready (.rayq f) s → next (.rayq f) (issued s none (general f.cf) (.rayq f.mod.toNat
    (w.actList.map fun L => (L, (List.range 8).map fun i => w.vlane (f.a.toNat + i) L)) (w.sop64 f.b) (f.sub == 1)))) ∧
  (Ready (.rayrd f) s → (∃ o ∈ w.outst, o.eff.query = some f.mod.toNat) → next (.rayrd f) (waits (.rayrd f) s)) ∧
  (Ready (.rayrd f) s → (∀ o ∈ w.outst, o.eff.query ≠ some f.mod.toNat) →
    let q := w.qslot f.mod.toNat
    let words (L : Nat) : List Word :=
      if q.lanes.getLsbD L then cgetList q.words (5 * L) 5 else [0x7F800000, 0xFFFFFFFF, 0xFFFFFFFF, 0, 0]
    next (.rayrd f) (after s 8 { w with v := (List.range 5).foldl (fun c i =>
      setLanes c (64 * (f.d.toNat + i)) w.act (w.perLane fun L => (words L).getD i 0)) w.v }))

/-- R87, R96, R99, R100, R128: a pipe chooses slot 15 first, then a promoted wave, then the wave of least Age, the lower slot of two; the wave it chooses
issues. A wave that has waited 64 clocks is promoted; DIST and a YIELD run out; the die after the last one granted gives its oldest request a token.
The model's choices, not the spec's, on which clauses rest: log entries 4, 10, 136, 137. -/
def Obligations.IssueEvents : Prop :=
  (∀ (s : State) (core n : Nat) (l : List Nat), s.choose core l = some n →
    let promoted (x : Nat) : Bool := ((s.findWave core x).map Wave.promoted).getD false
    let age (x : Nat) : Nat := ((s.findWave core x).map Wave.age).getD 0
    n ∈ l ∧ (15 ∈ l → n = 15) ∧
      (15 ∉ l → (∀ x ∈ l, promoted x = true → promoted n = true) ∧
        ∀ x ∈ l, promoted x = promoted n → age n < age x ∨ (age n = age x ∧ n ≤ x))) ∧
  (∀ (s : State) (i : Instr), let w := s.wave
    let pipe := w.slot / 16
    (∀ v ∈ s.waves, v.core = w.core → v.slot / 16 ≠ pipe) → w.pend = [] → s.nextIns = some i → s.ready (some i) = true →
    isMatrix (some i) = false → tget 0 s.pipeFree (4 * w.core + pipe) ≤ s.clock →
    exec (.pipeIssue w.core pipe) s = .next { s with
      chosen := true, pipeFree := tset s.pipeFree (4 * w.core + pipe) (s.clock + w.issueClocks (some i)),
      wave := { w with waited := 0, promoted := false, requested := false } }) ∧
  (∀ s : State, let w := s.wave
    (64 ≤ w.waited → exec (.wavePromote w.core w.slot) s = .next { s with wave := { w with promoted := true } }) ∧
    (w.waited < 64 → exec (.wavePromote w.core w.slot) s = .next s) ∧
    (w.notBefore ≤ s.clock → exec (.yieldExpiry w.core w.slot) s = .next { s with wave := { w with notBefore := 0 } }) ∧
    (∀ i, s.nextIns = some i → w.lastIssue + max (insDist i) 1 ≤ s.clock + 1 →
      exec (.distElapsed w.core w.slot) s = .next { s with wave := { w with lastIssue := 0 } })) ∧
  (∀ (s : State) (d : Nat) (r : TokenReq), let u := (List.range 4).foldl (fun s d => s.purgeTokens d) s.dropUnready
    d < 4 → (u.die d).tokens = [r] → (∀ e < 4, e ≠ d → (u.die e).tokens = []) → r.need = 1 → u.inuse < u.pool →
    u.tokenParty r.core r.slot = some [(u.wave.core, u.wave.slot)] →
    exec .tokenGrant s = .next { u with
      dies := tset u.dies d { u.die d with tokens := [] }, wave := { u.wave with granted := true }, inuse := u.inuse + 1, lastDie := d })

/-- An outstanding instruction has completed (R92, R93): it is gone, its counters have fallen, a wave that it held goes on, its token is back. -/
def Sys2Proof.Claims.completed (s : State) (o : Outst) : State :=
  let fall (c : Option Nat) (k : Cells 6) : Cells 6 := match c with
    | some n => cset k n (cget k n - 1)
    | none => k
  { s with
    inuse := if o.token then s.inuse - 1 else s.inuse,
    wave := { s.wave with
      k := fall o.cf (fall o.cls s.wave.k), outst := s.wave.outst.filter fun p => p.id != o.id,
      hold := if s.wave.hold = .outst o.id then .none else s.wave.hold } }

/-- The wave with outstanding instruction `o` in the place of the one that has its number. -/
def Sys2Proof.Claims.replaced (s : State) (o : Outst) : State :=
  { s with wave := { s.wave with outst := s.wave.outst.map fun p => if p.id = o.id then o else p } }

/-- R92, R93, R190, R276, R295, R377: an outstanding instruction performs what it can; once all is performed, and it is the oldest of its class, its
results land and its counters fall. The oldest function operation of a core is decided; a matrix operation writes its block; a batch adds its bytes; a
failed compare-and-swap of the helper changes nothing; a refused access is made again. The model's choices, not the spec's, on which clauses rest: log
entries 51, 53, 71, 72, 74, 75. -/
def Obligations.CompletionEvents : Prop := ∀ (s u : State) (o p : Outst),
  let w := s.wave
  let due : Prop := w.findOutst o.id = some o ∧ o.due s.clock = true
  let again : Outst := { o with wait := .ready }
  let kept (t : State) (p : Outst) : Prop := t.wave.heldAt p = false
  let engine : State := s.engineOn o.id o.vc
  (due → o.cls ≠ some 2 → s.asEngine o (fun t => t.progress again) = (u, p) →
    (∀ ws, p.eff = .writes ws → let v := replaced u p
      (v.wave.oldest p = true → u.wave.ended = false → kept (landAll v ws) p →
        exec (.counterCompletion w.core w.slot o.id) s = .next (completed (landAll v ws) p)) ∧
      (v.wave.oldest p = false → exec (.counterCompletion w.core w.slot o.id) s = .next v)) ∧
    (p.results u.clock = none → exec (.counterCompletion w.core w.slot o.id) s = .next (replaced u p))) ∧
  (∀ regs results rest, s.fnOps w.core = (w.slot, o) :: rest → o.eff = .fn false regs results → w.ended = false →
    let t := landAll s regs
    (results = [] → kept t o → exec (.functionDecisionPoint w.core) s = .next (completed t o)) ∧
    (results ≠ [] → let v := replaced t { o with issued := t.clock, eff := .fn true [] results }
      exec (.functionDecisionPoint w.core) s = .next { v with
        wave := { v.wave with hold := if o.cf ≠ none ∧ v.wave.hold = .outst o.id then .none else v.wave.hold } })) ∧
  (∀ a b sp addr z, s.engineOps w.core = [(w.core, w.slot, o)] → o.eff = .mma a b sp addr z → o.due s.clock = true → kept s o →
    let ty := accType (s.myLaunch.tensor (cfgTid a.cfg)).fmt (s.myLaunch.tensor (cfgTid b.cfg)).fmt
    (z = false → ∀ x ∈ s.mmaResult a b sp addr z, s.accBadAt addr ty x.1 = none) → exec (.matrixCompletion w.core) s =
      .next (replaced (s.accPut addr ty ((s.mmaResult a b sp addr z).map fun x => (x.1, x.2.1))) { again with eff := .writes [] })) ∧
  (∀ copies obj bytes ecc obj' bytes' ecc', w.outst.find? (fun x => x.cls == some 2) = some o → o.due s.clock = true →
    o.eff = .batch copies obj bytes ecc → s.asEngine o (fun t => t.doBatch again copies obj bytes ecc) = (u, p) → p.cls = some 2 →
    (p.eff = .batch [] obj' bytes' ecc' → let v := replaced u p
      let t := match obj' with
        | some off => v.addBytes w.core v.wave.gslot off bytes' [(engUid o.id, 1)]
        | none => v
      exec (.copyBatchComplete w.core w.slot) s = .next (ecc'.foldl (fun t pa => t.deferErr 0x11 0 pa) (completed t p))) ∧
    (∀ c l, p.eff = .batch (c :: l) obj' bytes' ecc' → exec (.copyBatchComplete w.core w.slot) s = .next (replaced u p))) ∧
  (∀ bh h dr vc listed, due → o.eff = .rast bh h dr vc listed → s.firstRast bh o.id = true → ∀ x,
    State.doRast { engine with wave := { engine.wave with dropped := dr } } bh h (vecJoin vc [(engUid o.id, 1)]) listed o.pc = .ok u x →
    let v := u.engineOff s
    exec (.rastComplete w.core w.slot o.id) s = .next (completed { v with wave := { v.wave with dropped := w.dropped } } o)) ∧
  (∀ q rays top any l, due → o.eff = .rayq q rays top any → (∀ x ∈ w.outst, x.eff.query = some q → o.id ≤ x.id) →
    s.accessesDone o.id = true → engine.rayLanes (w.qslot q) top.toNat any rays = .ok u l →
    let v := u.engineOff s
    exec (.rayqComplete w.core w.slot o.id) s =
      .next (completed { v with wave := { v.wave with query := tset v.wave.query q (slotOf l) } } o)) ∧
  (∀ n va, due → o.eff = .trans n va → ∀ t, s.walkFill w.core va.toNat = (u, .leaf t) →
    exec (.translationWalk w.core w.slot o.id) s = .next (replaced u { o with wait := .ready, eff := .writes [.treg n t] })) ∧
  (∀ c, w.findOutst o.id = some o → o.wait = .retry c →
    (c ≤ s.clock → exec (.genRefusalRetry w.core w.slot o.id) s = .next (replaced s again)) ∧
    (s.clock < c → exec (.genRefusalRetry w.core w.slot o.id) s = .next s)) ∧
  exec (.hostAtomicHelperCas w.core w.slot o.id false) s = .next s ∧
  (due → s.doMem again true = (u, p) → exec (.hostAtomicHelperCas w.core w.slot o.id true) s = .next (replaced u p)) ∧
  (∀ b, (s.core w.core).bulks.find? (fun x => x.id == o.id && x.wait == .ready) = some b → b.slot = w.slot → b.st = false →
    let d := s.myLaunch.tensor b.td
    ∀ x, (s.engineOn b.id b.vc).pullElems b d b.elems { got := [], errs := [], bad := [] } = .ok u x → x.errs = [] → x.bad = [] →
      let at_ := (u.group w.core w.gslot).spadBase + b.spoff
      let v := (u.spadWrite w.core w.gslot b.spoff (b.image d (u.spadRead w.core at_ b.bytes) x.got)).clean (spadPa w.core at_) b.bytes
      exec (.cpbByteAddition w.core o.id) s = .next ((v.engineOff s).endBulk b)) ∧
  (∀ l t, (∃ x ∈ (s.launch l).phase, x.1 = t ∧ x.2 ≤ s.clock) →
    let free (v : Wave) : Wave := if v.priv = false ∧ v.launch = l ∧ v.hold = .bart t ∧ v.arrived = none then { v with hold := .none } else v
    exec (.bartRelease l t) s = .next { s with
      launches := tset s.launches l { s.launch l with phase := (s.launch l).phase.filter fun x => !(x.1 == t && decide (x.2 ≤ s.clock)) },
      wave := free w, waves := s.waves.map free })

/-- R229, R232, R384, R385, R396, R402, R432: the driver's answer to a fault: mapped, what waited for the page goes on, and the entries of a side log are
replayed; declined, the wave takes PAGE_LOAD where it is held. A deferred report is a trap at the next boundary; a trap that has been decided is
delivered. The model's choices, not the spec's, on which clauses rest: log entries 44, 111, 112, 113. -/
def Obligations.FaultEvents : Prop := ∀ (s : State) (tag : Word),
  let w := s.wave
  let open_ : Prop := ∃ r ∈ s.faults, r.tag = tag
  let answered (a : Word) : State := { s with faults := s.faults.filter fun r => r.tag != tag, mgmt := { s.mgmt with fresp := a ++ tag } }
  let on (x : Outst) : Outst := match x.wait with
    | .fault _ t => if t = tag then { x with wait := .ready } else x
    | _ => x
  let go (v : Wave) : Wave := { v with outst := v.outst.map on, hold := match v.hold with
    | .fault va t d => if t = tag then (v.held.map Held.back).getD .none else .fault va t d
    | h => h }
  let core (c : Core) : Core := { c with
    log := c.log.map fun e => if e.tag = tag then { e with answered := true } else e,
    bulks := c.bulks.map fun b => match b.wait with
      | .fault _ t => if t = tag then { b with wait := .ready } else b
      | _ => b }
  (¬open_ → exec (.frespMapped tag) s = .next (answered 1) ∧ exec (.frespDeclined tag) s = .next (answered 2)) ∧
  (open_ → exec (.frespMapped tag) s = .next { answered 1 with
    wave := go w, waves := s.waves.map go, cores := s.cores.map fun c => (c.1, core c.2) }) ∧
  (open_ → exec (.frespDeclined tag) s = .next (
    let t := (s.allWaves.map fun v => (v.core, v.slot)).foldl (fun t p => t.declineWave p.1 p.2 tag) (answered 2)
    (t.cores.map (·.1)).foldl (fun t c => (t.declineLog c tag).declineBulks c tag) t)) ∧
  (∀ va detail, w.hold = .fault va tag detail → detail ≠ 8 → w.outst = [] → w.ended = false → w.trap = none →
    s.declineWave w.core w.slot tag = State.raise { s with wave := { w with hold := .none, held := none } }
      { code := 6, detail := detail, addr := va, pc := w.pc, retired := false, boundary := true }) ∧
  (∀ o c va, w.hold = .none → w.outst = [o] → o.wait = .fault va tag → o.eff = .store c → w.ended = false → w.reports = [] →
    s.declineWave w.core w.slot tag = { s with wave := { w with
      outst := [{ o with wait := .ready, eff := .writes [] }], reports := [{ code := 8, detail := 7, addr := va }] } }) ∧
  (∀ e rest lane va data, (s.core w.core).log = e :: rest → e.answered = true → e.lanes = [(lane, va, data)] → w.slot = e.slot →
    w.launch = e.launch →
    let c : MemCap :=
      { trn := 0, tr := TransReg.reset, nbytes := e.nbytes, lanes := [], done := [], order := 0, scope := 0, rels := e.rels }
    let h : How := { acc := .store, rmw := e.op.isSome, pcieOp := (e.op.map nativeOp).getD false, helper := true }
    ∀ u bs, s.laneDo c { lane := lane, off := (va.toNat : Int), data := data } h (writtenBytes e.op data) = .ok u bs none →
    exec (.sideLogReplay w.core) s = .next { u with cores := tset u.cores w.core { u.core w.core with
      log := (u.core w.core).log.filter fun x => !(x.id == e.id && x.va == e.va) } }) ∧
  (∀ r l, w.reports = r :: l → w.ended = false → w.recovery = false → w.trap = none → w.hold = .none →
    exec (.deferredReport w.core w.slot) s = .next (State.raise { s with wave := { w with reports := l } }
      { code := r.code, detail := r.detail, addr := r.addr, pc := w.pc, retired := false, boundary := true })) ∧
  (∀ t, w.trap = some t → (w.batch = [] → w.drained = false → exec (.trapDelivery w.core w.slot) s = .next s) ∧
    (w.drained = true → w.priv = false → w.recovery = false → (s.core w.core).trapvec.getLsbD 0 = true → w.pend = [] → ∀ u bs,
      let v := s.withdrawWaits
      let t := if t.boundary then { t with pc := w.pc } else t
      v.frameIo v.frameAddr .store (fun _ => v.wave.frame t (v.dieClock (w.core / 96)).toNat) = .ok u bs →
      v.wave.hold = .none ∧ v.wave.held = none ∧ v.wave.arrived = none ∧ v.wave.pc = w.pc ∧
        exec (.trapDelivery w.core w.slot) s = .next (u.enterHandler t v.frameAddr))) ∧
  (∀ value, s.boot.state = 3 ∨ s.boot.state = 4 → exec (.fltconsWrite value) s = .next (State.writeReports { s with mgmt := { s.mgmt with fltcons := value } }))

/-- The agent of the packet's core stands before packet `p`: it is claimed and has not ended, the device can write its end, its own bytes are
in order, and if it is ordered, every earlier packet of its stream has retired (R27, R435). -/
def Sys2Proof.Claims.InHand (s : State) (p : Packet) : Prop :=
  s.packetAt p.stream p.ticket = some p ∧ s.canEnd p = true ∧ p.breach = none ∧
    (p.ord = true → p.ticket ≤ s.streamNum p.stream 32 8) ∧ s.wave.core = p.core ∧ s.wave.slot = 15

/-- R14, R25, R26, R27, R29, R226, R235, R435: an agent claims a packet by moving TICKET on; it refuses one for its own bytes with the lowest code and
parks one that comes too early; NOP completes, WAITV completes once its word has reached the value and is parked before that, SIGNAL stores or adds,
HARVEST stores the DIRTY bits that it clears, SHOOTDOWN makes what is cached stale. An end writes ERR and ERRTKT if it is the first failure, the
status word and RETIRE. The model's choices, not the spec's, on which clauses rest: log entries 94, 95, 96, 97, 98, 99, 100, 130, 131, 132. -/
def Obligations.PacketEvents : Prop := ∀ (s : State) (p : Packet),
  let vc := s.startVec p
  let parked : State := { s with packets := s.packets.map fun q => if q.stream = p.stream ∧ q.ticket = p.ticket then { p with parked := true } else q }
  let own : List (Nat × Instr) := [(0, .nopPacket p.stream p.ticket), (2, .waitv p.stream p.ticket), (3, .signal p.stream p.ticket),
    (4, .harvest p.stream p.ticket), (5, .shootdown p.stream p.ticket)]
  let again : List Instr := [.parkedPacketReexamine p.stream p.ticket, .parkRecheckTimer p.stream p.ticket]
  let runs (i : Instr) : Prop := (p.type, i) ∈ own ∨ (5 < p.type ∧ i = .nopPacket p.stream p.ticket) ∨ (i ∈ again ∧ p.parked = true ∧ p.type ≠ 1)
  (∀ i, runs i → s.packetAt p.stream p.ticket = some p → s.canEnd p = true →
    (∀ c, p.breach = some c → exec i s = .next (s.endPacket p c [])) ∧
    (p.breach = none → p.parked = false → s.waitvRefused p = true → exec i s = .next (s.endPacket p 0x0A [])) ∧
    (p.breach = none → p.parked = true ∨ s.waitvRefused p = false → p.ord = true → s.streamNum p.stream 32 8 < p.ticket →
      exec i s = .next parked)) ∧
  (∀ i, runs i → InHand s p →
    (p.type = 0 → exec i s = .next (s.endPacket p 0 vc)) ∧
    (p.type = 2 → ∀ t bs key, s.vio p.core (p.num 8 8) 8 (fun _ => none) How.load id = .ok t (bs, key) →
      (ofBytes bs < p.num 16 8 → exec i s = .next (t.park p)) ∧
      (p.num 16 8 ≤ ofBytes bs → ∃ hb, exec i s = .next (State.endPacket t p 0 hb))) ∧
    (p.type = 3 → p.num 24 1 = 0 → ∀ t a, s.vio p.core (p.num 8 8) 8 (fun _ => none) How.store (fun _ => toBytes (p.num 16 8) 8) = .ok t a →
      exec i s = .next ((t.writeRel a.2 8 false [(5, vc)]).endPacket p 0 vc)) ∧
    (p.type = 3 → p.num 24 1 = 1 → ∀ t a,
      s.vio p.core (p.num 8 8) 8 (fun x => if x.perm.getLsbD 0 then none else some 1)
        { acc := .store, rmw := true, pcieOp := true, helper := true } (atomicBytes 0 (toBytes (p.num 16 8) 8)) = .ok t a →
      exec i s = .next ((t.writeRel a.2 8 true [(5, vc)]).endPacket p 0 vc)) ∧
    (p.type = 4 → p.num 16 8 = 4096 → s.storable (p.num 24 8) = true → ∀ x, s.walk (p.num 8 8) = .leaf x → x.kind ≠ 3 →
      inFrame x.pbase.toNat = true → p.num 8 8 < 2 ^ 52 →
      let r := s.frameRec x.pbase.toNat
      let u : State := { s with frames := cset s.frames (x.pbase.toNat / 4096) (r &&& ~~~BitVec.ofNat 64 (2 ^ 49)) }
      ∀ t b, u.vwrite p.core (p.num 24 8) [if r.getLsbD 49 then 1 else 0] 1 = .ok t b → exec i s = .next (t.endPacket p 0 vc)) ∧
    (p.type = 5 → let base := p.num 8 8
      let len := p.num 16 8
      exec i s = .next (State.endPacket { s with
        wave := s.wave.shot base len, waves := s.waves.map fun w => w.shot base len,
        cores := s.cores.map fun c => (c.1, { c.2 with tlb := c.2.tlb.filter fun t => !t.inRange base len }),
        dies := s.dies.map fun d => (d.1, { d.2 with
          tlb := d.2.tlb.filter fun t => !t.inRange base len, walk := d.2.walk.filter fun e => !walkInRange base len e }) } p 0 vc))) ∧
  (∀ (old : List Byte) (v : Nat), old.length = 8 → v < 2 ^ 64 → atomicBytes 0 (toBytes v 8) old = toBytes ((ofBytes old + v) % 2 ^ 64) 8) ∧
  (∀ (t : TransReg) (base len : Nat), let hit := len = 0 ∨ (t.vpage < base + len ∧ base < t.vpage + t.bytes)
    (hit → t.shot base len = { t with stale := true }) ∧ (¬hit → t.shot base len = t)) ∧
  (p.evt = false → let st := s.statusAt p.stream p.ticket
    let u := (s.physWrite st (toBytes (p.ticket + 1) 8)).writeRel (s.devAt st).2 8 false [(5, vc)]
    let r := u.retireFrom p.stream (u.streamNum p.stream 32 8) 65536
    let t := (u.touch (u.statusAt p.stream r) 8).physWrite (s.streamAt p.stream + 32) (toBytes r 8)
    s.endPacket p 0 vc = { t with
      packets := t.packets.filter fun q => !(q.stream == p.stream && q.ticket == p.ticket),
      hbStream := tset t.hbStream p.stream (vecJoin (tget [] t.hbStream p.stream) vc) }) ∧
  (∀ core st, s.nextStream core ≠ some st → exec (.packetClaim core st) s = .next s) ∧
  (∀ core st, s.nextStream core = some st → s.devHeld (s.streamAt st + 24) = false →
    let t := s.streamNum st 24 8
    let entry := s.streamNum st 0 8 + 64 * (t % 2 ^ s.streamNum st 8 1)
    let u := ((s.touch (s.streamAt st) 64).touch entry 64).physWrite (s.streamAt st + 24) (toBytes (t + 1) 8)
    s.claimable core st = true ∧ exec (.packetClaim core st) s = .next { u with
      lastStream := tset u.lastStream core st,
      packets := u.packets ++ [{
        stream := st, ticket := t, core := core, parked := false, launch := none, bytes := s.devRead entry 64,
        vc := u.agentSees core (u.streamAt st + 16) 8 }] })

/-- R30, R32, R33, R51, R52, R405 to R407: a LAUNCH that passes validation is numbered and takes its route tags; each of its cores receives
the request and grants it where the group fits; once all have, its waves start with their Age and work identifiers; an ended wave
returns its slot, a group that has none is freed, and the launch completes when every group is. The model's choices, not the spec's, on which clauses rest: log entries 105, 106, 107. -/
def Obligations.LaunchEvents : Prop := ∀ (s : State) (n : Nat),
  let l := s.launch n
  (∀ p, InHand s p → p.type = 1 → p.launch = none → ∀ t c, s.capture p = .ok t c →
    (∀ code, c.breach s.mgmt.featacc = some code →
      exec (.launch p.stream p.ticket) s = .next (t.endPacket p code [])) ∧
    (c.breach s.mgmt.featacc = none → c.head.wsrc ≠ 2 →
      exec (.launch p.stream p.ticket) s = .next (State.sequence { t with
        fresh := t.fresh + 1, launches := tset t.launches t.fresh (c.launch p (s.startVec p)),
        packets := t.packets.map fun q => if q.stream = p.stream ∧ q.ticket = p.ticket then { p with parked := false, launch := some t.fresh } else q } t.fresh))) ∧
  (let want := (List.range 8).filter fun t => l.btags.getLsbD t
    let free := (List.range 64).filter fun t => !s.tagsUsed.contains t
    l.wsrc ≠ 1 → (want.length ≤ free.length → s.sequence n = { s with
        launches := tset s.launches n { l with sequenced := true, pseq := s.nextPseq, tags := want.zip free, disp := none },
        nextPseq := s.nextPseq + 1, tagsUsed := s.tagsUsed ++ free.take want.length }) ∧
      (free.length < want.length → s.sequence n = s)) ∧
  (∀ c, l.sequenced = true → c ∈ l.cmask → c ∉ l.requested → n ∉ (s.core c).requests →
    exec (.placementRequest c n) s = .next { s with
      launches := tset s.launches n { l with requested := l.requested ++ [c] },
      cores := tset s.cores c { s.core c with requests := (s.core c).requests ++ [n] } }) ∧
  (∀ c f, s.nextRequest c = some n → l.gang = false → s.turnOf c n = true → (s.room c).fit l.need = some f →
    exec (.placementGrant c) s = .next (s.place c n f)) ∧
  (∀ c f, let t := s.place c n f
    t.waves = s.waves ++ f.slots.zipIdx.map (fun x => l.wave n c f.gslot x.1 x.2 (Config.cores + s.fresh + x.2)) ∧
      t.group c f.gslot = { noGroup with
        launch := n, gindex := indexIn l.cmask c, spadBase := f.spadBase, spadLen := 1024 * l.spad, accBase := f.accBase,
        accLen := 8192 * l.acc, tiles := f.tiles, waves := l.nwave, since := s.clock } ∧
      t.wave = s.wave ∧ t.mem = s.mem ∧ (c ∉ l.granted → (t.launch n).granted = l.granted ++ [c])) ∧
  (∀ (r : Room) (x : Need) (f : Fit), r.fit x = some f → f.gslot < 8 ∧ f.gslot ∉ r.gslots ∧ (∀ g < f.gslot, g ∈ r.gslots) ∧
    f.slots.length = x.waves.length ∧ (∃ p < 4, ∀ i < x.waves.length, f.slots.getD i 0 / 16 = (p + x.waves.getD i 0) % 4) ∧ f.slots.Nodup ∧ (∀ sl ∈ f.slots, sl < 64 ∧ ∀ w ∈ r.waves, w.1 ≠ sl) ∧
    f.tiles.length = x.tiles ∧ (∀ t ∈ f.tiles, t < Config.tileRegs ∧ t ∉ r.tiles)) ∧
  (l.sequenced = true → l.started = false → l.granted.length = l.cmask.length →
    let go (w : Wave) : Wave :=
      if w.priv = true ∨ w.launch ≠ n then w
      else { w with
        suspended := false, age := (s.core w.core).nextAge + w.windex,
        wid := l.widbase + BitVec.ofNat 64 ((s.group w.core w.gslot).gindex * l.nwave + w.windex) }
    let cores := l.cmask.foldl (fun t c => tset t c { tget Core.reset t c with nextAge := (tget Core.reset t c).nextAge + l.nwave }) s.cores
    exec (.launchStart n) s = .next { s with
      wave := go s.wave, waves := s.waves.map go, cores := cores,
      launches := tset s.launches n { l with started := true, drain := none, draining := none } }) ∧
  (∀ core slot w, s.wave.core = core → s.wave.slot = 15 → slot ≠ 15 → s.waves.find? (fun v => v.at_ core slot) = some w →
    w.priv = false → w.ended = true → slot < 64 → w.pend = [] → w.outst = [] → (∀ x ∈ w.k, x.2 = 0) →
    (∀ b ∈ (s.core core).bulks, b.slot ≠ slot) →
    exec (.waveSlotReturn core slot) s = .next { s with
      groups := tset s.groups (16 * core + w.gslot) { s.group core w.gslot with waves := (s.group core w.gslot).waves - 1 },
      waves := s.waves.filter fun v => !v.at_ core slot }) ∧
  (∀ core g x, tfind s.groups (16 * core + g) = some x → x.waves = 0 → (∀ b ∈ (s.core core).bulks, b.gslot ≠ g) →
    (∀ b ∈ (s.core core).smap, b.grp ≠ g) →
    exec (.groupFree core g) s = .next { s with
      cores := tset s.cores core { s.core core with objs := (s.core core).objs.filter fun o => o.gslot != g },
      groups := s.groups.filter fun y => y.1 != 16 * core + g,
      launches := tset s.launches x.launch { s.launch x.launch with freed := (s.launch x.launch).freed + 1 } }) ∧
  (∀ p, s.packets.find? (fun p => p.launch == some n) = some p → l.started = true → l.freed = l.cmask.length →
    (∀ c ∈ s.cores, ∀ e ∈ c.2.log, e.launch ≠ n) → (∀ v ∈ s.allWaves, v.priv = false → v.launch ≠ n) → s.canEnd p = true → l.done = 0 → l.core = s.wave.core → s.wave.slot = 15 →
    exec (.launchCompletion n) s = .next ((s.endPacket p 0 (vecJoin l.hbStart l.hbEnd)).dropLaunch n)) ∧
  (l.disp = none → s.dropLaunch n = { s with
    tagsUsed := s.tagsUsed.filter fun t => !l.tags.any fun x => x.2 == t, launches := s.launches.filter fun x => x.1 != n })

/-- R55 to R57, R396, R398, R399: after 2 ms a gang that finds no room marks a cluster, and 8 ms later groups on it are stopped; a stopped group that has
drained is saved in the suspension area and resumed where it fits, its work unchanged. The model's choices, not the spec's, on which clauses rest: log
entries 13, 101, 102, 103, 104, 135. -/
def Obligations.PreemptEvents : Prop := ∀ (s : State) (n : Nat),
  let l := s.launch n
  (∀ t, l.drain = some t → l.draining = none → (s.clock < t + 5200000 → exec (.drainClockMark n) s = .next s) ∧
    (∀ k, t + 5200000 ≤ s.clock → l.openClusters.filter (fun k => s.leads n k) = [k] →
      exec (.drainClockMark n) s = .next { s with launches := tset s.launches n { l with draining := some k } })) ∧
  ((∀ t, l.tried = some t → exec (.drainClockPreempt n) s = .next s ∧ (s.clock < t + 260000 → exec (.preemptRetry n) s = .next s)) ∧
    (l.tried = none → exec (.preemptRetry n) s = .next s)) ∧
  (∀ i, (i = .drainClockPreempt n ∧ l.tried = none) ∨ (i = .preemptRetry n ∧ ∃ t, l.tried = some t ∧ t + 260000 ≤ s.clock) →
    let tries (x : Option Nat) : State := { s with launches := tset s.launches n { l with tried := x } }
    ∀ t k, l.drain = some t → l.draining = some k →
    (s.clock < t + 26000000 ∨ s.gangFits l k = true → exec i s = .next s) ∧
    (∀ c g x, t + 26000000 ≤ s.clock → s.gangFits l k = false → s.clusterGroups k = [(c, g, x)] → s.stopping c g = false →
      (s.launch x.launch).gang = false →
      (s.preemptibleAll [(c, g)] = true → exec i s = .next ((tries none).stopGroup c g)) ∧
      (s.preemptibleAll [(c, g)] = false → exec i s = .next (tries (some s.clock))))) ∧
  (s.wave.batch = [] → s.wave.granted = false → let u := s.stopWave
    u.wave = { s.wave with suspended := true, requested := false, waited := 0, promoted := false } ∧ u.waves = s.waves ∧
      u.mem = s.mem ∧ u.inuse = s.inuse) ∧
  (∀ c g, let x := s.group c g
    s.stopping c g = true → (s.launch x.launch).gang = false → s.preemptibleAll [(c, g)] = false →
    let go (w : Wave) : Wave :=
      if w.core = c ∧ w.gslot = g ∧ w.priv = false then { w with suspended := !(s.launch x.launch).started } else w
    exec (.groupPreempt c g) s = .next { s with
      wave := go s.wave, waves := s.waves.map go, groups := tset s.groups (16 * c + g) { x with stopping := false } }) ∧
  (∀ c g a, s.stopping c g = true → (s.launch (s.group c g).launch).gang = false → s.preemptibleAll [(c, g)] = true →
    (∀ w ∈ s.groupWaves c g, w.outst = [] ∧ w.batch = []) →
    (∀ b ∈ (s.core c).bulks, b.gslot ≠ g) → (∀ b ∈ (s.core c).smap, b.grp ≠ g) → s.areaFor (s.saveSize c g) = some a →
    (∀ y ∈ s.suspended, y.core = c → y.addr ≠ a) →
    ∃ t, exec (.groupPreempt c g) s = .next t ∧ t.groups = s.groups.filter (fun x => x.1 != 16 * c + g) ∧
      ∃ x, t.suspended = s.suspended ++ [x] ∧ x.core = c ∧ x.addr = a ∧ x.len = s.saveSize c g ∧ x.binds = []) ∧
  (∀ w : Wave, w.pend = [] → w.rep = none → w.pblk = none →
    (w.saved.s, w.saved.v, w.saved.m, w.saved.em, w.saved.pc, w.saved.fn, w.saved.resume) = (w.s, w.v, w.m, w.em, w.pc, w.fn, w.resume) ∧
      ∀ r ∈ w.saved.tr, r.2.stale = true) ∧
  (∀ t : TransReg, TransReg.load t.save = { t with stale := true }) ∧
  (∀ c x f, s.resumeTurn c = some x → (s.room c).fit { (s.launch x.group.launch).need with waves := x.waves.map Wave.windex } = some f → x.binds = [] →
    exec (.groupResume c) s = .next (s.restoreGroup x f)) ∧
  (∀ x f, (s.restoreGroup x f).waves = s.waves ++ ((s.loadContext x (s.devRead x.addr x.len)).zip f.slots).zipIdx.map (fun p => { p.1.1 with
      slot := p.1.2, gslot := f.gslot, suspended := !(s.launch x.group.launch).started, age := (s.core x.core).nextAge + p.2 }) ∧
    (s.restoreGroup x f).suspended = s.suspended.filter fun y => !(y.core == x.core && y.addr == x.addr))

/-- R40, R41, R45, R47, R59 to R61: a waiting ENQ or DEQ is past once its step on the queue is done; freed room goes to the oldest ENQ of a shard, an
entry to the oldest DEQ of a die, an idle die takes from the fullest other shard, first by the rotor, that has two entries; a closed queue's waiters
end; a queue in error fails its waiters; the overflow entries owed are written before others. The model's choices, not the spec's, on which clauses
rest: log entries 108, 109, 110, 133. -/
def Obligations.QueueUnitEvents : Prop := ∀ (s u : State) (q : DWord) (die : Nat),
  let w := s.wave
  let past (v : Wave) : Wave := { v.advance 8 u.clock with hold := .none, lastIssue := v.lastIssue }
  (∀ n d, w.hold = .deq q n d →
    (∀ ws, s.deqStep q.toNat = .ok u (.took ws) → u.wave.held = none → s.serve w.core w.slot = { u with wave := past { u.wave with
      s := csetList u.wave.s d ws, scc := true, qdepth := BitVec.ofNat 32 (bits (ws.headD 0) 11 8) } }) ∧
    (s.deqStep q.toNat = .ok u .closed → s.serve w.core w.slot = { u with wave := past { u.wave with scc := false } }) ∧
    (s.deqStep q.toNat = .ok u .wait → s.serve w.core w.slot = s) ∧
    (∀ c, s.deqStep q.toNat = .ok u (.fail c) → s.serve w.core w.slot = u.faultAt 0x12 c q)) ∧
  (∀ n ws, w.hold = .enq q n ws →
    (s.enqStep q.toNat ws = .ok u .stored → s.serve w.core w.slot = { u with wave := past u.wave }) ∧
    (s.enqStep q.toNat ws = .ok u .wait → s.serve w.core w.slot = s) ∧
    (∀ c, s.enqStep q.toNat ws = .ok u (.fail c) → s.serve w.core w.slot = u.faultAt 0x12 c q)) ∧
  (∀ shard tail pa, s.physOf (q.toNat + 72 + 64 * (shard % 4)) = some pa →
    exec (.bucketFill q shard tail) s =
      .next (((s.physWrite pa (toBytes tail.toNat 8)).writeRel (s.devAt pa).2 8 false [(5, s.hbHost)]).unpark q)) ∧
  (∀ h, s.qhead 0 q.toNat = .ok u h →
    exec (.queueCloseWake q) s = .next (if h.close = true then (s.waiters fun v => v.deqSince q).foldl (fun t x => t.serve x.1 x.2) s else s) ∧
    exec (.queueHeaderRevalidate q) s = .next
      (if h.qerr ≠ 0 ∨ h.valid = false then (s.queueWaiters q).foldl (fun t x => t.serve x.1 x.2) s else s)) ∧
  (∀ c sl l, s.enqWaiters q die = [] → s.deqWaiters q die = (c, sl) :: l → exec (.queueWaiterServe q die) s = .next (s.serve c sl)) ∧
  (∀ c sl l, s.enqWaiters q die = (c, sl) :: l → (s.serve c sl).stillWaits q c sl = false → ((s.serve c sl).unpark q).deqWaiters q die = [] →
    exec (.queueWaiterServe q die) s = .next ((s.serve c sl).unpark q)) ∧
  (∀ i locked, (i, locked) ∈ ([(.stealOptimistic q die, false), (.stealLocked q die, true)] : List (Instr × Bool)) →
    (s.deqWaiters q die = [] → exec i s = .next s) ∧
    (∀ l h, let x := s.qunit q
      s.deqWaiters q die = (w.core, w.slot) :: l → s.qhead w.core q.toNat = .ok u h → h.qerr = 0 → h.valid = true → h.empty die = true →
      die ∉ x.parked → x.locked.contains die = locked → (locked = true ∨ x.mirror = []) →
      let now := (List.range 4).map h.count
      (∀ n d v ws t, w.hold = .deq q n d → victimOf now die x.rotor = some v → v < 4 → u.stealFrom q.toNat h v = .ok t (.took ws) →
        t.wave.held = none → exec i s = .next { t with
          wave := { ({ t.wave with s := csetList t.wave.s d ws, scc := true, qdepth := BitVec.ofNat 32 (bits (ws.headD 0) 11 8) } : Wave).advance
            8 t.clock with hold := .none, lastIssue := t.wave.lastIssue }, fresh := t.fresh + 1,
          queues := tset t.queues q.toNat { x with mirror := now, rotor := x.rotor + 1, locked := sdel x.locked die } }) ∧
      (victimOf now die x.rotor = none → exec i s = .next { s with fresh := s.fresh + 1, queues := tset s.queues q.toNat { x with
        mirror := now, locked := if locked then sdel x.locked die else sput x.locked die,
        parked := if locked then sput x.parked die else x.parked } }))) ∧
  (∀ (counts : List Nat) (thief : Nat) (rotor : BitVec 2), let far (v : Nat) : Nat := (v + 4 - rotor.toNat) % 4
    let able (v : Nat) : Prop := v < 4 ∧ v ≠ thief ∧ 2 ≤ counts.getD v 0
    (∀ v, victimOf counts thief rotor = some v → able v ∧ ∀ x, able x →
      counts.getD x 0 < counts.getD v 0 ∨ (counts.getD x 0 = counts.getD v 0 ∧ far v ≤ far x)) ∧
    (victimOf counts thief rotor = none → ∀ v, ¬able v)) ∧
  (∀ value, s.boot.state = 3 ∨ s.boot.state = 4 → let t : State := { s with mgmt := { s.mgmt with evcons := value } }
    (s.owed = [] → exec (.evconsWrite value) s = .next t) ∧
    (∀ src n, s.owed = [src] → ringRoom s.mgmt.evsize s.mgmt.evprod value = true → t.lostSettled src = true → t.lostCount src = some n →
      exec (.evconsWrite value) s = .next { t.putEvent (overflowEntry src n) with owed := [] }))

/-- `t` after `s` at a line's home: the directory holds `st` for it; `busy` is its open transaction, `acks` the answers due, `queue` what waits
behind it; `ms` are the messages in flight, `cp` the copies, `mem` the storage. No other line's entry and no wave differs. -/
def Sys2Proof.Claims.HomeHas (s t : State) (line : Nat) (st : DirState) (busy : Option (Nat × DirState)) (acks : Nat)
    (queue : List (Nat × Bool)) (ms : List Msg) (cp : Table Copy) (mem : List Host.Cell) : Prop :=
  let e := t.dirAt line
  e.state = st ∧ e.busy = busy ∧ e.acks = acks ∧ e.queue = queue ∧ e.host = (s.dirAt line).host ∧ t.msgs = ms ∧ t.copies = cp ∧
    t.mem = mem ∧ t.wave = s.wave ∧ t.waves = s.waves ∧ ∀ l, l ≠ line → t.dirAt l = s.dirAt l

/-- R220, R238, R249, R250, R366, R370 to R375: requests and messages at a line's home. A reader of a line that no other die has gets it exclusive, or shared where R371
restricts it; a writer waits until every sharer has acknowledged and the owner has answered; a copy is given up only once the leases
that its slice recorded have passed; a line in a transaction keeps later requests in order. -/
def Sys2Proof.Claims.DirectoryEvents : Prop := ∀ (s : State) (d line : Nat) (l : List Msg),
  let e := s.dirAt line
  let pa := (s.lineOwner line).1
  let home := (s.lineOwner line).2
  let far : Prop := d < 4 ∧ d ≠ home ∧ s.homeOnly line = false ∧ s.makeRoom line pa home = .ok s ∧
    (s.dir.map Prod.fst).Pairwise (· < ·)
  let key := 2 ^ 40 * d + line
  let to_ (die : Nat) (k : MsgKind) : Msg := { die := die, line := line, kind := k }
  let bytes := s.valueAt (128 * line) 128
  let mine := s.lineBytes d (128 * line) 128
  let first (k : MsgKind) : Prop := s.msgs = to_ d k :: l ∧ (s.dir.map Prod.fst).Pairwise (· < ·)
  let coming (r : Nat) : Prop := ∃ m ∈ l, m.die = r ∧ m.line = line ∧ ∃ g bs, m.kind = .data g bs
  let gone : Table Copy := s.copies.filter fun p => p.1 != key
  let held (x : LineState) : Prop := s.copyAt d line = x
  let turned (x : LineState) : Table Copy := tset s.copies key { state := x, data := (tget { state := .i, data := [] } s.copies key).data }
  let gives (i : Instr) (st : DirState) (busy : Option (Nat × DirState)) (acks : Nat) (queue : List (Nat × Bool)) (ms : List Msg)
      (cp : Table Copy) : Prop := ∃ t, exec i s = .next t ∧ HomeHas s t line st busy acks queue ms cp s.mem
  (far → held .i → e.busy.isSome = true →
    gives (.reqs d line) e.state e.busy e.acks (e.queue ++ [(d, false)]) s.msgs s.copies ∧
    gives (.reqm d line) e.state e.busy e.acks (e.queue ++ [(d, true)]) s.msgs s.copies) ∧
  (far → held .i → e.busy = none →
    let own (st : DirState) (k : MsgKind) (i : Instr) : Prop := gives i st none e.acks e.queue (s.msgs ++ [to_ d k]) s.copies
    let opens (i : Instr) (r : Nat) (st : DirState) (ms : List Msg) : Prop := gives i e.state (some (r, st)) ms.length e.queue (s.msgs ++ ms) s.copies
    (e.state = .u → s.restricted line = true → own (.s (maskAdd 0 d)) (.data .s bytes) (.reqs d line)) ∧
    (e.state = .u → s.restricted line = false → own (.em d) (.data .e bytes) (.reqs d line) ∧ own (.em d) (.data .m bytes) (.reqm d line) ∧
      ∀ i ∈ ([.reqs d line, .reqm d line] : List Instr), ∃ t, exec i s = .next t ∧ (t.frameRec pa).getLsbD 49 = true) ∧
    (∀ m, e.state = .s m → own (.s (maskAdd m d)) (.data .s bytes) (.reqs d line)) ∧
    (∀ o, e.state = .em o →
      (s.restricted line = false → opens (.reqs d line) d (.o o (maskAdd 0 d)) [to_ o (.forward d false)]) ∧
      (s.restricted line = true → opens (.reqs d line) d (.s (maskAdd 0 d)) [to_ o .recall] ∧ opens (.reqm d line) 4 .u [to_ o .recall]) ∧
      (s.restricted line = false → o ≠ d → opens (.reqm d line) d (.em d) [to_ o (.forward d true)])) ∧
    (∀ o m, e.state = .o o m → s.restricted line = false → opens (.reqs d line) d (.o o (maskAdd m d)) [to_ o (.forward d false)]) ∧
    (∀ m b bs, e.state = .s m → s.restricted line = false → maskDies m d = b :: bs →
      opens (.reqm d line) d (.em d) ((b :: bs).map fun x => to_ x .inv))) ∧
  (held .m → exec (.reqm d line) s = .next s) ∧
  (held .e → exec (.reqm d line) s = .next { s with copies := turned .m }) ∧
  (∀ x, x ≠ .i → held x → exec (.reqs d line) s = .next s) ∧
  (∀ g bs, g ≠ .i → first (.data g bs) → let lease := tget 0 s.leases (2 ^ 40 * home + line)
    (∀ r st, e.busy = some (r, st) → r ≠ d) → exec (.data d line) s = .next { s with
      msgs := l, copies := tset s.copies key { state := g, data := bs },
      leases := if (g = .e ∨ g = .m) ∧ s.clock < lease then tset s.leases key (max lease (tget 0 s.leases key)) else s.leases }) ∧
  (∀ g bs st, first (.data g bs) → e.busy = some (d, st) → exec (.data d line) s = .next s) ∧
  (first .inv → ¬coming d → exec (.inv d line) s = .next { s with msgs := l ++ [to_ d .ack] }) ∧
  (first .recall → ¬coming d → s.copyAt d line ≠ .i → (s.leasedAt d line = true → exec (.recall d line) s = .next s) ∧
    (s.leasedAt d line = false → exec (.recall d line) s = .next { s with msgs := l ++ [to_ d (.wbdata mine)], copies := gone })) ∧
  (first .ack → (s.leasedAt d line = true → exec (.invAck d line) s = .next s) ∧
    (s.leasedAt d line = false → 1 < e.acks → e.busy.isSome = true → gives (.invAck d line) e.state e.busy (e.acks - 1) e.queue l gone) ∧
    (∀ r st, s.leasedAt d line = false → e.acks = 1 → e.busy = some (r, st) → e.queue = [] →
      (4 ≤ r ∨ coming r → gives (.invAck d line) st none 0 [] l gone) ∧
      (r < 4 → ¬coming r → st = .em r → gives (.invAck d line) st none 0 []
        (l ++ [to_ r (.data .m (State.valueAt { s with msgs := l, copies := gone } (128 * line) 128))]) gone))) ∧
  (∀ r, first (.forward r true) → ¬coming d → s.copyAt d line ≠ .i → (s.leasedAt d line = true → exec (.forward d line) s = .next s) ∧
    (∀ st, s.leasedAt d line = false → e.acks = 1 → e.busy = some (r, st) → e.queue = [] →
      gives (.forward d line) st none 0 [] (l ++ [to_ r (.data .m mine)]) gone)) ∧
  (∀ r st, first (.forward r false) → ¬coming d → e.acks = 1 → e.queue = [] → e.busy = some (r, st) →
    (s.copyAt d line = .m ∨ s.copyAt d line = .o → gives (.forward d line) st none 0 [] (l ++ [to_ r (.data .s mine)]) (turned .o)) ∧
    (s.copyAt d line = .e → gives (.forward d line) (.s (maskAdd (maskAdd 0 d) r)) none 0 [] (l ++ [to_ r (.data .s mine)]) (turned .s))) ∧
  (∀ r take bs, first (.forward r take) → ¬coming d → held .i → s.writeBackOf d line = some bs →
    exec (.forward d line) s = .next { s with msgs := l ++ [to_ r (.data (if take then .m else .s) bs)] }) ∧
  (s.lineBusy line = false → e.acks = 0 → (s.dir.map Prod.fst).Pairwise (· < ·) →
    (∀ m, held .s → e.state = .s m →
      gives (.cleanEvict d line) (if maskDel m d = 0 then .u else .s (maskDel m d)) none 0 e.queue s.msgs gone) ∧
    (held .e → e.state = .em d → gives (.cleanEvict d line) .u none 0 e.queue s.msgs gone)) ∧
  (∀ bs, first (.wbdata bs) →
    (∀ r, e.acks = 1 → e.queue = [] → e.busy = some (r, .u) → ∃ t, exec (.wbdata d line) s = .next t ∧
      HomeHas s t line .u none 0 [] l s.copies (csetList s.mem (128 * line) bs)) ∧
    (e.busy = none → e.acks = 0 → e.state = .em d → ∃ t, exec (.wbdata d line) s = .next t ∧
      HomeHas s t line .u none 0 e.queue l s.copies (csetList s.mem (128 * line) bs))) ∧
  (s.msgs = [] → e.busy = none → s.leasedAt d line = false → held .m ∨ held .o →
    exec (.wbdata d line) s = .next { s with copies := gone, msgs := [to_ d (.wbdata mine)] }) ∧
  (s.lineBusy line = true → exec (.snoopFilterEviction line) s = .next s) ∧
  (s.lineBusy line = false → e.host = true → exec (.snoopFilterEviction line) s = .next (s.askHost line)) ∧
  (s.lineBusy line = false → e.host = false → (e.state = .u → exec (.snoopFilterEviction line) s = .next { s with
      races := s.races.filter (fun x => x.1 != line), dir := s.dir.filter fun x => x.1 != line }) ∧
    (∀ o, e.state = .em o → (s.dir.map Prod.fst).Pairwise (· < ·) → ∃ t, exec (.snoopFilterEviction line) s = .next t ∧
      t.races = s.races.filter (fun x => x.1 != line) ∧
      HomeHas s t line (.em o) (some (4, .u)) 1 e.queue (s.msgs ++ [to_ o .recall]) s.copies s.mem)) ∧
  (s.leased line = true ∨ e.host = true → exec (.leaseExpiry line) s = .next s) ∧
  (s.leased line = false → e.host = false → s.devWrites = [] → exec (.leaseExpiry line) s = .next { s with
    leases := s.leases.filter fun p => !(p.1 % 2 ^ 40 == line && decide (p.2 ≤ s.clock)),
    waitWrites := if (s.leases.any fun p => p.1 % 2 ^ 40 == line) = true then s.waitWrites else sdel s.waitWrites line,
    queues := s.queues.map fun q => (q.1, { q.2 with parked := [] }) }) ∧
  (∀ r rs, s.replicas = r :: rs → r.line = line → d ∈ r.toSend → exec (.replicaUpdate d line) s = .next { s with
    mem := r.bytes.foldl (fun m b => cset m (b.1 + d * 2 ^ 36) b.2) s.mem,
    replicas := { r with toSend := r.toSend.filter (· != d) } :: rs }) ∧
  (∀ r rs, s.replicas = r :: rs → r.line = line → d ∈ r.acks → d ∉ r.toSend → (∀ x ∈ rs, x.acks ≠ []) →
    let left := r.acks.filter (· != d)
    exec (.replicaAcknowledge d line) s = .next { s with
      mem := if left = [] then r.bytes.foldl (fun m b => cset m (b.1 + r.hd * 2 ^ 36) b.2) s.mem else s.mem,
      replicas := if left = [] then rs else { r with acks := left } :: rs }) ∧
  (∀ n m, tfind s.moves n = some m → m.pp < pageBytes m.psize / 128 → let a := m.srcKey m.pp
    let b := m.dstKey m.pp
    let src := m.src + 128 * m.pp
    let dst := m.dst + 128 * m.pp
    s.recallWaits (a / 128) = false → s.recallWaits (b / 128) = false → tfind s.dir (a / 128) = none → tfind s.dir (b / 128) = none →
    s.boundFor src = none → ∃ t, exec (.moveCopyStep n) s = .next t ∧ t.mem = csetList s.mem b (cgetList s.mem a 128) ∧
      t.moves = tset s.moves n { m with pp := m.pp + 1, busy := false } ∧ t.wave = s.wave ∧
      (t.frameRec dst).getLsbD 49 = true)

/-- R252, R253, R376, R378, R426: the host's side of a line: snoops leave the bridge's half shared or gone, an answer to a request gives it; a
host access is made at the line's home once the management registers are there; the scrubber's finding is recorded, and what it cannot
correct is poisoned. -/
def Sys2Proof.Claims.HostSideEvents : Prop := ∀ (s : State),
  let live : Prop := s.boot.state = 3 ∨ s.boot.state = 4
  (∀ h, let x := s.halfAt h
    exec (.snpinv h) s = .next { s with bridge := tset s.bridge h { x with state := .i } } ∧
    exec (.snpdata h) s = .next { s with bridge := tset s.bridge h { x with state := if x.state = .i then .i else .s } } ∧
    (∀ own, x.req = some own →
      x.state ≠ .i ∨ (s.bridge.filter fun y => y.2.state != .i).length < 131072 →
      exec (.cxlCacheResponse h) s = .next { s with bridge := tset s.bridge h { state := if own then .e else .s, req := none } }) ∧
    (x.req = none → exec (.cxlCacheResponse h) s = .next s)) ∧
  (∀ line h, let e := s.dirAt line
    let due := tget [] s.bisnp line
    let rest := due.filter (· != h)
    let key := 128 * line + 64 * (h % 2)
    let old := s.valueAt key 64
    let new := old.zipIdx.map fun x => (Config.hostByte s.fresh x.2).getD x.1
    let t := if new = old then s else s.putLine (s.pointOf line) key new
    let u (b : Table (List Nat)) : State := { t with fresh := t.fresh + 1, bisnp := b }
    (h ∉ due → exec (.birsp line h) s = .next s) ∧
    (h ∈ due → rest ≠ [] → exec (.birsp line h) s = .next (u (tset t.bisnp line rest))) ∧
    (h ∈ due → rest = [] → exec (.birsp line h) s = .next ((u (tdel t.bisnp line)).setDir line { e with host := false }))) ∧
  (∀ a bs, let n := bs.length
    let stands : Prop := ∃ i < n, s.devStands (a + i) = true
    (inHost a = true → inHost (a + n) = true → (∀ h ∈ halvesOf a n, (s.halfAt h).state = .i) →
      exec (.hostAccess a true bs) s = .next (s.putMem a bs)) ∧
    (inHost a = false → ¬live → exec (.hostAccess a true bs) s = .next s ∧
      exec (.hostAccess a false bs) s = .next { s with hostRead := List.replicate n 0 }) ∧
    (live → inHost a = false → inFrame a = true → a % 2 ^ 36 < Config.frameLimit →
      exec (.hostAccess a true bs) s = .next ((s.hostWrite a bs).raiseWptr a n) ∧
      (stands → exec (.hostAccess a false bs) s = .next { s with hostReads := s.hostReads ++ [(a, n)] }) ∧
      (¬stands → ∃ u, exec (.hostAccess a false bs) s = .next u ∧ u.hostRead = s.devRead a n ∧ u.wave = s.wave ∧
        (u.frameRec a).getLsbD 48 = true ∧ (Config.cxlCache = false → u.dir = s.dir ∧ u.mem = s.mem)))) ∧
  (∀ d place unit, place ≤ 7 → let key := if place = 0 then 4 * unit else 16 * unit
    let box (k : Nat) (t : State) : State :=
      let x := t.die (d % 4)
      let r : BoxRecord := { kind := k, code := if place = 0 then 1 else if place < 6 then 2 else place - 3, detail := 0, core := 0xFFFF, wave := 0xFF,
                             clock := (t.dieClock (d % 4)).toNat, addr := BitVec.ofNat 64 key, pc := 0 }
      { t with dies := tset t.dies (d % 4) { x with box := (r :: x.box).take 2048, wcount := x.wcount + 1 } }
    exec (.scrub d place unit false) s = .next (box 3 s) ∧
    (place ≠ 6 → exec (.scrub d place unit true) s = .next (box 4 (s.setBad (unitAt key)))) ∧
    (place = 6 → (∀ e < 4, s.copyAt e (unit / 8) ≠ .m ∧ s.copyAt e (unit / 8) ≠ .o) →
      exec (.scrub d place unit true) s = .next (box 3 s)))

/-- R98, R222, R379, R427 to R432, R434: the module towards the host. Start-up boots the accepted image of greater VERSION, slot 0 on a tie, or enters
recovery; GO arms every core and sets POOL; COMMIT raises the fuse count to the VERSION that runs; the frame port reads and writes a frame record; a
move request is answered with what CPR answered; PLIMIT sets POOL, and power above or below it moves POOL by an eighth; a register marked RWL takes
writes in READY alone; recovery refuses with its status what it does not do. The model's choices, not the spec's, on which clauses rest: log entries
6, 14, 122, 124, 125, 126, 128. -/
def Obligations.ManagementEvents : Prop := ∀ (s : State),
  let b := s.boot
  let live : Prop := b.state = 3 ∨ b.state = 4
  let to_ (x : Boot) : State := { s with boot := x }
  let managed (m : Mgmt) : State := { s with mgmt := m }
  let accepted (n : Nat) : Bool := (b.image n).verdict b.fuse == 0
  let slot (x : Word) : Nat := (x.extractLsb' 0 1).toNat
  let starts : State :=
    let t := to_ { b with fail0 := !accepted 0, fail1 := !accepted 1 }
    if accepted 0 && (!accepted 1 || decide ((b.image 1).version ≤ (b.image 0).version)) then t.start (b.image 0).version 0
    else if accepted 1 then t.start (b.image 1).version 1
    else t.recover
  (b.state = 1 → exec .perstDeassert s = .next starts) ∧ (b.state ≠ 1 → exec .perstDeassert s = .next s) ∧
  (live → exec .ctrlWarmrst s = .next starts) ∧ (¬live → exec .ctrlWarmrst s = .next s) ∧
  (∀ v n, let t := s.start v n
    t.boot.state = 3 ∧ t.boot.version = v ∧ t.boot.fuse = b.fuse ∧ t.boot.flash = b.flash ∧ t.clock = 0 ∧ t.packets = [] ∧ t.launches = [] ∧
      t.frames = [] ∧ t.mem = s.mem.filter (fun c => inHost c.1) ∧ ∀ d, (t.die d).box = (s.die d).box) ∧
  (b.state = 3 → exec .ctrlGo s = .next { s with
    cores := (List.range Config.cores).foldl (fun t c =>
      tset t c { tget Core.reset t c with
        trapvec := s.mgmt.tvec &&& 0x000FFFFFFFFFFF01, trapfrm := s.mgmt.tfrm &&& 0x000FFFFFFFE00000 }) s.cores,
    boot := { b with state := 4 }, pool := poolOf s.mgmt.plimit, poolSet := poolOf s.mgmt.plimit }) ∧
  (∀ w : Word, poolOf w = max 4 (320 * w.toNat / 1800)) ∧
  (live → exec .ctrlCommit s = .next (to_ { b with fuse := max b.fuse b.version })) ∧
  (live → exec .fpcmdRead s = .next (managed { s.mgmt with fpdata := if inFrame s.mgmt.fpaddr.toNat then s.frameRec s.mgmt.fpaddr.toNat else 0 })) ∧
  (live → inFrame s.mgmt.fpaddr.toNat = true → exec .fpcmdWrite s = .next { s with
    frames := cset s.frames (s.mgmt.fpaddr.toNat / 4096) (BitVec.ofNat 64 (s.mgmt.fpdata.toNat % 2 ^ 54)) }) ∧
  (live → s.mgmt.mvdone = true → s.wave.core = 0 → s.wave.slot = 15 → cellsWf s.wave.s = true → ∀ r0 r1 r2 r3 r4 r5 r6 r7, s.mgmt.mvreq = [r0, r1, r2, r3, r4, r5, r6, r7] →
    let t : State := { s with wave := { s.wave with s := csetList s.wave.s 40 s.mgmt.mvreq }, mgmt := { s.mgmt with mvdone := false } }
    (r7 = 0 → r6.toNat ≤ 5 → ∀ u x f, t.moveStart (r1 ++ r0).toNat (r3 ++ r2).toNat r4 r5 r6.toNat = (u, x, f) → cellsWf u.wave.s = true →
      let v := { u.wave with s := csetList u.wave.s 32 [x, if f then 1 else 0], scc := f }
      exec .mvdoorStart s = .next { u with
        wave := v, mgmt := { u.mgmt with mvresp := [x, if f then 1 else 0, cget v.s 34, cget v.s 35], mvdone := true } }) ∧
    (r7 ≠ 0 ∨ 5 < r6.toNat → exec .mvdoorStart s = .next (t.faultAt 2 0 s.wave.pc)) ∧
    (∀ u x p, t.moveQuery r0.toNat = (t, p, true) →
      let v : State := { t with wave := { t.wave with s := cset t.wave.s 33 p, scc := true } }
      v.moveEnd r0.toNat = (u, x, true) → cellsWf u.wave.s = true →
      let w := { u.wave with s := csetList u.wave.s 34 [x, 1], scc := true }
      exec .mvdoorEnd s = .next { u with
        wave := w, mgmt := { u.mgmt with mvresp := [cget w.s 32, cget w.s 33, x, 1], mvdone := true } }) ∧
    (∀ p, t.moveQuery r0.toNat = (t, p, false) → exec .mvdoorEnd s = .next { t with
      wave := { t.wave with s := cset t.wave.s 33 p, scc := false } })) ∧
  (∀ w : Word, (live → 300 ≤ w.toNat → w.toNat ≤ 1800 → exec (.plimitWrite w) s = .next { s with
      mgmt := { s.mgmt with plimit := w }, pool := poolOf w, poolSet := poolOf w }) ∧
    (w.toNat < 300 ∨ 1800 < w.toNat → exec (.plimitWrite w) s = .next s)) ∧
  (∀ n, let m := { s.mgmt with power := BitVec.ofNat 32 n }
    (n ≤ s.mgmt.plimit.toNat → exec (.powerThrottle n) s = .next (managed m)) ∧
    (live → s.mgmt.plimit.toNat < n → ∃ t, exec (.powerThrottle n) s = .next t ∧ t.pool = max 4 (s.pool - s.pool / 8) ∧ t.mgmt = m ∧
      t.wave = s.wave ∧ t.mem = s.mem ∧ (t.die 0).wcount = (s.die 0).wcount + 1) ∧
    (95 * s.mgmt.plimit.toNat ≤ 100 * n → exec (.powerRecover n) s = .next (managed m)) ∧
    (live → 100 * n < 95 * s.mgmt.plimit.toNat → s.pool ≤ s.poolSet →
      exec (.powerRecover n) s = .next { managed m with pool := min s.poolSet (s.pool + s.pool / 8) })) ∧
  (∀ v, (¬live → exec (.registerWrite 0x20 v) s = .next s ∧ exec (.registerWrite 0x78 v) s = .next s) ∧
    (b.state = 3 → exec (.registerWrite 0x20 v) s = .next (managed { s.mgmt with featacc := BitVec.ofNat 128 (v.toNat % 256) })) ∧
    (b.state = 4 → exec (.registerWrite 0x20 v) s = .next s) ∧
    (live → exec (.registerWrite 0x78 v) s = .next (managed { s.mgmt with fpaddr := s.mgmt.fpaddr.extractLsb' 32 32 ++ v })) ∧
    exec (.registerWrite 0x10004 v) s = .next (to_ { b with arg := v })) ∧
  (let m := b.staged
    let v := m.verdict b.fuse
    exec .recoveryBoot s = .next
      (if b.state ≠ 5 then to_ { b with status := 5 } else if 2 ^ 22 < m.len + 256 then to_ { b with status := 6 }
      else if v ≠ 0 then to_ { b with status := v } else s.start m.version b.slot)) ∧
  (let n := slot b.arg
    let v := (b.image n).verdict b.fuse
    exec .recoveryBootslot s = .next
      (if b.state ≠ 5 then to_ { b with status := 5 } else if 2 ≤ b.arg.toNat then to_ { b with status := 4 }
      else if v ≠ 0 then to_ { b with status := v } else s.start (b.image n).version n)) ∧
  (16 ≤ b.arg.toNat → exec .recoveryProgram s = .next (to_ { b with status := 4 })) ∧
  (b.arg.toNat < 2 → b.part = none → b.staged.len + 256 ≤ 2 ^ 22 → let v := b.staged.verdict b.fuse
    let bytes := cgetList b.staging 0 (b.staged.len + 256) ++ List.replicate (2 ^ 22 - (b.staged.len + 256)) Config.erased
    exec .recoveryProgram s = .next (to_ (if v ≠ 0 then { b with status := v } else { b with
      status := 0, flash := csetList b.flash (slot b.arg * 2 ^ 25) bytes })))

/-- R410 to R412, R433: an enabled head takes a record that is well formed and newer, else a re-projection where the pose has moved, else a repeat; at
vblank RELSEQ takes the SEQ that it has let go and new timing takes effect. A block shows its pixel: raw, as base and delta, or
CLEAR where it is malformed. The model's choices, not the spec's, on which clauses rest: log entries 119, 120, 127. -/
def Obligations.DisplayEvents : Prop := ∀ (s : State) (h : Nat),
  let x := s.head h
  let live : Prop := (s.boot.state = 3 ∨ s.boot.state = 4) ∧ h < 4
  let set (t : State) (y : Head) : State := { t with heads := tset t.heads h y }
  (∀ v : Word, live → (v.getLsbD 0 = false → exec (.hcfgWrite h v) s = .next (set s { x with hcfg := 0 })) ∧
    (v.getLsbD 0 = true → x.hcfg.getLsbD 0 = true → exec (.hcfgWrite h v) s = .next (set s { x with hcfg := 1 })) ∧
    (v.getLsbD 0 = true → x.hcfg.getLsbD 0 = false → exec (.hcfgWrite h v) s = .next
      (set ((s.headPut (x.present.toNat + 56) (toBytes 0 8)).headPut (x.present.toNat + 48) (toBytes 0 8))
        { x with hcfg := 1, scanseq := 0, relseqNext := none, pseq := 0, shows := 0, record := [], matrix := [] }))) ∧
  (∀ v, (live → exec (.timingWrite h v) s = .next (set s { x with timingNext := some v })) ∧ (¬live → exec (.timingWrite h v) s = .next s)) ∧
  (live → x.hcfg.getLsbD 0 = false → exec (.headScanDecision h) s = .next s) ∧
  (∀ r pose, live → x.hcfg.getLsbD 0 = true → s.headRead x.present.toNat 64 = some r → s.headRead x.pose.toNat 48 = some pose → pose ≠ [] →
    let seq := BitVec.ofNat 64 (recNum r 32 8)
    let pseq := BitVec.ofNat 64 (recNum pose 40 8)
    let t := (s.headTouch x.present.toNat 64).headTouch x.pose.toNat 48
    (r.length = 64 → x.scanseq.toNat < seq.toNat → presentOk r = true → exec (.headScanDecision h) s = .next
      (set (t.headPut (x.present.toNat + 56) (toBytes seq.toNat 8))
        { x with scanseq := seq, relseqNext := some x.scanseq, pseq := pseq, shows := 1, record := r })) ∧
    (seq.toNat ≤ x.scanseq.toNat ∨ presentOk r = false →
      (pseq ≠ x.pseq → exec (.headScanDecision h) s = .next (set t { x with
        pseq := pseq, shows := 2, record := if r.length = 64 ∧ presentOk r = true then r else x.record, matrix := pose.take 36 })) ∧
      (pseq = x.pseq → exec (.headScanDecision h) s = .next (set t { x with shows := 3 })))) ∧
  (live → x.timingNext = none → (x.relseqNext = none → exec (.vblank h) s = .next (set (s.scanFrame x) x)) ∧
    (∀ q, x.relseqNext = some q → exec (.vblank h) s = .next
      (set ((s.headPut (x.present.toNat + 48) (toBytes q.toNat 8)).scanFrame x) { x with relseqNext := none }))) ∧
  (∀ t, live → x.timingNext = some t → x.relseqNext = none → ∃ u, exec (.vblank h) s = .next u ∧
    u.head h = { x with timing := t, timingNext := none } ∧ u.wave = s.wave ∧ u.mem = s.mem) ∧
  (∀ (m : Nat) (bs clear : List Byte) (p : Nat), (m = 0 ∨ 9 ≤ m → blockPixel m bs clear p = clear) ∧
    (m = 8 → blockPixel m bs clear p = (bs.drop (4 * p)).take 4) ∧
    (0 < m → m < 8 → blockBad m bs = false → p < 64 → ∀ c, c < 4 → packedChannel bs p c < 256 ∧
      (blockPixel m bs clear p).getD c 0 = BitVec.ofNat 8 (packedChannel bs p c)))

/-- R83, R92, R80, R253, R89: every instruction first passes the checks: one that fails raises its trap at its address, with the offset from the prefix in
the detail; under a PBLK with no active lane it has no effect; with a counter that it raises at 63, or k2 there for a batch that it would commit, it stays
where it is; a poisoned register that it reads raises ECC_UNCORRECTABLE at the register's on-chip address. One that a held instruction keeps inside goes on
with the registers that it read at its issue, and is not checked again. -/
def Sys2Proof.Claims.ChecksComeFirst : Prop := ∀ i : Instr, HasWords i → ∃ eff : State → Act, ∀ s : State,
  let w := s.wave
  let passes : Prop := s.check i = none ∧ (w.pblk.isSome = true → w.act ≠ 0)
  let full : Prop := w.countersFull (classOf (insOp i)) (insCf i) = true ∨ w.commitFull i = true
  (w.held = none →
    (∀ c d, s.check i = some (c, d) → exec i s = .next (s.faultAt c (d + 256 * (w.insAddr - w.pc).toNat) w.insAddr)) ∧
    (s.check i = none → w.pblk.isSome = true → w.act = 0 → exec i s = .next (after s (insLen i) w)) ∧
    (passes → full → exec i s = .next s) ∧
    (passes → ¬full → ∀ j, w.badRead i = some j → exec i s = .next (s.faultAt 0x11 0 (BitVec.ofNat 64 (regPa w.core w.slot j)))) ∧
    (passes → ¬full → w.badRead i = none → exec i s = .next (settleNew s i (eff s)))) ∧
  (∀ h, w.held = some h → exec i s = .next (settleHeld s h i
    (eff { s with wave := { w with em := h.em, scc := h.scc, m := h.m, s := h.s, v := h.v, tr := h.tr } })))

/-- R83: the checks in their order: a feature that the launch's module has not accepted raises FEATURE_ABSENT with its bit, a privileged instruction elsewhere
PRIVILEGED, a field out of range ILLEGAL_OPERAND. -/
def Sys2Proof.Claims.ChecksInOrder : Prop := ∀ (s : State) (i : Instr),
  let w := s.wave
  let op := insOp i
  let absent (b : Nat) : Prop := featureOf op = some b ∧ s.mgmt.featacc.getLsbD b = false
  let barred : Prop := (privOp op = true ∧ w.priv = false) ∨ (op = 0xB9 ∧ w.priv = false ∧ w.recovery = false) ∨ (op = 0xBB ∧ w.recovery = false)
  (∀ b, absent b → s.check i = some (0x13, b)) ∧
  ((∀ b, ¬absent b) → barred → s.check i = some (3, 0)) ∧
  ((∀ b, ¬absent b) → ¬barred → fieldsOk s.limits i = false → s.check i = some (2, 0)) ∧
  ((∀ b, ¬absent b) → ¬barred → fieldsOk s.limits i = true → s.check i = none)

/-- R382 to R387: a wave with nothing left to wait for enters its handler: its frame holds PC, em, the link, code and detail, flags, the address, the
PBLK condition, FPCTL, the reports lost and the die's clock; s[63:62] has the frame's address, TRAPCODE and TRAPADDR the trap; em is LIVE, NANTRAP is
clear, no prefix is in progress, and the wave is in recovery mode at the vector of the code. Nothing else of the wave changes. A trap taken at a boundary
records the PC of the delivery. A frame that waits at its home is stored later; one that cannot be stored ends the wave, with a record of kind 2. -/
def Sys2Proof.Claims.TrapEntry : Prop := ∀ (s u : State) (t : TrapReq) (bs : List Byte),
  let w := s.wave
  let c := s.core w.core
  let fa : DWord := BitVec.ofNat 64 (bits c.trapfrm 51 21 * 2 ^ 21 + 64 * (64 * w.core + w.slot))
  let d := s.die (w.core / 96)
  let v : State := { s with
    dies := tset s.dies (w.core / 96) { d with tokens := d.tokens.filter fun r => !(r.core == w.core && r.slot == w.slot) },
    wave := { w with
      trap := some t, hold := .none, held := none, dropped := [], arrived := none, arrOrd := false, requested := false, waited := 0, promoted := false } }
  let at_ : TrapReq := { t with pc := if t.boundary then w.pc else t.pc }
  let io := v.frameIo fa .store (fun _ => w.frame at_ (s.dieClock (w.core / 96)).toNat)
  w.drained = true → w.pend = [] → w.granted = false → w.priv = false → w.recovery = false → c.trapvec.getLsbD 0 = true →
  (io = .wait u → s.raise t = u) ∧
  (io = .fail → s.raise t = (v.boxRecord (w.core / 96) (w.record 2 t.code t.detail s.clock t.addr at_.pc)).endWave) ∧
  (io = .ok u bs → s.raise t = { u with wave := { u.wave with
    s := csetList u.wave.s 62 [fa.setWidth 32, (fa >>> 32).setWidth 32], trapcode := BitVec.ofNat 32 (t.code + 256 * t.detail), trapaddr := t.addr,
    em := u.wave.live, fpctl := u.wave.fpctl &&& 0xFFFFFEFF, rep := none, pblk := none, resume := .none, recovery := true,
    pc := BitVec.ofNat 64 (bits (u.core u.wave.core).trapvec 51 8 * 256 + 16 * t.code), trap := none, lost := 0, notBefore := u.clock,
    lastIssue := 0 } })

/-- R387: the 64 bytes of a frame. A REP or PBLK is interrupted where it is in progress, and where a handler has returned to it and it has not issued again. -/
def Sys2Proof.Claims.TrapFrameHolds : Prop := ∀ (w : Wave) (t : TrapReq) (clock : Nat),
  let f := w.frame t clock
  let rep : Option Nat := match w.rep, w.resume with
    | some r, _ => some r.j
    | none, .rep j => some j
    | none, _ => none
  let pblk : Option (Nat × Lanes) := match w.pblk, w.resume with
    | some p, _ => some (p.j, p.cond)
    | none, .pblk j c => some (j, c)
    | none, _ => none
  let flags := (if w.scc then 1 else 0) + (rep.elim 0 fun j => 2 + 4 * j) + (pblk.elim 0 fun p => 256 + 512 * p.1) + if t.retired then 4096 else 0
  f.length = 64 ∧ frameNum f 0 8 = t.pc.toNat ∧ frameNum f 8 8 = w.em.toNat ∧
    frameNum f 16 8 = (cget w.s 62).toNat + 2 ^ 32 * (cget w.s 63).toNat ∧ frameNum f 24 4 = (t.code + 256 * t.detail) % 2 ^ 32 ∧
    frameNum f 28 4 = flags % 2 ^ 32 ∧ frameNum f 32 8 = t.addr.toNat ∧ frameNum f 40 8 = (pblk.elim 0 fun p => p.2.toNat) ∧
    frameNum f 48 4 = w.fpctl.toNat ∧ frameNum f 52 4 = w.lost % 2 ^ 32 ∧ frameNum f 56 8 = clock % 2 ^ 64

/-- R384, R388, R390: a trap that cannot enter a handler: while loads or updates are outstanding it is held, and the wave keeps no token request; with no
handler, or in recovery mode, it ends the wave, with a black-box record of kind 1 or 2; in the privileged slot it restarts the agent, with one of kind 11,
at the values of wave start, its stores still outstanding. -/
def Obligations.TrapWithoutHandler : Prop := ∀ (s : State) (t : TrapReq),
  let w := s.wave
  let die := w.core / 96
  let decided : State := { s with
    wave := { w with trap := some t, requested := false, waited := 0, promoted := false },
    dies := tset s.dies die { s.die die with tokens := (s.die die).tokens.filter fun r => !(r.core == w.core && r.slot == w.slot) } }
  let clear : State := { decided with wave := { decided.wave with hold := .none, held := none, dropped := [], arrived := none, arrOrd := false } }
  let record (kind : Nat) : State :=
    let x := clear.die die
    let r : BoxRecord := {
      kind := kind, code := t.code, detail := t.detail, core := w.core, wave := w.slot % 64, clock := (s.dieClock die).toNat, addr := t.addr
      pc := if t.boundary then w.pc else t.pc }
    { clear with dies := tset clear.dies die { x with box := (r :: x.box).take 2048, wcount := x.wcount + 1 } }
  w.granted = false → w.batch = [] → w.pend = [] →
  (w.drained = false → s.raise t = decided) ∧
  (w.drained = true → w.priv = false → w.recovery = true → s.raise t = (record 2).endWave) ∧
  (w.drained = true → w.priv = false → w.recovery = false → (s.core w.core).trapvec.getLsbD 0 = false → s.raise t = (record 1).endWave) ∧
  (w.drained = true → w.priv = true → (w.core ≠ 0 ∨ s.mgmt.mvdone = true) → s.raise t =
    { record 11 with wave := { Wave.reset with core := w.core, uid := w.core, outst := w.outst, k := w.k, hb := w.hb } })

/-- R88 to R90, R105: a result lands in the lanes it is for, within the width of a mask, and within LIVE for em; results due land in the order in which they
are due; a later result does not overtake an earlier one. -/
def Obligations.ResultsLand : Prop :=
  (∀ (w : Wave) (r q L : Nat) (sel : Lanes) (xs : List Word), L < 64 → cellsWf w.v = true →
    (landWave w (.vreg r sel xs)).vlane q L = if q = r ∧ sel.getLsbD L = true then xs.getD L 0 else w.vlane q L) ∧
  (∀ (w : Wave) (n k : Nat) (x : Word), cellsWf w.s = true → (landWave w (.sreg n x)).sreg k = if k = n then x else w.sreg k) ∧
  (∀ (w : Wave) (n k : Nat) (sel val : Lanes), cellsWf w.m = true → let new := (w.mask n &&& ~~~sel) ||| (val &&& sel)
    (landWave w (.mask n sel val)).mask k =
      if k ≠ n then w.mask k else if n = 0 then new &&& w.live &&& lanesBelow w.width else new &&& lanesBelow w.width) ∧
  (∀ (s : State) (a b : Nat) (x y : WaveWrite), s.wave.pend = [(a, x), (b, y)] →
    (a ≤ s.clock → s.clock < b → landDue s = landOne { s with wave := { s.wave with pend := [(b, y)] } } x) ∧
    (a ≤ s.clock → b ≤ s.clock → landDue s = landOne (landOne { s with wave := { s.wave with pend := [] } } x) y)) ∧
  (∀ (l : List (Nat × WaveWrite)) (due : Nat) (x : WaveWrite), l.Pairwise (fun p q => p.1 ≤ q.1) →
    ∃ a b, postAt l due x = a ++ (due, x) :: b ∧ l = a ++ b ∧ (∀ p ∈ a, p.1 ≤ due) ∧ ∀ p ∈ b, due < p.1)

/-- R63, R66, R79, R80, R100, R385: a step runs the instruction that the chosen wave stands at: the one its bytes decode to, the next repeat of its REP,
the next covered instruction of its PBLK. Bytes that decode to none raise their trap, a fetch that does not translate holds the wave, one that waits
leaves it not Ready, and a deferred report comes first. With no wave chosen a step takes what an outside agent does next, the next pipe of this clock,
or the clock on, after which held instructions go on. The model's choices, not the spec's, on which clauses rest: log entries 8, 10, 11, 16, 154. -/
def Obligations.StepRunsTheInstruction : Prop := ∀ (s : State),
  let w := s.wave
  let v : State := { s with chosen := false }
  let ran (t : State) (i : Instr) : Host.Outcome State Fault Refusal := match exec i t with
    | .next u => .next (u.settleToken w.core w.slot)
    | x => x
  let clear : Prop := s.chosen = true ∧ s.rootReserved = false ∧ w.pend = [] ∧ w.reports = []
  let plain : Prop := clear ∧ w.rep = none ∧ w.pblk = none
  (plain → ∀ t bs i rest, v.fetch w.core w.pc.toNat = .ok t bs → t.wave.core = w.core → t.wave.slot = w.slot → decode bs = .ok (i, rest) →
    step s = ran t i) ∧
  (plain → ∀ t bs e c d, v.fetch w.core w.pc.toNat = .ok t bs → decode bs = .error e → t.refusal (.error e) = some (c, d) →
    step s = .next (t.faultAt c d w.pc)) ∧
  (plain → ∀ va, v.fetch w.core w.pc.toNat = .absent va → step s = .next (v.holdFault va 1)) ∧
  (plain → ∀ t, v.fetch w.core w.pc.toNat = .wait t → step s = .next { t with wave := { t.wave with hold := .unissued } }) ∧
  (plain → ∀ c d a, v.fetch w.core w.pc.toNat = .trap c d a → step s = .next (v.faultAt c d a)) ∧
  (clear → ∀ r i, w.rep = some r → stepped r.ins r.std r.sta r.stb r.stc r.j = some i → step s = ran v i) ∧
  (clear → ∀ p x l, w.rep = none → w.pblk = some p → p.body = x :: l → step s = ran v x.2) ∧
  (s.chosen = true → s.rootReserved = false → w.pend = [] → w.reports ≠ [] → w.recovery = false → step s = .next v.takeReport) ∧
  (s.chosen = true → s.rootReserved = true → step s = .fault (.reservedAddress s.mgmt.ptroot.toNat)) ∧
  (∀ e l, s.chosen = false → s.agenda = e :: l → step s = exec e { s with agenda := l }) ∧
  (∀ n, s.chosen = false → s.agenda = [] → s.nextTurn = some n → step s = exec (.pipeIssue (n / 4) (n % 4)) { s with turn := n + 1 }) ∧
  (s.chosen = false → s.agenda = [] → s.nextTurn = none → step s = .next s.tick.heldRun)

/-- R249, R317, R386, R427, R429: what reset leaves, where the spec gives it. The memory lists nothing, which is its canonical form. The model's choices, not the spec's, on which clauses rest: log entries 3, 4. -/
def Obligations.ResetLeaves : Prop :=
  let s := State.reset
  s.boot.state = 1 ∧ s.mem = [] ∧ Memory.wf s.mem = true ∧ s.mgmt.featacc = 0 ∧ s.mgmt.plimit = 1800 ∧ s.pool = 320 ∧ s.inuse = 0 ∧ s.packets = [] ∧ s.launches = [] ∧
    ∀ c d, (s.core c).lease1 = 2048 ∧ (s.core c).lease2 = 8192 ∧ (s.core c).trapvec = 0 ∧ (s.core c).trapfrm = 0 ∧ (s.die d).gcfg = 0 ∧
      (s.die d).grate = 0x3F800000 ∧ (s.die d).wcount = 0

/-- Every step keeps the memory in its canonical form: addresses rising, no byte listed that reads as an unlisted one does (R219, R222: the bytes
of frame space). The form itself is the model's. The model's choices, not the spec's, on which clauses rest: log entry 3. -/
def Obligations.StepKeepsMemoryForm : Prop := ∀ s t : State, Memory.wf s.mem = true → step s = .next t → Memory.wf t.mem = true

/-- R67 to R83: words of the spec's encodings decode to the instructions they stand for. -/
def Obligations.WordsDecode : Prop :=
  decodeTableWord 64 0x00040004000241F3 = some (.vaddG64
    { dist := 4, cf := 15, d := 1, a := 0, b := 2, c := 0, sa := false, sb := true, sc := false, mod := 0, sub := 0, xi := 0, xe := false }) ∧
  decodeTableWord 32 0x00208061 = some (.saddK32 { dist := 0, d := 4, imm := 1 }) ∧
  decodeTableWord 16 0x822C = some (.faddC16 { d4 := false, vd := 8, vb := 16 })

/-- R67 to R80: the bytes of a well-formed instruction decode to it, whatever follows them: no bit of an operand is dropped. -/
def Obligations.EncodingDecodes : Prop := ∀ (i : Instr) (rest : List Byte), HasWords i → WellFormed i → decode (encode i ++ rest) = .ok (i, rest)

/-- R67 to R83: bytes that decode are those of the instruction: no two words mean the same, and no bit is ignored. -/
def Obligations.DecodedBytesEncode : Prop := ∀ (bs rest : List Byte) (i : Instr), decode bs = .ok (i, rest) →
  HasWords i ∧ WellFormed i ∧ encode i ++ rest = bs

/-- R108: each scalar instruction with an 11-bit immediate replaces s[D] by its operation on s[D] and the immediate, sign-extended, 2 clocks
later, and nothing else changes but the place of the wave. R108: NOP changes nothing but the place of the wave; the long SMOVI writes its
immediate, or the immediate sign-extended to a pair. -/
def Obligations.ScalarMovesAndImmediates : Prop := ScalarImmediateResults ∧ NopAndLongImmediate

/-- R107: sums and differences of the scalar path, of 32 or 64 bits; SUB 1 and 2 write the carry or borrow to scc, SUB 2 takes one from it.
R107: the other scalar operations on operands of 32 or 64 bits. A shift amount is a 32-bit operand, and an amount of the width or more gives
0, or the sign in every bit. R107: SMULH gives the high half of the signed (SUB 0) or unsigned product; SBFX a field of 32-bit operand A,
from bit b, of c bits as far as the word goes, extended with zeros or (SUB 1) with its highest bit. -/
def Obligations.ScalarArithmetic : Prop := ScalarSums ∧ ScalarOperations ∧ ScalarHighProductAndField

/-- R69, R104: a scalar field of 128 to 255 is the constant of its low seven bits; below 64 it names a register, and as a 64-bit operand the
pair that starts there, low word first. R69, R135: as a floating-point operand the constant n is the number n; MOD makes operand a absolute
(bit 2) and then negates it (bit 0), and operand b likewise (bits 3 and 1). -/
def Obligations.OperandForms : Prop := ScalarOperandForms ∧ FloatOperandForms

/-- R110 to R112: a branch whose condition holds goes to its target and changes nothing else; one whose condition does not hold goes on to the
next instruction, whatever its target is. R111: a taken transfer to an odd address raises MISALIGNED (code 5), one to an address of 2^52 or
above raises PROTECTION with detail 4; both log the target, and the frame records the branch. R110, R112: CALL puts the address of the next
instruction into s62:s63 and goes to its target. -/
def Obligations.ControlTransfers : Prop := BranchesGoToTheirTarget ∧ BranchTargetTraps ∧ CallsLinkAndGo

/-- R114 to R116: MLOG combines whole masks, MMOV moves between masks, scalars and vectors, MCNT counts or finds lanes and tells in scc whether
there is one. R117, R118: SRD of the scalar form reads a special register that a wave holds, its place, its die and its width; SWR writes
FPCTL, FNCTL, TRAPCODE and TRAPADDR 2 clocks later, and raises ILLEGAL_OPERAND for a value with a reserved bit or rounding mode. R118: SRD
of the vector form gives every active lane the register, and its own number for LANEID; CLOCK is at most 15 clocks from the clock of the
module. The model's choices, not the spec's, on which clauses rest: log entries 18, 21. -/
def Obligations.MasksAndSpecialRegisters : Prop := MaskOperations ∧ SpecialRegisters ∧ SpecialRegistersByLane

/-- R123: BART on a tag of its launch makes the wave's arrival and holds it there, where another wave of the launch has still to arrive; with
ORD, it waits first until the wave's earlier accesses have been performed (R124). A tag that the launch does not hold raises
ILLEGAL_OPERAND. R123: the last arrival completes the phase: the arrival is cleared, the BART has retired, and the release of the tag stands
40 clocks ahead, for a launch on cores of one die. -/
def Obligations.BarrierRouteTags : Prop := BartArrivesAndHolds ∧ BartLastArrivalCompletes

/-- R79, R80, R129, R130: where the covered instructions can be read and stepped, REP stands before its first repeat and PBLK before its first
covered instruction, with the condition captured; the PC stays at the prefix. R63, R129, R130: an instruction that has retired leaves the PC
past it; in a REP it leaves the next repeat, with the PC where it was, until the last, which leaves the REP; in a PBLK the next covered
instruction. The model's choices, not the spec's, on which clauses rest: log entries 26, 27. -/
def Obligations.PrefixesAndRetiring : Prop := PrefixesStart ∧ RetiringAdvances

/-- R133, R145, R150, R155: the vector instructions that write v[D] in each active lane from that lane's 32-bit operands (or a neighbour's).
R133: sums, differences, minima, maxima and absolute differences of 32-, 16- or 8-bit elements, each element by itself; SUB makes sums and
differences clamp, and the others unsigned. -/
def Obligations.VectorArithmetic : Prop := VectorOperationResults ∧ VectorElementResults

/-- R133, R149: VPOPC counts ones, leading zeros or trailing zeros, or reverses the bits; VPACK puts two halves together, clamped by SUB; VUNPK
takes out and extends a half or byte; VBYTE chooses each byte by a nibble of b. R143, R144: VRAND and VSOBOL give a 32-bit number, or that
number's high 24 bits as a fraction in FP32; the raw sequence of dimension 0 is the index with its bits reversed. -/
def Obligations.VectorBitsAndSequences : Prop := VectorBitAndByteResults ∧ VectorSequenceResults

/-- R132, R146, R150, R151: VMOVX reads or writes the register that an index register gives each lane, XSET and XBND set an index and its bound,
VEXT and VINS move one lane, VTRN transposes a block of lanes and registers. R132: an active lane whose index reaches the bound raises
REG_INDEX (code 4), for the lowest such lane, with the index register in bits 15:8 of the detail, and nothing is written. -/
def Obligations.IndexedMoves : Prop := VectorIndexLaneAndBlockMoves ∧ IndexBoundTraps

/-- R72, R135, R136, R178: FADD, FSUB, FMUL, FFMA, FLERP and FDOT2 compute exactly and round once, in the mode that SUB or FPCTL gives; the
compact forms use the mode of FPCTL. R135, R167: rounding an FP32 number to FP32 gives it back in every mode; a NaN gives the canonical NaN,
an infinity itself; a value that is not above the largest number in magnitude gives no infinity. -/
def Obligations.FloatArithmetic : Prop := FloatArithmeticResults ∧ RoundingKeepsFp32Numbers

/-- R136: the paired instructions compute each half exactly and round it once to the half format; the state is given where NANTRAP is clear. R137: FMIN
and FMAX put −0 below +0, and a NaN yields the other operand, two NaNs the canonical one; FMED3 is the middle of three; FCMP orders values, and with a
NaN only ne (1) and unordered (7) hold; none of them traps. FCLASS, FRND and FPK are given by the functions that classify, round to an integer, and
convert. The model's choices, not the spec's, on which clauses rest: log entries 25, 139. -/
def Obligations.PairedHalvesAndCompares : Prop := PairedHalfResults ∧ FloatCompareResults

/-- R138 to R140, R174: CVT and CVTQ convert the exact value of the source, by the mode named; where NANTRAP is set, a NaN that the conversion
makes raises NAN_FIRST of engine 5. R139, R167: conversion to an integer gives 0 for NaN and the bound for an infinity, and stays within the
bounds; conversion to a format gives its canonical NaN for NaN, and with saturation never an infinity for a finite value of FP16. -/
def Obligations.Conversions : Prop := ConversionResults ∧ ConversionBounds

/-- R141, R142: an instruction of the special-function unit issues, and its result lands at its completion; division rounds the exact quotient
once; integer division by zero gives all ones, or the dividend as remainder. R142: the special-function unit at NaN, the infinities and the
zeros; the square root and reciprocal square root and logarithm of a negative number are NaN; by functions 0x42 rcp, 0x43 rsq, 0x44 sqrt,
0x45 log2, 0x46 exp2, 0x47 sin, 0x48 cos, 0x49 tanh. The model's choices, not the spec's, on which clauses rest: log entries 28, 29. -/
def Obligations.SpecialFunctions : Prop := SpecialFunctionResults ∧ SpecialFunctionCorners

/-- R158 to R160: RED and SCAN combine the active lanes, by rising lane, from the operation's identity; FRED combines them by a tree; VCOMPACT
moves active lanes to the lowest lanes, or back. R161 to R165: the long accumulator adds the exact terms of the active lanes, each in units
of 2^−320; LARD rounds it once; LACLR, LASAVE and LARST clear, save and restore it. The model's choices, not the spec's, on which clauses
rest: log entry 30. -/
def Obligations.Reductions : Prop := ReductionResults ∧ LongAccumulatorResults

/-- R181, R184, R188, R194, R195: FNDEF places a function of n zero coefficients on [a, b], or raises FN_DOMAIN 5 where a < b does not hold of two finite
numbers, or FN_POOL where it cannot be placed; FNFREE clears DEF of one register, or of all. R184: Place takes the lowest run of free pool words that
holds the result; where there is none it fails under STRICT, or where no word is free, and otherwise shortens the result to the longest run. R188,
R193: a function operation on a source that is not defined raises FN_DOMAIN 4, FNADD and FNMUL on different intervals FN_DOMAIN 1, FNCOMP on an inner
function that may leave the outer interval FN_DOMAIN 2; FNRESTR to an interval that is none of the source's FN_DOMAIN 3. With no active lane, those
that make a function have no effect (R187). R186, R190: Finish rounds the coefficients of every lane, drops trailing ones that are small in every
active lane, places the result and issues the writes of its header and rows; with no active lane there is no effect. The model's choices, not the
spec's, on which clauses rest: log entries 31, 32, 33, 34. -/
def Obligations.FunctionRegisters : Prop := FunctionDefinitionResults ∧ PoolPlacement ∧ FunctionDomainTraps ∧ FunctionFinish

/-- R92, R255, R258, R262, R263: a load, store, atomic or CAS that passes its checks issues: its class counter and general counter rise, and
what it captured of its active lanes is outstanding; no register and no byte of storage changes at issue. (A store needs room in the side
log where a lane's page is not yet known; race-checked pages are apart.) R248, R255: what a memory instruction captures: its register, and
each active lane once with its offset and data, by rising 256-byte line; lanes of one line stand in lane order. The model's choices, not the
spec's, on which clauses rest: log entry 54. -/
def Obligations.MemoryIssue : Prop := MemoryInstructionsIssue ∧ CaptureHoldsTheActiveLanes

/-- R244, R259, R262, R263: a scratchpad instruction that passes its checks issues: its counters rise, and what it captured of its active lanes, through
the group's own scratchpad, is outstanding; no register and no byte of storage changes at issue. R241, R244, R259: a lane of a scratchpad instruction,
when it is performed, reads the bytes of its group's scratchpad at its offset, and a write replaces exactly them; global storage does not change. The
model's choices, not the spec's, on which clauses rest: log entries 58, 59. -/
def Obligations.ScratchpadAccess : Prop := ScratchpadInstructionsIssue ∧ ScratchpadLane

/-- R258: the registers a load of `n` bytes lands: word i of a lane's bytes goes to register d + i, least significant byte first, extended with
zeros or, with `.s`, with the sign; lanes that were not read keep their value. R261, R263: what the atomic operations write, by number, on
32 or 64 bits; CAS writes the new value only where the old one equals the comparand. The model's choices, not the spec's, on which clauses
rest: log entry 49. -/
def Obligations.AtomicAndLoadedValues : Prop := LoadedRegisters ∧ AtomicValues

/-- R276: a step leaves an object with its new fields; where ARRCNT = EXPCNT and ARRBYTES = EXPBYTES the phase ends: PHASE rises by 1 and the three counts
are cleared. Every other object stays, the 16 bytes of the object in scratchpad show it, and each BWAIT whose phase number PHASE has passed retires,
with what it acquires; of every wave nothing else changes. R277 to R279: BINIT makes a live object with no arrival in phase 0, and BINIT.inv ends an
idle one; BARR adds arrivals, at once or, behind what it must follow, later; BEXP adds expected bytes; each is outstanding on k1. BWAIT retires once
PHASE has passed its number, and until then holds the wave. R275, R277, R278: the traps of the instructions on barrier objects: a misaligned offset,
one outside the group's scratchpad, no live object (3), one already live (2), a 65th object of the core (4), a count outside 1 to 65535, a count above
EXPCNT (5), BINIT.inv of an object in use (6). The model's choices, not the spec's, on which clauses rest: log entries 52, 65, 71. -/
def Obligations.BarrierObjects : Prop := BarrierObjectStep ∧ BarrierObjectResults ∧ BarrierObjectTraps

/-- R270, R271, R273, R280 to R282: CPA joins the open batch, and a 17th copy commits it first, which waits while k2 is full; CPCOMMIT commits it, and with an object declares
its bytes there; CPB declares its box and is outstanding; CPSM issues on k2; CWPRD reads a channel's write pointer. R236, R239, R283:
CPR.start enters a move at the lowest free entry, or writes why it is refused with scc = 0; CPR.end of a copied move removes it, raises HGEN
of each source frame by one and clears its SET, and refuses with 8 where no move stands and 7 where it is not copied; CPR.query writes the
progress pointer. The model's choices, not the spec's, on which clauses rest: log entries 68, 69, 72. -/
def Obligations.CopiesAndMoves : Prop := CopyInstructionResults ∧ MoveInstructionResults

/-- R34, R38 to R40, R286: FETCHW takes the next linear index of the launch's dispenser, puts its coordinates into the fields of WID, and sets
scc; once the indices are out it clears scc and leaves D; with no dispenser it raises QUEUE 0x15. ENQ and DEQ on an accessible queue end as
their step on the queue does: stored, taken, closed and empty, waiting in order, or QUEUE with its code; behind an earlier waiter they wait.
R36 to R39, R44, R45: one step on a queue whose header reads as `h`: a queue in error fails with 0x14, an invalid header latches 0x10, a
depth of 8 latches 0x11, a bad entry 0x12; otherwise ENQ writes its entry, of depth QDEPTH + 1, at the tail of its die's ring and then
raises TAIL; with the ring full it takes the reserved slot of its depth where that is free, and else waits. DEQ takes the highest reserved
entry, else the entry at the ring's head; on an empty queue that is closed it ends, else it waits. The model's choices, not the spec's, on
which clauses rest: log entry 108. -/
def Obligations.TaskQueues : Prop := QueueInstructionResults ∧ QueueSteps

/-- R393: RTE reads the frame that the link pair names and restores from it the PC, em within LIVE, the link pair, scc, FPCTL and the place in a prefix;
it clears the recovery-mode bit and satisfies DIST, with every result in flight landed before (R87). A frame with reserved bits raises
ILLEGAL_OPERAND, an address of 2^52 or above PROTECTION 4, a misaligned one MISALIGNED. R391, R394, and the rules of each register in R98, R249, R317
and R386: PRD reads every privileged register, a pair for TRAPVEC, TRAPFRM, GAP and GSP; PWR writes one that takes the value, and raises
ILLEGAL_OPERAND where the value breaks the register's rule. -/
def Obligations.HandlersAndPrivilege : Prop := ReturnFromHandler ∧ PrivilegedRegisters

/-- R293, R299 to R303: TCFG lands a configuration; the tile transfers issue on k3 with what they captured, and TLD of a checked or ternary
tensor is performed at its issue; TXP captures the transpose. R298: the traps of tile and matrix instructions, the first that applies: an
invalid configuration 2, a wrong shape 3, a format that the instruction does not take 5, a block outside the accumulator 4, a row or an
origin out of place 6, a tensor that cannot have a trailer 8. The model's choices, not the spec's, on which clauses rest: log entries 75,
78, 83. -/
def Obligations.Tiles : Prop := TileInstructionResults ∧ TileShapeTraps

/-- R304 to R313: a matrix instruction that has its token and passes the checks of R298 issues with its operands as they stand; without the
token it waits. ACCLD, ACCST and ACCQ issue on k3; TSCL issues without a token. The last of four joint MMAX joins them. R175, R304: one
k-block into an accumulator element: INT32 adds every product, modulo 2^32; FP32 and FP64 round the exact sum of the element and the
products once, to nearest, ties to even; and an element takes its k-blocks in rising order. The model's choices, not the spec's, on which
clauses rest: log entries 76, 79, 80. -/
def Obligations.MatrixOperations : Prop := MatrixInstructionsIssue ∧ MatrixElementValues

/-- R220, R238, R249, R250, R366, R370 to R375: requests and messages at a line's home. A reader of a line that no other die has gets it exclusive, or
shared where R371 restricts it; a writer waits until every sharer has acknowledged and the owner has answered; a copy is given up only once the leases
that its slice recorded have passed; a line in a transaction keeps later requests in order. R252, R253, R376, R378, R426: the host's side of a line:
snoops leave the bridge's half shared or gone, an answer to a request gives it; a host access is made at the line's home once the management registers
are there; the scrubber's finding is recorded, and what it cannot correct is poisoned. The model's choices, not the spec's, on which clauses rest: log
entries 62, 114, 115, 116, 117, 143, 144, 147, 149. -/
def Obligations.LinesAndTheHost : Prop := DirectoryEvents ∧ HostSideEvents

/-- R83, R92, R80, R253, R89: every instruction first passes the checks: one that fails raises its trap at its address, with the offset from the prefix in
the detail; under a PBLK with no active lane it has no effect; with a counter that it raises at 63, or k2 there for a batch that it would commit, it
stays where it is; a poisoned register that it reads raises ECC_UNCORRECTABLE at the register's on-chip address. One that a held instruction keeps
inside goes on with the registers that it read at its issue, and is not checked again. R83: the checks in their order: a feature that the launch's
module has not accepted raises FEATURE_ABSENT with its bit, a privileged instruction elsewhere PRIVILEGED, a field out of range ILLEGAL_OPERAND. The
model's choices, not the spec's, on which clauses rest: log entries 22, 137. -/
def Obligations.Checks : Prop := ChecksComeFirst ∧ ChecksInOrder

/-- R382 to R387: a wave with nothing left to wait for enters its handler: its frame holds PC, em, the link, code and detail, flags, the address, the PBLK
condition, FPCTL, the reports lost and the die's clock; s[63:62] has the frame's address, TRAPCODE and TRAPADDR the trap; em is LIVE, NANTRAP is
clear, no prefix is in progress, and the wave is in recovery mode at the vector of the code. Nothing else of the wave changes. A trap taken at a
boundary records the PC of the delivery. A frame that waits at its home is stored later; one that cannot be stored ends the wave, with a record of
kind 2. R387: the 64 bytes of a frame. A REP or PBLK is interrupted where it is in progress, and where a handler has returned to it and it has not
issued again. The model's choices, not the spec's, on which clauses rest: log entry 44. -/
def Obligations.TrapEntryAndFrame : Prop := TrapEntry ∧ TrapFrameHolds

end
end

