-- ==== Sys2Proof/Laws/Cells.lean ====
section
/-! SUPPORT. The laws of sparse cells and tables: a write keeps the canonical form, reads back, and leaves every other
key alone; equal contents in that form are equal data. -/

namespace Sys2Proof.Machine

variable {w : Nat}

theorem cellsFrom_mono {lo hi : Nat} (h : lo ≤ hi) : ∀ {c : Cells w}, cellsFrom hi c = true → cellsFrom lo c = true
  | [], _ => rfl
  | (k, x) :: c, hc => by
    simp only [cellsFrom, Bool.and_eq_true, decide_eq_true_eq] at hc ⊢
    exact ⟨⟨Nat.le_trans h hc.1.1, hc.1.2⟩, hc.2⟩

/-- Below its first possible key, cells in the canonical form read as zero. -/
theorem cget_below {lo i : Nat} (h : i < lo) : ∀ {c : Cells w}, cellsFrom lo c = true → cget c i = 0
  | [], _ => rfl
  | (k, x) :: c, hc => by
    simp only [cellsFrom, Bool.and_eq_true, decide_eq_true_eq] at hc
    have hk : i < k := Nat.lt_of_lt_of_le h hc.1.1
    simp only [cget, if_pos hk]

theorem cellsFrom_cset {lo i : Nat} (x : BitVec w) (h : lo ≤ i) :
    ∀ {c : Cells w}, cellsFrom lo c = true → cellsFrom lo (cset c i x) = true
  | [], _ => by
    by_cases hx : x = 0#w <;> simp [cset, cellsFrom, hx, h]
  | (k, y) :: c, hc => by
    simp only [cellsFrom, Bool.and_eq_true, decide_eq_true_eq] at hc
    obtain ⟨⟨hk, hy⟩, hc⟩ := hc
    replace hy : ¬y = 0#w := hy
    by_cases h1 : i < k
    · by_cases hx : x = 0#w
      · simp [cset, h1, hx, cellsFrom, hk, hy, hc]
      · simp [cset, h1, hx, cellsFrom, h, hy, hc]
    · by_cases h2 : i = k
      · subst h2
        by_cases hx : x = 0#w
        · simp only [cset, Nat.lt_irrefl, if_false, if_true, show x = 0 from hx]
          exact cellsFrom_mono (Nat.le_succ_of_le h) hc
        · simp [cset, cellsFrom, hx, h, hc]
      · have hlt : k + 1 ≤ i := by omega
        have := cellsFrom_cset x hlt hc
        simp [cset, h1, h2, cellsFrom, hk, hy, this]

/-- A write keeps the canonical form. -/
theorem cellsWf_cset {c : Cells w} (i : Nat) (x : BitVec w) (h : cellsWf c = true) : cellsWf (cset c i x) = true :=
  cellsFrom_cset x (Nat.zero_le i) h

theorem cget_cset_from {lo i j : Nat} (x : BitVec w) :
    ∀ {c : Cells w}, cellsFrom lo c = true → cget (cset c i x) j = if j = i then x else cget c j
  | [], _ => by
    by_cases hx : x = 0#w <;> by_cases hj : j = i <;> simp [cset, cget, hx, hj]
  | (k, y) :: c, hc => by
    simp only [cellsFrom, Bool.and_eq_true, decide_eq_true_eq] at hc
    obtain ⟨⟨hk, hy⟩, hc⟩ := hc
    replace hy : ¬y = 0#w := hy
    have hbelow : ∀ n, n < k + 1 → cget c n = 0 := fun n hn => cget_below hn hc
    by_cases h1 : i < k
    · by_cases hx : x = 0#w
      · by_cases hj : j = i
        · subst hj; simp [cset, cget, h1, hx]
        · simp [cset, h1, hx, hj]
      · by_cases hj : j = i
        · subst hj; simp [cset, cget, h1, hx]
        · by_cases hji : j < i
          · have : j < k := by omega
            simp [cset, cget, h1, hx, hj, hji, this]
          · simp [cset, cget, h1, hx, hj, hji]
    · by_cases h2 : i = k
      · subst h2
        by_cases hx : x = 0#w
        · by_cases hj : j = i
          · subst hj; simp [cset, hx, hbelow]
          · by_cases hji : j < i
            · simp [cset, cget, hx, hj, hji, hbelow j (by omega)]
            · simp [cset, cget, hx, hj, hji]
        · by_cases hj : j = i
          · subst hj; simp [cset, cget, hx]
          · by_cases hji : j < i <;> simp [cset, cget, hx, hj, hji]
      · have ih := cget_cset_from (i := i) (j := j) x hc
        by_cases hjk : j < k
        · have : j ≠ i := by omega
          simp [cset, cget, h1, h2, hjk, this]
        · by_cases hjk2 : j = k
          · have : k ≠ i := fun e => h2 e.symm
            subst hjk2
            simp [cset, cget, h1, h2, this]
          · simp [cset, cget, h1, h2, hjk, hjk2, ih]

/-- A read after a write: the value written at its key, what stood there at every other. -/
theorem cget_cset {c : Cells w} (h : cellsWf c = true) (i j : Nat) (x : BitVec w) :
    cget (cset c i x) j = if j = i then x else cget c j := cget_cset_from x h

theorem cellsWf_csetList : ∀ (xs : List (BitVec w)) {c : Cells w} (i : Nat), cellsWf c = true → cellsWf (csetList c i xs) = true
  | [], _, _, h => h
  | x :: xs, _, i, h => cellsWf_csetList xs (i + 1) (cellsWf_cset i x h)

/-- A read after a write of a list: the item that lies at the key, what stood there outside the range. -/
theorem cget_csetList : ∀ (xs : List (BitVec w)) {c : Cells w} (i j : Nat), cellsWf c = true →
    cget (csetList c i xs) j = if i ≤ j ∧ j < i + xs.length then xs.getD (j - i) 0 else cget c j
  | [], c, i, j, _ => by simp [csetList]
  | x :: xs, c, i, j, h => by
    rw [csetList, cget_csetList xs (i + 1) j (cellsWf_cset i x h), cget_cset h]
    by_cases h1 : j = i
    · subst h1; simp
    · by_cases h2 : i ≤ j ∧ j < i + (x :: xs).length
      · obtain ⟨ha, hb⟩ := h2
        have hb' : j < i + 1 + xs.length := by simp only [List.length_cons] at hb; omega
        obtain ⟨n, rfl⟩ : ∃ n, j = i + 1 + n := ⟨j - i - 1, by omega⟩
        rw [if_pos ⟨by omega, hb'⟩, if_pos ⟨ha, hb⟩]
        rw [show i + 1 + n - (i + 1) = n by omega, show i + 1 + n - i = n + 1 by omega, List.getD_cons_succ]
      · have : ¬(i + 1 ≤ j ∧ j < i + 1 + xs.length) := by
          simp only [List.length_cons] at h2; omega
        rw [if_neg this, if_neg h1, if_neg h2]

theorem cellsFrom_filter {lo : Nat} (p : Nat × BitVec w → Bool) :
    ∀ {c : Cells w}, cellsFrom lo c = true → cellsFrom lo (c.filter p) = true
  | [], _ => rfl
  | (k, x) :: c, hc => by
    simp only [cellsFrom, Bool.and_eq_true, decide_eq_true_eq] at hc
    have ih := cellsFrom_filter p hc.2
    by_cases hp : p (k, x) = true
    · simpa [List.filter, hp, cellsFrom, hc.1.1, ih] using hc.1.2
    · simp only [List.filter, hp]
      exact cellsFrom_mono (by omega) ih

/-- Taking cells out keeps the canonical form. -/
theorem cellsWf_filter {c : Cells w} (p : Nat × BitVec w → Bool) (h : cellsWf c = true) : cellsWf (c.filter p) = true :=
  cellsFrom_filter p h

theorem cellsWf_cclear {c : Cells w} (lo hi : Nat) (h : cellsWf c = true) : cellsWf (cclear c lo hi) = true :=
  cellsWf_filter _ h

theorem cellsWf_cmerge (base : Nat) : ∀ (src : Cells w) {c : Cells w}, cellsWf c = true → cellsWf (cmerge c base src) = true
  | [], _, h => h
  | p :: src, c, h => by
    rw [cmerge, List.foldl_cons]
    exact cellsWf_cmerge base src (cellsWf_cset _ _ h)

/-- Writes of a list of keys and values keep the canonical form. -/
theorem cellsWf_foldl_cset (key : Nat × BitVec w → Nat) : ∀ (l : List (Nat × BitVec w)) {c : Cells w},
    cellsWf c = true → cellsWf (l.foldl (fun c p => cset c (key p) p.2) c) = true
  | [], _, h => h
  | _ :: l, _, h => cellsWf_foldl_cset key l (cellsWf_cset _ _ h)

theorem cellsFrom_ext {lo : Nat} : ∀ {a b : Cells w}, cellsFrom lo a = true → cellsFrom lo b = true →
    (∀ i, cget a i = cget b i) → a = b
  | [], [], _, _, _ => rfl
  | [], (k, y) :: b, _, hb, h => by
    simp only [cellsFrom, Bool.and_eq_true, decide_eq_true_eq] at hb
    have := h k
    simp [cget] at this
    exact absurd this.symm hb.1.2
  | (k, x) :: a, [], ha, _, h => by
    simp only [cellsFrom, Bool.and_eq_true, decide_eq_true_eq] at ha
    have := h k
    simp [cget] at this
    exact absurd this ha.1.2
  | (k, x) :: a, (j, y) :: b, ha, hb, h => by
    simp only [cellsFrom, Bool.and_eq_true, decide_eq_true_eq] at ha hb
    rcases Nat.lt_trichotomy k j with hlt | heq | hgt
    · have := h k
      simp [cget, hlt] at this
      exact absurd this ha.1.2
    · subst heq
      have hxy : x = y := by simpa [cget] using h k
      subst hxy
      rw [cellsFrom_ext ha.2 hb.2 fun i => ?_]
      by_cases hi : i < k + 1
      · rw [cget_below hi ha.2, cget_below hi hb.2]
      · have := h i
        simpa [cget, show ¬i < k by omega, show ¬i = k by omega] using this
    · have := h j
      simp [cget, hgt] at this
      exact absurd this.symm hb.1.2

/-- Cells in the canonical form that read alike are equal. -/
theorem cells_ext {a b : Cells w} (ha : cellsWf a = true) (hb : cellsWf b = true) (h : ∀ i, cget a i = cget b i) : a = b :=
  cellsFrom_ext ha hb h

/-! ### Tables -/

variable {α : Type}

theorem tfind_tset_self (t : Table α) (k : Nat) (x : α) : tfind (tset t k x) k = some x := by
  induction t with
  | nil => simp [tset, tfind]
  | cons p t ih =>
    obtain ⟨n, y⟩ := p
    simp only [tset]
    split
    · simp [tfind]
    · split <;> simp_all [tfind]

theorem tfind_tset_ne (t : Table α) {i k : Nat} (x : α) (h : i ≠ k) : tfind (tset t k x) i = tfind t i := by
  induction t with
  | nil =>
    have : ¬i = k := h
    by_cases hi : i < k <;> simp [tset, tfind, this, hi]
  | cons p t ih =>
    obtain ⟨n, y⟩ := p
    by_cases h1 : k < n
    · by_cases hi : i < k
      · simp [tset, tfind, h1, hi, show i < n by omega]
      · simp [tset, tfind, h1, hi, h]
    · by_cases h2 : k = n
      · subst h2
        by_cases hi : i < k <;> simp [tset, tfind, hi, h]
      · simp [tset, tfind, h1, h2, ih]

@[simp] theorem tget_tset_self (d : α) (t : Table α) (k : Nat) (x : α) : tget d (tset t k x) k = x := by
  simp [tget, tfind_tset_self]

theorem tget_tset_ne (d : α) (t : Table α) {i k : Nat} (x : α) (h : i ≠ k) : tget d (tset t k x) i = tget d t i := by
  simp [tget, tfind_tset_ne t x h]

/-- Of two writes of one record the later one stands. -/
@[simp] theorem tset_tset (t : Table α) (k : Nat) (x y : α) : tset (tset t k x) k y = tset t k y := by
  induction t with
  | nil => simp [tset]
  | cons p t ih =>
    obtain ⟨n, z⟩ := p
    simp only [tset]
    split
    · simp [tset]
    · split <;> simp_all [tset]

/-! ### Bytes of a number -/

@[simp] theorem toBytes_length : ∀ (n x : Nat), (toBytes x n).length = n
  | 0, _ => rfl
  | n + 1, x => by simp [toBytes, toBytes_length n]

theorem ofBytes_lt : ∀ bs : List Byte, ofBytes bs < 256 ^ bs.length
  | [] => by simp [ofBytes]
  | b :: bs => by
    have h1 := b.isLt
    have h2 := ofBytes_lt bs
    simp only [ofBytes, List.length_cons, Nat.pow_succ]
    omega

/-- The bytes of a number spell it, modulo their range. -/
theorem ofBytes_toBytes : ∀ (n x : Nat), ofBytes (toBytes x n) = x % 256 ^ n
  | 0, x => by simp [toBytes, ofBytes, Nat.mod_one]
  | n + 1, x => by
    rw [toBytes, ofBytes, ofBytes_toBytes n, Nat.pow_succ, Nat.mul_comm (256 ^ n), Nat.mod_mul]
    simp

end Sys2Proof.Machine
end

