-- ==== Sys2Proof/Laws/State.lean ====
section
/-! SUPPORT. What each update of a state, and of a wave, leaves of every field: one lemma for each field, true by
unfolding, so that no later proof unfolds a record update. Written out by a script from the fields of `State` and `Wave`. -/

namespace Sys2Proof.Machine

/-! ### State.setCore -/

@[simp] theorem State.setCore_wave (s : State) (c : Nat) (x : Core) : (s.setCore c x).wave = s.wave := rfl
@[simp] theorem State.setCore_waves (s : State) (c : Nat) (x : Core) : (s.setCore c x).waves = s.waves := rfl
@[simp] theorem State.setCore_chosen (s : State) (c : Nat) (x : Core) : (s.setCore c x).chosen = s.chosen := rfl
@[simp] theorem State.setCore_agenda (s : State) (c : Nat) (x : Core) : (s.setCore c x).agenda = s.agenda := rfl
@[simp] theorem State.setCore_fresh (s : State) (c : Nat) (x : Core) : (s.setCore c x).fresh = s.fresh := rfl
@[simp] theorem State.setCore_turn (s : State) (c : Nat) (x : Core) : (s.setCore c x).turn = s.turn := rfl
@[simp] theorem State.setCore_clock (s : State) (c : Nat) (x : Core) : (s.setCore c x).clock = s.clock := rfl
@[simp] theorem State.setCore_pipeFree (s : State) (c : Nat) (x : Core) : (s.setCore c x).pipeFree = s.pipeFree := rfl
@[simp] theorem State.setCore_mem (s : State) (c : Nat) (x : Core) : (s.setCore c x).mem = s.mem := rfl
@[simp] theorem State.setCore_poison (s : State) (c : Nat) (x : Core) : (s.setCore c x).poison = s.poison := rfl
@[simp] theorem State.setCore_frames (s : State) (c : Nat) (x : Core) : (s.setCore c x).frames = s.frames := rfl
@[simp] theorem State.setCore_seals (s : State) (c : Nat) (x : Core) : (s.setCore c x).seals = s.seals := rfl
@[simp] theorem State.setCore_leases (s : State) (c : Nat) (x : Core) : (s.setCore c x).leases = s.leases := rfl
@[simp] theorem State.setCore_waitWrites (s : State) (c : Nat) (x : Core) : (s.setCore c x).waitWrites = s.waitWrites := rfl
@[simp] theorem State.setCore_devWrites (s : State) (c : Nat) (x : Core) : (s.setCore c x).devWrites = s.devWrites := rfl
@[simp] theorem State.setCore_rel (s : State) (c : Nat) (x : Core) : (s.setCore c x).rel = s.rel := rfl
@[simp] theorem State.setCore_races (s : State) (c : Nat) (x : Core) : (s.setCore c x).races = s.races := rfl
@[simp] theorem State.setCore_hbStream (s : State) (c : Nat) (x : Core) : (s.setCore c x).hbStream = s.hbStream := rfl
@[simp] theorem State.setCore_hbHost (s : State) (c : Nat) (x : Core) : (s.setCore c x).hbHost = s.hbHost := rfl
@[simp] theorem State.setCore_moves (s : State) (c : Nat) (x : Core) : (s.setCore c x).moves = s.moves := rfl
@[simp] theorem State.setCore_dir (s : State) (c : Nat) (x : Core) : (s.setCore c x).dir = s.dir := rfl
@[simp] theorem State.setCore_bisnp (s : State) (c : Nat) (x : Core) : (s.setCore c x).bisnp = s.bisnp := rfl
@[simp] theorem State.setCore_shareOnly (s : State) (c : Nat) (x : Core) : (s.setCore c x).shareOnly = s.shareOnly := rfl
@[simp] theorem State.setCore_copies (s : State) (c : Nat) (x : Core) : (s.setCore c x).copies = s.copies := rfl
@[simp] theorem State.setCore_msgs (s : State) (c : Nat) (x : Core) : (s.setCore c x).msgs = s.msgs := rfl
@[simp] theorem State.setCore_replicas (s : State) (c : Nat) (x : Core) : (s.setCore c x).replicas = s.replicas := rfl
@[simp] theorem State.setCore_bridge (s : State) (c : Nat) (x : Core) : (s.setCore c x).bridge = s.bridge := rfl
@[simp] theorem State.setCore_hostRead (s : State) (c : Nat) (x : Core) : (s.setCore c x).hostRead = s.hostRead := rfl
@[simp] theorem State.setCore_hostReads (s : State) (c : Nat) (x : Core) : (s.setCore c x).hostReads = s.hostReads := rfl
@[simp] theorem State.setCore_cores (s : State) (c : Nat) (x : Core) : (s.setCore c x).cores = tset s.cores c x := rfl
@[simp] theorem State.setCore_dies (s : State) (c : Nat) (x : Core) : (s.setCore c x).dies = s.dies := rfl
@[simp] theorem State.setCore_groups (s : State) (c : Nat) (x : Core) : (s.setCore c x).groups = s.groups := rfl
@[simp] theorem State.setCore_launches (s : State) (c : Nat) (x : Core) : (s.setCore c x).launches = s.launches := rfl
@[simp] theorem State.setCore_packets (s : State) (c : Nat) (x : Core) : (s.setCore c x).packets = s.packets := rfl
@[simp] theorem State.setCore_nextPseq (s : State) (c : Nat) (x : Core) : (s.setCore c x).nextPseq = s.nextPseq := rfl
@[simp] theorem State.setCore_tagsUsed (s : State) (c : Nat) (x : Core) : (s.setCore c x).tagsUsed = s.tagsUsed := rfl
@[simp] theorem State.setCore_pool (s : State) (c : Nat) (x : Core) : (s.setCore c x).pool = s.pool := rfl
@[simp] theorem State.setCore_inuse (s : State) (c : Nat) (x : Core) : (s.setCore c x).inuse = s.inuse := rfl
@[simp] theorem State.setCore_lastDie (s : State) (c : Nat) (x : Core) : (s.setCore c x).lastDie = s.lastDie := rfl
@[simp] theorem State.setCore_lastStream (s : State) (c : Nat) (x : Core) : (s.setCore c x).lastStream = s.lastStream := rfl
@[simp] theorem State.setCore_queues (s : State) (c : Nat) (x : Core) : (s.setCore c x).queues = s.queues := rfl
@[simp] theorem State.setCore_faults (s : State) (c : Nat) (x : Core) : (s.setCore c x).faults = s.faults := rfl
@[simp] theorem State.setCore_nextTag (s : State) (c : Nat) (x : Core) : (s.setCore c x).nextTag = s.nextTag := rfl
@[simp] theorem State.setCore_owed (s : State) (c : Nat) (x : Core) : (s.setCore c x).owed = s.owed := rfl
@[simp] theorem State.setCore_lostDue (s : State) (c : Nat) (x : Core) : (s.setCore c x).lostDue = s.lostDue := rfl
@[simp] theorem State.setCore_suspended (s : State) (c : Nat) (x : Core) : (s.setCore c x).suspended = s.suspended := rfl
@[simp] theorem State.setCore_heads (s : State) (c : Nat) (x : Core) : (s.setCore c x).heads = s.heads := rfl
@[simp] theorem State.setCore_mgmt (s : State) (c : Nat) (x : Core) : (s.setCore c x).mgmt = s.mgmt := rfl
@[simp] theorem State.setCore_boot (s : State) (c : Nat) (x : Core) : (s.setCore c x).boot = s.boot := rfl
@[simp] theorem State.setCore_poolSet (s : State) (c : Nat) (x : Core) : (s.setCore c x).poolSet = s.poolSet := rfl

/-! ### State.setDie -/

@[simp] theorem State.setDie_wave (s : State) (d : Nat) (x : Die) : (s.setDie d x).wave = s.wave := rfl
@[simp] theorem State.setDie_waves (s : State) (d : Nat) (x : Die) : (s.setDie d x).waves = s.waves := rfl
@[simp] theorem State.setDie_chosen (s : State) (d : Nat) (x : Die) : (s.setDie d x).chosen = s.chosen := rfl
@[simp] theorem State.setDie_agenda (s : State) (d : Nat) (x : Die) : (s.setDie d x).agenda = s.agenda := rfl
@[simp] theorem State.setDie_fresh (s : State) (d : Nat) (x : Die) : (s.setDie d x).fresh = s.fresh := rfl
@[simp] theorem State.setDie_turn (s : State) (d : Nat) (x : Die) : (s.setDie d x).turn = s.turn := rfl
@[simp] theorem State.setDie_clock (s : State) (d : Nat) (x : Die) : (s.setDie d x).clock = s.clock := rfl
@[simp] theorem State.setDie_pipeFree (s : State) (d : Nat) (x : Die) : (s.setDie d x).pipeFree = s.pipeFree := rfl
@[simp] theorem State.setDie_mem (s : State) (d : Nat) (x : Die) : (s.setDie d x).mem = s.mem := rfl
@[simp] theorem State.setDie_poison (s : State) (d : Nat) (x : Die) : (s.setDie d x).poison = s.poison := rfl
@[simp] theorem State.setDie_frames (s : State) (d : Nat) (x : Die) : (s.setDie d x).frames = s.frames := rfl
@[simp] theorem State.setDie_seals (s : State) (d : Nat) (x : Die) : (s.setDie d x).seals = s.seals := rfl
@[simp] theorem State.setDie_leases (s : State) (d : Nat) (x : Die) : (s.setDie d x).leases = s.leases := rfl
@[simp] theorem State.setDie_waitWrites (s : State) (d : Nat) (x : Die) : (s.setDie d x).waitWrites = s.waitWrites := rfl
@[simp] theorem State.setDie_devWrites (s : State) (d : Nat) (x : Die) : (s.setDie d x).devWrites = s.devWrites := rfl
@[simp] theorem State.setDie_rel (s : State) (d : Nat) (x : Die) : (s.setDie d x).rel = s.rel := rfl
@[simp] theorem State.setDie_races (s : State) (d : Nat) (x : Die) : (s.setDie d x).races = s.races := rfl
@[simp] theorem State.setDie_hbStream (s : State) (d : Nat) (x : Die) : (s.setDie d x).hbStream = s.hbStream := rfl
@[simp] theorem State.setDie_hbHost (s : State) (d : Nat) (x : Die) : (s.setDie d x).hbHost = s.hbHost := rfl
@[simp] theorem State.setDie_moves (s : State) (d : Nat) (x : Die) : (s.setDie d x).moves = s.moves := rfl
@[simp] theorem State.setDie_dir (s : State) (d : Nat) (x : Die) : (s.setDie d x).dir = s.dir := rfl
@[simp] theorem State.setDie_bisnp (s : State) (d : Nat) (x : Die) : (s.setDie d x).bisnp = s.bisnp := rfl
@[simp] theorem State.setDie_shareOnly (s : State) (d : Nat) (x : Die) : (s.setDie d x).shareOnly = s.shareOnly := rfl
@[simp] theorem State.setDie_copies (s : State) (d : Nat) (x : Die) : (s.setDie d x).copies = s.copies := rfl
@[simp] theorem State.setDie_msgs (s : State) (d : Nat) (x : Die) : (s.setDie d x).msgs = s.msgs := rfl
@[simp] theorem State.setDie_replicas (s : State) (d : Nat) (x : Die) : (s.setDie d x).replicas = s.replicas := rfl
@[simp] theorem State.setDie_bridge (s : State) (d : Nat) (x : Die) : (s.setDie d x).bridge = s.bridge := rfl
@[simp] theorem State.setDie_hostRead (s : State) (d : Nat) (x : Die) : (s.setDie d x).hostRead = s.hostRead := rfl
@[simp] theorem State.setDie_hostReads (s : State) (d : Nat) (x : Die) : (s.setDie d x).hostReads = s.hostReads := rfl
@[simp] theorem State.setDie_cores (s : State) (d : Nat) (x : Die) : (s.setDie d x).cores = s.cores := rfl
@[simp] theorem State.setDie_dies (s : State) (d : Nat) (x : Die) : (s.setDie d x).dies = tset s.dies d x := rfl
@[simp] theorem State.setDie_groups (s : State) (d : Nat) (x : Die) : (s.setDie d x).groups = s.groups := rfl
@[simp] theorem State.setDie_launches (s : State) (d : Nat) (x : Die) : (s.setDie d x).launches = s.launches := rfl
@[simp] theorem State.setDie_packets (s : State) (d : Nat) (x : Die) : (s.setDie d x).packets = s.packets := rfl
@[simp] theorem State.setDie_nextPseq (s : State) (d : Nat) (x : Die) : (s.setDie d x).nextPseq = s.nextPseq := rfl
@[simp] theorem State.setDie_tagsUsed (s : State) (d : Nat) (x : Die) : (s.setDie d x).tagsUsed = s.tagsUsed := rfl
@[simp] theorem State.setDie_pool (s : State) (d : Nat) (x : Die) : (s.setDie d x).pool = s.pool := rfl
@[simp] theorem State.setDie_inuse (s : State) (d : Nat) (x : Die) : (s.setDie d x).inuse = s.inuse := rfl
@[simp] theorem State.setDie_lastDie (s : State) (d : Nat) (x : Die) : (s.setDie d x).lastDie = s.lastDie := rfl
@[simp] theorem State.setDie_lastStream (s : State) (d : Nat) (x : Die) : (s.setDie d x).lastStream = s.lastStream := rfl
@[simp] theorem State.setDie_queues (s : State) (d : Nat) (x : Die) : (s.setDie d x).queues = s.queues := rfl
@[simp] theorem State.setDie_faults (s : State) (d : Nat) (x : Die) : (s.setDie d x).faults = s.faults := rfl
@[simp] theorem State.setDie_nextTag (s : State) (d : Nat) (x : Die) : (s.setDie d x).nextTag = s.nextTag := rfl
@[simp] theorem State.setDie_owed (s : State) (d : Nat) (x : Die) : (s.setDie d x).owed = s.owed := rfl
@[simp] theorem State.setDie_lostDue (s : State) (d : Nat) (x : Die) : (s.setDie d x).lostDue = s.lostDue := rfl
@[simp] theorem State.setDie_suspended (s : State) (d : Nat) (x : Die) : (s.setDie d x).suspended = s.suspended := rfl
@[simp] theorem State.setDie_heads (s : State) (d : Nat) (x : Die) : (s.setDie d x).heads = s.heads := rfl
@[simp] theorem State.setDie_mgmt (s : State) (d : Nat) (x : Die) : (s.setDie d x).mgmt = s.mgmt := rfl
@[simp] theorem State.setDie_boot (s : State) (d : Nat) (x : Die) : (s.setDie d x).boot = s.boot := rfl
@[simp] theorem State.setDie_poolSet (s : State) (d : Nat) (x : Die) : (s.setDie d x).poolSet = s.poolSet := rfl

/-! ### State.setGroup -/

@[simp] theorem State.setGroup_wave (s : State) (c g : Nat) (x : Group) : (s.setGroup c g x).wave = s.wave := rfl
@[simp] theorem State.setGroup_waves (s : State) (c g : Nat) (x : Group) : (s.setGroup c g x).waves = s.waves := rfl
@[simp] theorem State.setGroup_chosen (s : State) (c g : Nat) (x : Group) : (s.setGroup c g x).chosen = s.chosen := rfl
@[simp] theorem State.setGroup_agenda (s : State) (c g : Nat) (x : Group) : (s.setGroup c g x).agenda = s.agenda := rfl
@[simp] theorem State.setGroup_fresh (s : State) (c g : Nat) (x : Group) : (s.setGroup c g x).fresh = s.fresh := rfl
@[simp] theorem State.setGroup_turn (s : State) (c g : Nat) (x : Group) : (s.setGroup c g x).turn = s.turn := rfl
@[simp] theorem State.setGroup_clock (s : State) (c g : Nat) (x : Group) : (s.setGroup c g x).clock = s.clock := rfl
@[simp] theorem State.setGroup_pipeFree (s : State) (c g : Nat) (x : Group) : (s.setGroup c g x).pipeFree = s.pipeFree := rfl
@[simp] theorem State.setGroup_mem (s : State) (c g : Nat) (x : Group) : (s.setGroup c g x).mem = s.mem := rfl
@[simp] theorem State.setGroup_poison (s : State) (c g : Nat) (x : Group) : (s.setGroup c g x).poison = s.poison := rfl
@[simp] theorem State.setGroup_frames (s : State) (c g : Nat) (x : Group) : (s.setGroup c g x).frames = s.frames := rfl
@[simp] theorem State.setGroup_seals (s : State) (c g : Nat) (x : Group) : (s.setGroup c g x).seals = s.seals := rfl
@[simp] theorem State.setGroup_leases (s : State) (c g : Nat) (x : Group) : (s.setGroup c g x).leases = s.leases := rfl
@[simp] theorem State.setGroup_waitWrites (s : State) (c g : Nat) (x : Group) : (s.setGroup c g x).waitWrites = s.waitWrites := rfl
@[simp] theorem State.setGroup_devWrites (s : State) (c g : Nat) (x : Group) : (s.setGroup c g x).devWrites = s.devWrites := rfl
@[simp] theorem State.setGroup_rel (s : State) (c g : Nat) (x : Group) : (s.setGroup c g x).rel = s.rel := rfl
@[simp] theorem State.setGroup_races (s : State) (c g : Nat) (x : Group) : (s.setGroup c g x).races = s.races := rfl
@[simp] theorem State.setGroup_hbStream (s : State) (c g : Nat) (x : Group) : (s.setGroup c g x).hbStream = s.hbStream := rfl
@[simp] theorem State.setGroup_hbHost (s : State) (c g : Nat) (x : Group) : (s.setGroup c g x).hbHost = s.hbHost := rfl
@[simp] theorem State.setGroup_moves (s : State) (c g : Nat) (x : Group) : (s.setGroup c g x).moves = s.moves := rfl
@[simp] theorem State.setGroup_dir (s : State) (c g : Nat) (x : Group) : (s.setGroup c g x).dir = s.dir := rfl
@[simp] theorem State.setGroup_bisnp (s : State) (c g : Nat) (x : Group) : (s.setGroup c g x).bisnp = s.bisnp := rfl
@[simp] theorem State.setGroup_shareOnly (s : State) (c g : Nat) (x : Group) : (s.setGroup c g x).shareOnly = s.shareOnly := rfl
@[simp] theorem State.setGroup_copies (s : State) (c g : Nat) (x : Group) : (s.setGroup c g x).copies = s.copies := rfl
@[simp] theorem State.setGroup_msgs (s : State) (c g : Nat) (x : Group) : (s.setGroup c g x).msgs = s.msgs := rfl
@[simp] theorem State.setGroup_replicas (s : State) (c g : Nat) (x : Group) : (s.setGroup c g x).replicas = s.replicas := rfl
@[simp] theorem State.setGroup_bridge (s : State) (c g : Nat) (x : Group) : (s.setGroup c g x).bridge = s.bridge := rfl
@[simp] theorem State.setGroup_hostRead (s : State) (c g : Nat) (x : Group) : (s.setGroup c g x).hostRead = s.hostRead := rfl
@[simp] theorem State.setGroup_hostReads (s : State) (c g : Nat) (x : Group) : (s.setGroup c g x).hostReads = s.hostReads := rfl
@[simp] theorem State.setGroup_cores (s : State) (c g : Nat) (x : Group) : (s.setGroup c g x).cores = s.cores := rfl
@[simp] theorem State.setGroup_dies (s : State) (c g : Nat) (x : Group) : (s.setGroup c g x).dies = s.dies := rfl
@[simp] theorem State.setGroup_groups (s : State) (c g : Nat) (x : Group) : (s.setGroup c g x).groups = tset s.groups (groupKey c g) x := rfl
@[simp] theorem State.setGroup_launches (s : State) (c g : Nat) (x : Group) : (s.setGroup c g x).launches = s.launches := rfl
@[simp] theorem State.setGroup_packets (s : State) (c g : Nat) (x : Group) : (s.setGroup c g x).packets = s.packets := rfl
@[simp] theorem State.setGroup_nextPseq (s : State) (c g : Nat) (x : Group) : (s.setGroup c g x).nextPseq = s.nextPseq := rfl
@[simp] theorem State.setGroup_tagsUsed (s : State) (c g : Nat) (x : Group) : (s.setGroup c g x).tagsUsed = s.tagsUsed := rfl
@[simp] theorem State.setGroup_pool (s : State) (c g : Nat) (x : Group) : (s.setGroup c g x).pool = s.pool := rfl
@[simp] theorem State.setGroup_inuse (s : State) (c g : Nat) (x : Group) : (s.setGroup c g x).inuse = s.inuse := rfl
@[simp] theorem State.setGroup_lastDie (s : State) (c g : Nat) (x : Group) : (s.setGroup c g x).lastDie = s.lastDie := rfl
@[simp] theorem State.setGroup_lastStream (s : State) (c g : Nat) (x : Group) : (s.setGroup c g x).lastStream = s.lastStream := rfl
@[simp] theorem State.setGroup_queues (s : State) (c g : Nat) (x : Group) : (s.setGroup c g x).queues = s.queues := rfl
@[simp] theorem State.setGroup_faults (s : State) (c g : Nat) (x : Group) : (s.setGroup c g x).faults = s.faults := rfl
@[simp] theorem State.setGroup_nextTag (s : State) (c g : Nat) (x : Group) : (s.setGroup c g x).nextTag = s.nextTag := rfl
@[simp] theorem State.setGroup_owed (s : State) (c g : Nat) (x : Group) : (s.setGroup c g x).owed = s.owed := rfl
@[simp] theorem State.setGroup_lostDue (s : State) (c g : Nat) (x : Group) : (s.setGroup c g x).lostDue = s.lostDue := rfl
@[simp] theorem State.setGroup_suspended (s : State) (c g : Nat) (x : Group) : (s.setGroup c g x).suspended = s.suspended := rfl
@[simp] theorem State.setGroup_heads (s : State) (c g : Nat) (x : Group) : (s.setGroup c g x).heads = s.heads := rfl
@[simp] theorem State.setGroup_mgmt (s : State) (c g : Nat) (x : Group) : (s.setGroup c g x).mgmt = s.mgmt := rfl
@[simp] theorem State.setGroup_boot (s : State) (c g : Nat) (x : Group) : (s.setGroup c g x).boot = s.boot := rfl
@[simp] theorem State.setGroup_poolSet (s : State) (c g : Nat) (x : Group) : (s.setGroup c g x).poolSet = s.poolSet := rfl

/-! ### State.setLaunch -/

@[simp] theorem State.setLaunch_wave (s : State) (l : Nat) (x : Launch) : (s.setLaunch l x).wave = s.wave := rfl
@[simp] theorem State.setLaunch_waves (s : State) (l : Nat) (x : Launch) : (s.setLaunch l x).waves = s.waves := rfl
@[simp] theorem State.setLaunch_chosen (s : State) (l : Nat) (x : Launch) : (s.setLaunch l x).chosen = s.chosen := rfl
@[simp] theorem State.setLaunch_agenda (s : State) (l : Nat) (x : Launch) : (s.setLaunch l x).agenda = s.agenda := rfl
@[simp] theorem State.setLaunch_fresh (s : State) (l : Nat) (x : Launch) : (s.setLaunch l x).fresh = s.fresh := rfl
@[simp] theorem State.setLaunch_turn (s : State) (l : Nat) (x : Launch) : (s.setLaunch l x).turn = s.turn := rfl
@[simp] theorem State.setLaunch_clock (s : State) (l : Nat) (x : Launch) : (s.setLaunch l x).clock = s.clock := rfl
@[simp] theorem State.setLaunch_pipeFree (s : State) (l : Nat) (x : Launch) : (s.setLaunch l x).pipeFree = s.pipeFree := rfl
@[simp] theorem State.setLaunch_mem (s : State) (l : Nat) (x : Launch) : (s.setLaunch l x).mem = s.mem := rfl
@[simp] theorem State.setLaunch_poison (s : State) (l : Nat) (x : Launch) : (s.setLaunch l x).poison = s.poison := rfl
@[simp] theorem State.setLaunch_frames (s : State) (l : Nat) (x : Launch) : (s.setLaunch l x).frames = s.frames := rfl
@[simp] theorem State.setLaunch_seals (s : State) (l : Nat) (x : Launch) : (s.setLaunch l x).seals = s.seals := rfl
@[simp] theorem State.setLaunch_leases (s : State) (l : Nat) (x : Launch) : (s.setLaunch l x).leases = s.leases := rfl
@[simp] theorem State.setLaunch_waitWrites (s : State) (l : Nat) (x : Launch) : (s.setLaunch l x).waitWrites = s.waitWrites := rfl
@[simp] theorem State.setLaunch_devWrites (s : State) (l : Nat) (x : Launch) : (s.setLaunch l x).devWrites = s.devWrites := rfl
@[simp] theorem State.setLaunch_rel (s : State) (l : Nat) (x : Launch) : (s.setLaunch l x).rel = s.rel := rfl
@[simp] theorem State.setLaunch_races (s : State) (l : Nat) (x : Launch) : (s.setLaunch l x).races = s.races := rfl
@[simp] theorem State.setLaunch_hbStream (s : State) (l : Nat) (x : Launch) : (s.setLaunch l x).hbStream = s.hbStream := rfl
@[simp] theorem State.setLaunch_hbHost (s : State) (l : Nat) (x : Launch) : (s.setLaunch l x).hbHost = s.hbHost := rfl
@[simp] theorem State.setLaunch_moves (s : State) (l : Nat) (x : Launch) : (s.setLaunch l x).moves = s.moves := rfl
@[simp] theorem State.setLaunch_dir (s : State) (l : Nat) (x : Launch) : (s.setLaunch l x).dir = s.dir := rfl
@[simp] theorem State.setLaunch_bisnp (s : State) (l : Nat) (x : Launch) : (s.setLaunch l x).bisnp = s.bisnp := rfl
@[simp] theorem State.setLaunch_shareOnly (s : State) (l : Nat) (x : Launch) : (s.setLaunch l x).shareOnly = s.shareOnly := rfl
@[simp] theorem State.setLaunch_copies (s : State) (l : Nat) (x : Launch) : (s.setLaunch l x).copies = s.copies := rfl
@[simp] theorem State.setLaunch_msgs (s : State) (l : Nat) (x : Launch) : (s.setLaunch l x).msgs = s.msgs := rfl
@[simp] theorem State.setLaunch_replicas (s : State) (l : Nat) (x : Launch) : (s.setLaunch l x).replicas = s.replicas := rfl
@[simp] theorem State.setLaunch_bridge (s : State) (l : Nat) (x : Launch) : (s.setLaunch l x).bridge = s.bridge := rfl
@[simp] theorem State.setLaunch_hostRead (s : State) (l : Nat) (x : Launch) : (s.setLaunch l x).hostRead = s.hostRead := rfl
@[simp] theorem State.setLaunch_hostReads (s : State) (l : Nat) (x : Launch) : (s.setLaunch l x).hostReads = s.hostReads := rfl
@[simp] theorem State.setLaunch_cores (s : State) (l : Nat) (x : Launch) : (s.setLaunch l x).cores = s.cores := rfl
@[simp] theorem State.setLaunch_dies (s : State) (l : Nat) (x : Launch) : (s.setLaunch l x).dies = s.dies := rfl
@[simp] theorem State.setLaunch_groups (s : State) (l : Nat) (x : Launch) : (s.setLaunch l x).groups = s.groups := rfl
@[simp] theorem State.setLaunch_launches (s : State) (l : Nat) (x : Launch) : (s.setLaunch l x).launches = tset s.launches l x := rfl
@[simp] theorem State.setLaunch_packets (s : State) (l : Nat) (x : Launch) : (s.setLaunch l x).packets = s.packets := rfl
@[simp] theorem State.setLaunch_nextPseq (s : State) (l : Nat) (x : Launch) : (s.setLaunch l x).nextPseq = s.nextPseq := rfl
@[simp] theorem State.setLaunch_tagsUsed (s : State) (l : Nat) (x : Launch) : (s.setLaunch l x).tagsUsed = s.tagsUsed := rfl
@[simp] theorem State.setLaunch_pool (s : State) (l : Nat) (x : Launch) : (s.setLaunch l x).pool = s.pool := rfl
@[simp] theorem State.setLaunch_inuse (s : State) (l : Nat) (x : Launch) : (s.setLaunch l x).inuse = s.inuse := rfl
@[simp] theorem State.setLaunch_lastDie (s : State) (l : Nat) (x : Launch) : (s.setLaunch l x).lastDie = s.lastDie := rfl
@[simp] theorem State.setLaunch_lastStream (s : State) (l : Nat) (x : Launch) : (s.setLaunch l x).lastStream = s.lastStream := rfl
@[simp] theorem State.setLaunch_queues (s : State) (l : Nat) (x : Launch) : (s.setLaunch l x).queues = s.queues := rfl
@[simp] theorem State.setLaunch_faults (s : State) (l : Nat) (x : Launch) : (s.setLaunch l x).faults = s.faults := rfl
@[simp] theorem State.setLaunch_nextTag (s : State) (l : Nat) (x : Launch) : (s.setLaunch l x).nextTag = s.nextTag := rfl
@[simp] theorem State.setLaunch_owed (s : State) (l : Nat) (x : Launch) : (s.setLaunch l x).owed = s.owed := rfl
@[simp] theorem State.setLaunch_lostDue (s : State) (l : Nat) (x : Launch) : (s.setLaunch l x).lostDue = s.lostDue := rfl
@[simp] theorem State.setLaunch_suspended (s : State) (l : Nat) (x : Launch) : (s.setLaunch l x).suspended = s.suspended := rfl
@[simp] theorem State.setLaunch_heads (s : State) (l : Nat) (x : Launch) : (s.setLaunch l x).heads = s.heads := rfl
@[simp] theorem State.setLaunch_mgmt (s : State) (l : Nat) (x : Launch) : (s.setLaunch l x).mgmt = s.mgmt := rfl
@[simp] theorem State.setLaunch_boot (s : State) (l : Nat) (x : Launch) : (s.setLaunch l x).boot = s.boot := rfl
@[simp] theorem State.setLaunch_poolSet (s : State) (l : Nat) (x : Launch) : (s.setLaunch l x).poolSet = s.poolSet := rfl

/-! ### State.setWave -/

@[simp] theorem State.setWave_wave (s : State) (w : Wave) : (s.setWave w).wave = w := rfl
@[simp] theorem State.setWave_waves (s : State) (w : Wave) : (s.setWave w).waves = s.waves := rfl
@[simp] theorem State.setWave_chosen (s : State) (w : Wave) : (s.setWave w).chosen = s.chosen := rfl
@[simp] theorem State.setWave_agenda (s : State) (w : Wave) : (s.setWave w).agenda = s.agenda := rfl
@[simp] theorem State.setWave_fresh (s : State) (w : Wave) : (s.setWave w).fresh = s.fresh := rfl
@[simp] theorem State.setWave_turn (s : State) (w : Wave) : (s.setWave w).turn = s.turn := rfl
@[simp] theorem State.setWave_clock (s : State) (w : Wave) : (s.setWave w).clock = s.clock := rfl
@[simp] theorem State.setWave_pipeFree (s : State) (w : Wave) : (s.setWave w).pipeFree = s.pipeFree := rfl
@[simp] theorem State.setWave_mem (s : State) (w : Wave) : (s.setWave w).mem = s.mem := rfl
@[simp] theorem State.setWave_poison (s : State) (w : Wave) : (s.setWave w).poison = s.poison := rfl
@[simp] theorem State.setWave_frames (s : State) (w : Wave) : (s.setWave w).frames = s.frames := rfl
@[simp] theorem State.setWave_seals (s : State) (w : Wave) : (s.setWave w).seals = s.seals := rfl
@[simp] theorem State.setWave_leases (s : State) (w : Wave) : (s.setWave w).leases = s.leases := rfl
@[simp] theorem State.setWave_waitWrites (s : State) (w : Wave) : (s.setWave w).waitWrites = s.waitWrites := rfl
@[simp] theorem State.setWave_devWrites (s : State) (w : Wave) : (s.setWave w).devWrites = s.devWrites := rfl
@[simp] theorem State.setWave_rel (s : State) (w : Wave) : (s.setWave w).rel = s.rel := rfl
@[simp] theorem State.setWave_races (s : State) (w : Wave) : (s.setWave w).races = s.races := rfl
@[simp] theorem State.setWave_hbStream (s : State) (w : Wave) : (s.setWave w).hbStream = s.hbStream := rfl
@[simp] theorem State.setWave_hbHost (s : State) (w : Wave) : (s.setWave w).hbHost = s.hbHost := rfl
@[simp] theorem State.setWave_moves (s : State) (w : Wave) : (s.setWave w).moves = s.moves := rfl
@[simp] theorem State.setWave_dir (s : State) (w : Wave) : (s.setWave w).dir = s.dir := rfl
@[simp] theorem State.setWave_bisnp (s : State) (w : Wave) : (s.setWave w).bisnp = s.bisnp := rfl
@[simp] theorem State.setWave_shareOnly (s : State) (w : Wave) : (s.setWave w).shareOnly = s.shareOnly := rfl
@[simp] theorem State.setWave_copies (s : State) (w : Wave) : (s.setWave w).copies = s.copies := rfl
@[simp] theorem State.setWave_msgs (s : State) (w : Wave) : (s.setWave w).msgs = s.msgs := rfl
@[simp] theorem State.setWave_replicas (s : State) (w : Wave) : (s.setWave w).replicas = s.replicas := rfl
@[simp] theorem State.setWave_bridge (s : State) (w : Wave) : (s.setWave w).bridge = s.bridge := rfl
@[simp] theorem State.setWave_hostRead (s : State) (w : Wave) : (s.setWave w).hostRead = s.hostRead := rfl
@[simp] theorem State.setWave_hostReads (s : State) (w : Wave) : (s.setWave w).hostReads = s.hostReads := rfl
@[simp] theorem State.setWave_cores (s : State) (w : Wave) : (s.setWave w).cores = s.cores := rfl
@[simp] theorem State.setWave_dies (s : State) (w : Wave) : (s.setWave w).dies = s.dies := rfl
@[simp] theorem State.setWave_groups (s : State) (w : Wave) : (s.setWave w).groups = s.groups := rfl
@[simp] theorem State.setWave_launches (s : State) (w : Wave) : (s.setWave w).launches = s.launches := rfl
@[simp] theorem State.setWave_packets (s : State) (w : Wave) : (s.setWave w).packets = s.packets := rfl
@[simp] theorem State.setWave_nextPseq (s : State) (w : Wave) : (s.setWave w).nextPseq = s.nextPseq := rfl
@[simp] theorem State.setWave_tagsUsed (s : State) (w : Wave) : (s.setWave w).tagsUsed = s.tagsUsed := rfl
@[simp] theorem State.setWave_pool (s : State) (w : Wave) : (s.setWave w).pool = s.pool := rfl
@[simp] theorem State.setWave_inuse (s : State) (w : Wave) : (s.setWave w).inuse = s.inuse := rfl
@[simp] theorem State.setWave_lastDie (s : State) (w : Wave) : (s.setWave w).lastDie = s.lastDie := rfl
@[simp] theorem State.setWave_lastStream (s : State) (w : Wave) : (s.setWave w).lastStream = s.lastStream := rfl
@[simp] theorem State.setWave_queues (s : State) (w : Wave) : (s.setWave w).queues = s.queues := rfl
@[simp] theorem State.setWave_faults (s : State) (w : Wave) : (s.setWave w).faults = s.faults := rfl
@[simp] theorem State.setWave_nextTag (s : State) (w : Wave) : (s.setWave w).nextTag = s.nextTag := rfl
@[simp] theorem State.setWave_owed (s : State) (w : Wave) : (s.setWave w).owed = s.owed := rfl
@[simp] theorem State.setWave_lostDue (s : State) (w : Wave) : (s.setWave w).lostDue = s.lostDue := rfl
@[simp] theorem State.setWave_suspended (s : State) (w : Wave) : (s.setWave w).suspended = s.suspended := rfl
@[simp] theorem State.setWave_heads (s : State) (w : Wave) : (s.setWave w).heads = s.heads := rfl
@[simp] theorem State.setWave_mgmt (s : State) (w : Wave) : (s.setWave w).mgmt = s.mgmt := rfl
@[simp] theorem State.setWave_boot (s : State) (w : Wave) : (s.setWave w).boot = s.boot := rfl
@[simp] theorem State.setWave_poolSet (s : State) (w : Wave) : (s.setWave w).poolSet = s.poolSet := rfl

/-! ### State.bump -/

@[simp] theorem State.bump_wave (s : State) : (s.bump).wave = s.wave := rfl
@[simp] theorem State.bump_waves (s : State) : (s.bump).waves = s.waves := rfl
@[simp] theorem State.bump_chosen (s : State) : (s.bump).chosen = s.chosen := rfl
@[simp] theorem State.bump_agenda (s : State) : (s.bump).agenda = s.agenda := rfl
@[simp] theorem State.bump_fresh (s : State) : (s.bump).fresh = s.fresh + 1 := rfl
@[simp] theorem State.bump_turn (s : State) : (s.bump).turn = s.turn := rfl
@[simp] theorem State.bump_clock (s : State) : (s.bump).clock = s.clock := rfl
@[simp] theorem State.bump_pipeFree (s : State) : (s.bump).pipeFree = s.pipeFree := rfl
@[simp] theorem State.bump_mem (s : State) : (s.bump).mem = s.mem := rfl
@[simp] theorem State.bump_poison (s : State) : (s.bump).poison = s.poison := rfl
@[simp] theorem State.bump_frames (s : State) : (s.bump).frames = s.frames := rfl
@[simp] theorem State.bump_seals (s : State) : (s.bump).seals = s.seals := rfl
@[simp] theorem State.bump_leases (s : State) : (s.bump).leases = s.leases := rfl
@[simp] theorem State.bump_waitWrites (s : State) : (s.bump).waitWrites = s.waitWrites := rfl
@[simp] theorem State.bump_devWrites (s : State) : (s.bump).devWrites = s.devWrites := rfl
@[simp] theorem State.bump_rel (s : State) : (s.bump).rel = s.rel := rfl
@[simp] theorem State.bump_races (s : State) : (s.bump).races = s.races := rfl
@[simp] theorem State.bump_hbStream (s : State) : (s.bump).hbStream = s.hbStream := rfl
@[simp] theorem State.bump_hbHost (s : State) : (s.bump).hbHost = s.hbHost := rfl
@[simp] theorem State.bump_moves (s : State) : (s.bump).moves = s.moves := rfl
@[simp] theorem State.bump_dir (s : State) : (s.bump).dir = s.dir := rfl
@[simp] theorem State.bump_bisnp (s : State) : (s.bump).bisnp = s.bisnp := rfl
@[simp] theorem State.bump_shareOnly (s : State) : (s.bump).shareOnly = s.shareOnly := rfl
@[simp] theorem State.bump_copies (s : State) : (s.bump).copies = s.copies := rfl
@[simp] theorem State.bump_msgs (s : State) : (s.bump).msgs = s.msgs := rfl
@[simp] theorem State.bump_replicas (s : State) : (s.bump).replicas = s.replicas := rfl
@[simp] theorem State.bump_bridge (s : State) : (s.bump).bridge = s.bridge := rfl
@[simp] theorem State.bump_hostRead (s : State) : (s.bump).hostRead = s.hostRead := rfl
@[simp] theorem State.bump_hostReads (s : State) : (s.bump).hostReads = s.hostReads := rfl
@[simp] theorem State.bump_cores (s : State) : (s.bump).cores = s.cores := rfl
@[simp] theorem State.bump_dies (s : State) : (s.bump).dies = s.dies := rfl
@[simp] theorem State.bump_groups (s : State) : (s.bump).groups = s.groups := rfl
@[simp] theorem State.bump_launches (s : State) : (s.bump).launches = s.launches := rfl
@[simp] theorem State.bump_packets (s : State) : (s.bump).packets = s.packets := rfl
@[simp] theorem State.bump_nextPseq (s : State) : (s.bump).nextPseq = s.nextPseq := rfl
@[simp] theorem State.bump_tagsUsed (s : State) : (s.bump).tagsUsed = s.tagsUsed := rfl
@[simp] theorem State.bump_pool (s : State) : (s.bump).pool = s.pool := rfl
@[simp] theorem State.bump_inuse (s : State) : (s.bump).inuse = s.inuse := rfl
@[simp] theorem State.bump_lastDie (s : State) : (s.bump).lastDie = s.lastDie := rfl
@[simp] theorem State.bump_lastStream (s : State) : (s.bump).lastStream = s.lastStream := rfl
@[simp] theorem State.bump_queues (s : State) : (s.bump).queues = s.queues := rfl
@[simp] theorem State.bump_faults (s : State) : (s.bump).faults = s.faults := rfl
@[simp] theorem State.bump_nextTag (s : State) : (s.bump).nextTag = s.nextTag := rfl
@[simp] theorem State.bump_owed (s : State) : (s.bump).owed = s.owed := rfl
@[simp] theorem State.bump_lostDue (s : State) : (s.bump).lostDue = s.lostDue := rfl
@[simp] theorem State.bump_suspended (s : State) : (s.bump).suspended = s.suspended := rfl
@[simp] theorem State.bump_heads (s : State) : (s.bump).heads = s.heads := rfl
@[simp] theorem State.bump_mgmt (s : State) : (s.bump).mgmt = s.mgmt := rfl
@[simp] theorem State.bump_boot (s : State) : (s.bump).boot = s.boot := rfl
@[simp] theorem State.bump_poolSet (s : State) : (s.bump).poolSet = s.poolSet := rfl

/-! ### State.post -/

@[simp] theorem State.post_wave (s : State) (n : Nat) (xs : List WaveWrite) : (s.post n xs).wave = { s.wave with pend := xs.foldl (fun l x => postAt l (s.clock + n) x) s.wave.pend } := rfl
@[simp] theorem State.post_waves (s : State) (n : Nat) (xs : List WaveWrite) : (s.post n xs).waves = s.waves := rfl
@[simp] theorem State.post_chosen (s : State) (n : Nat) (xs : List WaveWrite) : (s.post n xs).chosen = s.chosen := rfl
@[simp] theorem State.post_agenda (s : State) (n : Nat) (xs : List WaveWrite) : (s.post n xs).agenda = s.agenda := rfl
@[simp] theorem State.post_fresh (s : State) (n : Nat) (xs : List WaveWrite) : (s.post n xs).fresh = s.fresh := rfl
@[simp] theorem State.post_turn (s : State) (n : Nat) (xs : List WaveWrite) : (s.post n xs).turn = s.turn := rfl
@[simp] theorem State.post_clock (s : State) (n : Nat) (xs : List WaveWrite) : (s.post n xs).clock = s.clock := rfl
@[simp] theorem State.post_pipeFree (s : State) (n : Nat) (xs : List WaveWrite) : (s.post n xs).pipeFree = s.pipeFree := rfl
@[simp] theorem State.post_mem (s : State) (n : Nat) (xs : List WaveWrite) : (s.post n xs).mem = s.mem := rfl
@[simp] theorem State.post_poison (s : State) (n : Nat) (xs : List WaveWrite) : (s.post n xs).poison = s.poison := rfl
@[simp] theorem State.post_frames (s : State) (n : Nat) (xs : List WaveWrite) : (s.post n xs).frames = s.frames := rfl
@[simp] theorem State.post_seals (s : State) (n : Nat) (xs : List WaveWrite) : (s.post n xs).seals = s.seals := rfl
@[simp] theorem State.post_leases (s : State) (n : Nat) (xs : List WaveWrite) : (s.post n xs).leases = s.leases := rfl
@[simp] theorem State.post_waitWrites (s : State) (n : Nat) (xs : List WaveWrite) : (s.post n xs).waitWrites = s.waitWrites := rfl
@[simp] theorem State.post_devWrites (s : State) (n : Nat) (xs : List WaveWrite) : (s.post n xs).devWrites = s.devWrites := rfl
@[simp] theorem State.post_rel (s : State) (n : Nat) (xs : List WaveWrite) : (s.post n xs).rel = s.rel := rfl
@[simp] theorem State.post_races (s : State) (n : Nat) (xs : List WaveWrite) : (s.post n xs).races = s.races := rfl
@[simp] theorem State.post_hbStream (s : State) (n : Nat) (xs : List WaveWrite) : (s.post n xs).hbStream = s.hbStream := rfl
@[simp] theorem State.post_hbHost (s : State) (n : Nat) (xs : List WaveWrite) : (s.post n xs).hbHost = s.hbHost := rfl
@[simp] theorem State.post_moves (s : State) (n : Nat) (xs : List WaveWrite) : (s.post n xs).moves = s.moves := rfl
@[simp] theorem State.post_dir (s : State) (n : Nat) (xs : List WaveWrite) : (s.post n xs).dir = s.dir := rfl
@[simp] theorem State.post_bisnp (s : State) (n : Nat) (xs : List WaveWrite) : (s.post n xs).bisnp = s.bisnp := rfl
@[simp] theorem State.post_shareOnly (s : State) (n : Nat) (xs : List WaveWrite) : (s.post n xs).shareOnly = s.shareOnly := rfl
@[simp] theorem State.post_copies (s : State) (n : Nat) (xs : List WaveWrite) : (s.post n xs).copies = s.copies := rfl
@[simp] theorem State.post_msgs (s : State) (n : Nat) (xs : List WaveWrite) : (s.post n xs).msgs = s.msgs := rfl
@[simp] theorem State.post_replicas (s : State) (n : Nat) (xs : List WaveWrite) : (s.post n xs).replicas = s.replicas := rfl
@[simp] theorem State.post_bridge (s : State) (n : Nat) (xs : List WaveWrite) : (s.post n xs).bridge = s.bridge := rfl
@[simp] theorem State.post_hostRead (s : State) (n : Nat) (xs : List WaveWrite) : (s.post n xs).hostRead = s.hostRead := rfl
@[simp] theorem State.post_hostReads (s : State) (n : Nat) (xs : List WaveWrite) : (s.post n xs).hostReads = s.hostReads := rfl
@[simp] theorem State.post_cores (s : State) (n : Nat) (xs : List WaveWrite) : (s.post n xs).cores = s.cores := rfl
@[simp] theorem State.post_dies (s : State) (n : Nat) (xs : List WaveWrite) : (s.post n xs).dies = s.dies := rfl
@[simp] theorem State.post_groups (s : State) (n : Nat) (xs : List WaveWrite) : (s.post n xs).groups = s.groups := rfl
@[simp] theorem State.post_launches (s : State) (n : Nat) (xs : List WaveWrite) : (s.post n xs).launches = s.launches := rfl
@[simp] theorem State.post_packets (s : State) (n : Nat) (xs : List WaveWrite) : (s.post n xs).packets = s.packets := rfl
@[simp] theorem State.post_nextPseq (s : State) (n : Nat) (xs : List WaveWrite) : (s.post n xs).nextPseq = s.nextPseq := rfl
@[simp] theorem State.post_tagsUsed (s : State) (n : Nat) (xs : List WaveWrite) : (s.post n xs).tagsUsed = s.tagsUsed := rfl
@[simp] theorem State.post_pool (s : State) (n : Nat) (xs : List WaveWrite) : (s.post n xs).pool = s.pool := rfl
@[simp] theorem State.post_inuse (s : State) (n : Nat) (xs : List WaveWrite) : (s.post n xs).inuse = s.inuse := rfl
@[simp] theorem State.post_lastDie (s : State) (n : Nat) (xs : List WaveWrite) : (s.post n xs).lastDie = s.lastDie := rfl
@[simp] theorem State.post_lastStream (s : State) (n : Nat) (xs : List WaveWrite) : (s.post n xs).lastStream = s.lastStream := rfl
@[simp] theorem State.post_queues (s : State) (n : Nat) (xs : List WaveWrite) : (s.post n xs).queues = s.queues := rfl
@[simp] theorem State.post_faults (s : State) (n : Nat) (xs : List WaveWrite) : (s.post n xs).faults = s.faults := rfl
@[simp] theorem State.post_nextTag (s : State) (n : Nat) (xs : List WaveWrite) : (s.post n xs).nextTag = s.nextTag := rfl
@[simp] theorem State.post_owed (s : State) (n : Nat) (xs : List WaveWrite) : (s.post n xs).owed = s.owed := rfl
@[simp] theorem State.post_lostDue (s : State) (n : Nat) (xs : List WaveWrite) : (s.post n xs).lostDue = s.lostDue := rfl
@[simp] theorem State.post_suspended (s : State) (n : Nat) (xs : List WaveWrite) : (s.post n xs).suspended = s.suspended := rfl
@[simp] theorem State.post_heads (s : State) (n : Nat) (xs : List WaveWrite) : (s.post n xs).heads = s.heads := rfl
@[simp] theorem State.post_mgmt (s : State) (n : Nat) (xs : List WaveWrite) : (s.post n xs).mgmt = s.mgmt := rfl
@[simp] theorem State.post_boot (s : State) (n : Nat) (xs : List WaveWrite) : (s.post n xs).boot = s.boot := rfl
@[simp] theorem State.post_poolSet (s : State) (n : Nat) (xs : List WaveWrite) : (s.post n xs).poolSet = s.poolSet := rfl

/-! ### State.boxRecord -/

@[simp] theorem State.boxRecord_wave (s : State) (d : Nat) (r : BoxRecord) : (s.boxRecord d r).wave = s.wave := rfl
@[simp] theorem State.boxRecord_waves (s : State) (d : Nat) (r : BoxRecord) : (s.boxRecord d r).waves = s.waves := rfl
@[simp] theorem State.boxRecord_chosen (s : State) (d : Nat) (r : BoxRecord) : (s.boxRecord d r).chosen = s.chosen := rfl
@[simp] theorem State.boxRecord_agenda (s : State) (d : Nat) (r : BoxRecord) : (s.boxRecord d r).agenda = s.agenda := rfl
@[simp] theorem State.boxRecord_fresh (s : State) (d : Nat) (r : BoxRecord) : (s.boxRecord d r).fresh = s.fresh := rfl
@[simp] theorem State.boxRecord_turn (s : State) (d : Nat) (r : BoxRecord) : (s.boxRecord d r).turn = s.turn := rfl
@[simp] theorem State.boxRecord_clock (s : State) (d : Nat) (r : BoxRecord) : (s.boxRecord d r).clock = s.clock := rfl
@[simp] theorem State.boxRecord_pipeFree (s : State) (d : Nat) (r : BoxRecord) : (s.boxRecord d r).pipeFree = s.pipeFree := rfl
@[simp] theorem State.boxRecord_mem (s : State) (d : Nat) (r : BoxRecord) : (s.boxRecord d r).mem = s.mem := rfl
@[simp] theorem State.boxRecord_poison (s : State) (d : Nat) (r : BoxRecord) : (s.boxRecord d r).poison = s.poison := rfl
@[simp] theorem State.boxRecord_frames (s : State) (d : Nat) (r : BoxRecord) : (s.boxRecord d r).frames = s.frames := rfl
@[simp] theorem State.boxRecord_seals (s : State) (d : Nat) (r : BoxRecord) : (s.boxRecord d r).seals = s.seals := rfl
@[simp] theorem State.boxRecord_leases (s : State) (d : Nat) (r : BoxRecord) : (s.boxRecord d r).leases = s.leases := rfl
@[simp] theorem State.boxRecord_waitWrites (s : State) (d : Nat) (r : BoxRecord) : (s.boxRecord d r).waitWrites = s.waitWrites := rfl
@[simp] theorem State.boxRecord_devWrites (s : State) (d : Nat) (r : BoxRecord) : (s.boxRecord d r).devWrites = s.devWrites := rfl
@[simp] theorem State.boxRecord_rel (s : State) (d : Nat) (r : BoxRecord) : (s.boxRecord d r).rel = s.rel := rfl
@[simp] theorem State.boxRecord_races (s : State) (d : Nat) (r : BoxRecord) : (s.boxRecord d r).races = s.races := rfl
@[simp] theorem State.boxRecord_hbStream (s : State) (d : Nat) (r : BoxRecord) : (s.boxRecord d r).hbStream = s.hbStream := rfl
@[simp] theorem State.boxRecord_hbHost (s : State) (d : Nat) (r : BoxRecord) : (s.boxRecord d r).hbHost = s.hbHost := rfl
@[simp] theorem State.boxRecord_moves (s : State) (d : Nat) (r : BoxRecord) : (s.boxRecord d r).moves = s.moves := rfl
@[simp] theorem State.boxRecord_dir (s : State) (d : Nat) (r : BoxRecord) : (s.boxRecord d r).dir = s.dir := rfl
@[simp] theorem State.boxRecord_bisnp (s : State) (d : Nat) (r : BoxRecord) : (s.boxRecord d r).bisnp = s.bisnp := rfl
@[simp] theorem State.boxRecord_shareOnly (s : State) (d : Nat) (r : BoxRecord) : (s.boxRecord d r).shareOnly = s.shareOnly := rfl
@[simp] theorem State.boxRecord_copies (s : State) (d : Nat) (r : BoxRecord) : (s.boxRecord d r).copies = s.copies := rfl
@[simp] theorem State.boxRecord_msgs (s : State) (d : Nat) (r : BoxRecord) : (s.boxRecord d r).msgs = s.msgs := rfl
@[simp] theorem State.boxRecord_replicas (s : State) (d : Nat) (r : BoxRecord) : (s.boxRecord d r).replicas = s.replicas := rfl
@[simp] theorem State.boxRecord_bridge (s : State) (d : Nat) (r : BoxRecord) : (s.boxRecord d r).bridge = s.bridge := rfl
@[simp] theorem State.boxRecord_hostRead (s : State) (d : Nat) (r : BoxRecord) : (s.boxRecord d r).hostRead = s.hostRead := rfl
@[simp] theorem State.boxRecord_hostReads (s : State) (d : Nat) (r : BoxRecord) : (s.boxRecord d r).hostReads = s.hostReads := rfl
@[simp] theorem State.boxRecord_cores (s : State) (d : Nat) (r : BoxRecord) : (s.boxRecord d r).cores = s.cores := rfl
@[simp] theorem State.boxRecord_dies (s : State) (d : Nat) (r : BoxRecord) : (s.boxRecord d r).dies = tset s.dies d { s.die d with box := ({ r with clock := (s.dieClock d).toNat } :: (s.die d).box).take 2048, wcount := (s.die d).wcount + 1 } := rfl
@[simp] theorem State.boxRecord_groups (s : State) (d : Nat) (r : BoxRecord) : (s.boxRecord d r).groups = s.groups := rfl
@[simp] theorem State.boxRecord_launches (s : State) (d : Nat) (r : BoxRecord) : (s.boxRecord d r).launches = s.launches := rfl
@[simp] theorem State.boxRecord_packets (s : State) (d : Nat) (r : BoxRecord) : (s.boxRecord d r).packets = s.packets := rfl
@[simp] theorem State.boxRecord_nextPseq (s : State) (d : Nat) (r : BoxRecord) : (s.boxRecord d r).nextPseq = s.nextPseq := rfl
@[simp] theorem State.boxRecord_tagsUsed (s : State) (d : Nat) (r : BoxRecord) : (s.boxRecord d r).tagsUsed = s.tagsUsed := rfl
@[simp] theorem State.boxRecord_pool (s : State) (d : Nat) (r : BoxRecord) : (s.boxRecord d r).pool = s.pool := rfl
@[simp] theorem State.boxRecord_inuse (s : State) (d : Nat) (r : BoxRecord) : (s.boxRecord d r).inuse = s.inuse := rfl
@[simp] theorem State.boxRecord_lastDie (s : State) (d : Nat) (r : BoxRecord) : (s.boxRecord d r).lastDie = s.lastDie := rfl
@[simp] theorem State.boxRecord_lastStream (s : State) (d : Nat) (r : BoxRecord) : (s.boxRecord d r).lastStream = s.lastStream := rfl
@[simp] theorem State.boxRecord_queues (s : State) (d : Nat) (r : BoxRecord) : (s.boxRecord d r).queues = s.queues := rfl
@[simp] theorem State.boxRecord_faults (s : State) (d : Nat) (r : BoxRecord) : (s.boxRecord d r).faults = s.faults := rfl
@[simp] theorem State.boxRecord_nextTag (s : State) (d : Nat) (r : BoxRecord) : (s.boxRecord d r).nextTag = s.nextTag := rfl
@[simp] theorem State.boxRecord_owed (s : State) (d : Nat) (r : BoxRecord) : (s.boxRecord d r).owed = s.owed := rfl
@[simp] theorem State.boxRecord_lostDue (s : State) (d : Nat) (r : BoxRecord) : (s.boxRecord d r).lostDue = s.lostDue := rfl
@[simp] theorem State.boxRecord_suspended (s : State) (d : Nat) (r : BoxRecord) : (s.boxRecord d r).suspended = s.suspended := rfl
@[simp] theorem State.boxRecord_heads (s : State) (d : Nat) (r : BoxRecord) : (s.boxRecord d r).heads = s.heads := rfl
@[simp] theorem State.boxRecord_mgmt (s : State) (d : Nat) (r : BoxRecord) : (s.boxRecord d r).mgmt = s.mgmt := rfl
@[simp] theorem State.boxRecord_boot (s : State) (d : Nat) (r : BoxRecord) : (s.boxRecord d r).boot = s.boot := rfl
@[simp] theorem State.boxRecord_poolSet (s : State) (d : Nat) (r : BoxRecord) : (s.boxRecord d r).poolSet = s.poolSet := rfl

/-! ### Records read back -/

@[simp] theorem State.setCore_core_self (s : State) (k : Nat) (x : Core) : (s.setCore k x).core k = x := by simp [State.core, State.setCore]
theorem State.setCore_core_ne (s : State) {i k : Nat} (x : Core) (h : i ≠ k) : (s.setCore k x).core i = s.core i := by
  simp [State.core, State.setCore, tget_tset_ne _ _ _ h]
@[simp] theorem State.setCore_setCore (s : State) (k : Nat) (x y : Core) : (s.setCore k x).setCore k y = s.setCore k y := by simp [State.setCore]
@[simp] theorem State.setCore_die (s : State) (k i : Nat) (x : Core) : (s.setCore k x).die i = s.die i := rfl
@[simp] theorem State.setCore_launch (s : State) (k i : Nat) (x : Core) : (s.setCore k x).launch i = s.launch i := rfl
@[simp] theorem State.setDie_die_self (s : State) (k : Nat) (x : Die) : (s.setDie k x).die k = x := by simp [State.die, State.setDie]
theorem State.setDie_die_ne (s : State) {i k : Nat} (x : Die) (h : i ≠ k) : (s.setDie k x).die i = s.die i := by
  simp [State.die, State.setDie, tget_tset_ne _ _ _ h]
@[simp] theorem State.setDie_setDie (s : State) (k : Nat) (x y : Die) : (s.setDie k x).setDie k y = s.setDie k y := by simp [State.setDie]
@[simp] theorem State.setDie_core (s : State) (k i : Nat) (x : Die) : (s.setDie k x).core i = s.core i := rfl
@[simp] theorem State.setDie_launch (s : State) (k i : Nat) (x : Die) : (s.setDie k x).launch i = s.launch i := rfl
@[simp] theorem State.setLaunch_launch_self (s : State) (k : Nat) (x : Launch) : (s.setLaunch k x).launch k = x := by simp [State.launch, State.setLaunch]
theorem State.setLaunch_launch_ne (s : State) {i k : Nat} (x : Launch) (h : i ≠ k) : (s.setLaunch k x).launch i = s.launch i := by
  simp [State.launch, State.setLaunch, tget_tset_ne _ _ _ h]
@[simp] theorem State.setLaunch_setLaunch (s : State) (k : Nat) (x y : Launch) : (s.setLaunch k x).setLaunch k y = s.setLaunch k y := by simp [State.setLaunch]
@[simp] theorem State.setLaunch_core (s : State) (k i : Nat) (x : Launch) : (s.setLaunch k x).core i = s.core i := rfl
@[simp] theorem State.setLaunch_die (s : State) (k i : Nat) (x : Launch) : (s.setLaunch k x).die i = s.die i := rfl
@[simp] theorem State.setGroup_group_self (s : State) (c g : Nat) (x : Group) : (s.setGroup c g x).group c g = x := by
  simp [State.group, State.setGroup]
@[simp] theorem State.setGroup_core (s : State) (c g i : Nat) (x : Group) : (s.setGroup c g x).core i = s.core i := rfl
@[simp] theorem State.setGroup_die (s : State) (c g i : Nat) (x : Group) : (s.setGroup c g x).die i = s.die i := rfl
@[simp] theorem State.setCore_group (s : State) (k c g : Nat) (x : Core) : (s.setCore k x).group c g = s.group c g := rfl
@[simp] theorem State.setDie_group (s : State) (k c g : Nat) (x : Die) : (s.setDie k x).group c g = s.group c g := rfl

/-! ### Wave.setS -/

@[simp] theorem Wave.setS_core (w : Wave) (n : Nat) (x : Word) : (w.setS n x).core = w.core := rfl
@[simp] theorem Wave.setS_slot (w : Wave) (n : Nat) (x : Word) : (w.setS n x).slot = w.slot := rfl
@[simp] theorem Wave.setS_gslot (w : Wave) (n : Nat) (x : Word) : (w.setS n x).gslot = w.gslot := rfl
@[simp] theorem Wave.setS_launch (w : Wave) (n : Nat) (x : Word) : (w.setS n x).launch = w.launch := rfl
@[simp] theorem Wave.setS_windex (w : Wave) (n : Nat) (x : Word) : (w.setS n x).windex = w.windex := rfl
@[simp] theorem Wave.setS_priv (w : Wave) (n : Nat) (x : Word) : (w.setS n x).priv = w.priv := rfl
@[simp] theorem Wave.setS_idle (w : Wave) (n : Nat) (x : Word) : (w.setS n x).idle = w.idle := rfl
@[simp] theorem Wave.setS_ended (w : Wave) (n : Nat) (x : Word) : (w.setS n x).ended = w.ended := rfl
@[simp] theorem Wave.setS_suspended (w : Wave) (n : Nat) (x : Word) : (w.setS n x).suspended = w.suspended := rfl
@[simp] theorem Wave.setS_width (w : Wave) (n : Nat) (x : Word) : (w.setS n x).width = w.width := rfl
@[simp] theorem Wave.setS_vregs (w : Wave) (n : Nat) (x : Word) : (w.setS n x).vregs = w.vregs := rfl
@[simp] theorem Wave.setS_pwords (w : Wave) (n : Nat) (x : Word) : (w.setS n x).pwords = w.pwords := rfl
@[simp] theorem Wave.setS_granules (w : Wave) (n : Nat) (x : Word) : (w.setS n x).granules = w.granules := rfl
@[simp] theorem Wave.setS_pc (w : Wave) (n : Nat) (x : Word) : (w.setS n x).pc = w.pc := rfl
@[simp] theorem Wave.setS_em (w : Wave) (n : Nat) (x : Word) : (w.setS n x).em = w.em := rfl
@[simp] theorem Wave.setS_live (w : Wave) (n : Nat) (x : Word) : (w.setS n x).live = w.live := rfl
@[simp] theorem Wave.setS_scc (w : Wave) (n : Nat) (x : Word) : (w.setS n x).scc = w.scc := rfl
@[simp] theorem Wave.setS_m (w : Wave) (n : Nat) (x : Word) : (w.setS n x).m = w.m := rfl
@[simp] theorem Wave.setS_s (w : Wave) (n : Nat) (x : Word) : (w.setS n x).s = cset w.s n x := rfl
@[simp] theorem Wave.setS_v (w : Wave) (n : Nat) (x : Word) : (w.setS n x).v = w.v := rfl
@[simp] theorem Wave.setS_slack (w : Wave) (n : Nat) (x : Word) : (w.setS n x).slack = w.slack := rfl
@[simp] theorem Wave.setS_vbad (w : Wave) (n : Nat) (x : Word) : (w.setS n x).vbad = w.vbad := rfl
@[simp] theorem Wave.setS_x (w : Wave) (n : Nat) (x : Word) : (w.setS n x).x = w.x := rfl
@[simp] theorem Wave.setS_bound (w : Wave) (n : Nat) (x : Word) : (w.setS n x).bound = w.bound := rfl
@[simp] theorem Wave.setS_k (w : Wave) (n : Nat) (x : Word) : (w.setS n x).k = w.k := rfl
@[simp] theorem Wave.setS_wid (w : Wave) (n : Nat) (x : Word) : (w.setS n x).wid = w.wid := rfl
@[simp] theorem Wave.setS_fpctl (w : Wave) (n : Nat) (x : Word) : (w.setS n x).fpctl = w.fpctl := rfl
@[simp] theorem Wave.setS_fnctl (w : Wave) (n : Nat) (x : Word) : (w.setS n x).fnctl = w.fnctl := rfl
@[simp] theorem Wave.setS_qdepth (w : Wave) (n : Nat) (x : Word) : (w.setS n x).qdepth = w.qdepth := rfl
@[simp] theorem Wave.setS_trapcode (w : Wave) (n : Nat) (x : Word) : (w.setS n x).trapcode = w.trapcode := rfl
@[simp] theorem Wave.setS_trapaddr (w : Wave) (n : Nat) (x : Word) : (w.setS n x).trapaddr = w.trapaddr := rfl
@[simp] theorem Wave.setS_tr (w : Wave) (n : Nat) (x : Word) : (w.setS n x).tr = w.tr := rfl
@[simp] theorem Wave.setS_fn (w : Wave) (n : Nat) (x : Word) : (w.setS n x).fn = w.fn := rfl
@[simp] theorem Wave.setS_pool (w : Wave) (n : Nat) (x : Word) : (w.setS n x).pool = w.pool := rfl
@[simp] theorem Wave.setS_lacc (w : Wave) (n : Nat) (x : Word) : (w.setS n x).lacc = w.lacc := rfl
@[simp] theorem Wave.setS_laccFlags (w : Wave) (n : Nat) (x : Word) : (w.setS n x).laccFlags = w.laccFlags := rfl
@[simp] theorem Wave.setS_query (w : Wave) (n : Nat) (x : Word) : (w.setS n x).query = w.query := rfl
@[simp] theorem Wave.setS_rep (w : Wave) (n : Nat) (x : Word) : (w.setS n x).rep = w.rep := rfl
@[simp] theorem Wave.setS_pblk (w : Wave) (n : Nat) (x : Word) : (w.setS n x).pblk = w.pblk := rfl
@[simp] theorem Wave.setS_resume (w : Wave) (n : Nat) (x : Word) : (w.setS n x).resume = w.resume := rfl
@[simp] theorem Wave.setS_recovery (w : Wave) (n : Nat) (x : Word) : (w.setS n x).recovery = w.recovery := rfl
@[simp] theorem Wave.setS_hold (w : Wave) (n : Nat) (x : Word) : (w.setS n x).hold = w.hold := rfl
@[simp] theorem Wave.setS_held (w : Wave) (n : Nat) (x : Word) : (w.setS n x).held = w.held := rfl
@[simp] theorem Wave.setS_dropped (w : Wave) (n : Nat) (x : Word) : (w.setS n x).dropped = w.dropped := rfl
@[simp] theorem Wave.setS_trap (w : Wave) (n : Nat) (x : Word) : (w.setS n x).trap = w.trap := rfl
@[simp] theorem Wave.setS_reports (w : Wave) (n : Nat) (x : Word) : (w.setS n x).reports = w.reports := rfl
@[simp] theorem Wave.setS_lost (w : Wave) (n : Nat) (x : Word) : (w.setS n x).lost = w.lost := rfl
@[simp] theorem Wave.setS_pend (w : Wave) (n : Nat) (x : Word) : (w.setS n x).pend = w.pend := rfl
@[simp] theorem Wave.setS_outst (w : Wave) (n : Nat) (x : Word) : (w.setS n x).outst = w.outst := rfl
@[simp] theorem Wave.setS_batch (w : Wave) (n : Nat) (x : Word) : (w.setS n x).batch = w.batch := rfl
@[simp] theorem Wave.setS_lastIssue (w : Wave) (n : Nat) (x : Word) : (w.setS n x).lastIssue = w.lastIssue := rfl
@[simp] theorem Wave.setS_notBefore (w : Wave) (n : Nat) (x : Word) : (w.setS n x).notBefore = w.notBefore := rfl
@[simp] theorem Wave.setS_age (w : Wave) (n : Nat) (x : Word) : (w.setS n x).age = w.age := rfl
@[simp] theorem Wave.setS_waited (w : Wave) (n : Nat) (x : Word) : (w.setS n x).waited = w.waited := rfl
@[simp] theorem Wave.setS_promoted (w : Wave) (n : Nat) (x : Word) : (w.setS n x).promoted = w.promoted := rfl
@[simp] theorem Wave.setS_requested (w : Wave) (n : Nat) (x : Word) : (w.setS n x).requested = w.requested := rfl
@[simp] theorem Wave.setS_granted (w : Wave) (n : Nat) (x : Word) : (w.setS n x).granted = w.granted := rfl
@[simp] theorem Wave.setS_arrived (w : Wave) (n : Nat) (x : Word) : (w.setS n x).arrived = w.arrived := rfl
@[simp] theorem Wave.setS_arrOrd (w : Wave) (n : Nat) (x : Word) : (w.setS n x).arrOrd = w.arrOrd := rfl
@[simp] theorem Wave.setS_uid (w : Wave) (n : Nat) (x : Word) : (w.setS n x).uid = w.uid := rfl
@[simp] theorem Wave.setS_hb (w : Wave) (n : Nat) (x : Word) : (w.setS n x).hb = w.hb := rfl
@[simp] theorem Wave.setS_hbRel (w : Wave) (n : Nat) (x : Word) : (w.setS n x).hbRel = w.hbRel := rfl
@[simp] theorem Wave.setS_hbAcq (w : Wave) (n : Nat) (x : Word) : (w.setS n x).hbAcq = w.hbAcq := rfl
@[simp] theorem Wave.setS_eng (w : Wave) (n : Nat) (x : Word) : (w.setS n x).eng = w.eng := rfl
@[simp] theorem Wave.setS_unwaited (w : Wave) (n : Nat) (x : Word) : (w.setS n x).unwaited = w.unwaited := rfl

/-! ### Wave.setSpair -/

@[simp] theorem Wave.setSpair_core (w : Wave) (n : Nat) (x : DWord) : (w.setSpair n x).core = w.core := rfl
@[simp] theorem Wave.setSpair_slot (w : Wave) (n : Nat) (x : DWord) : (w.setSpair n x).slot = w.slot := rfl
@[simp] theorem Wave.setSpair_gslot (w : Wave) (n : Nat) (x : DWord) : (w.setSpair n x).gslot = w.gslot := rfl
@[simp] theorem Wave.setSpair_launch (w : Wave) (n : Nat) (x : DWord) : (w.setSpair n x).launch = w.launch := rfl
@[simp] theorem Wave.setSpair_windex (w : Wave) (n : Nat) (x : DWord) : (w.setSpair n x).windex = w.windex := rfl
@[simp] theorem Wave.setSpair_priv (w : Wave) (n : Nat) (x : DWord) : (w.setSpair n x).priv = w.priv := rfl
@[simp] theorem Wave.setSpair_idle (w : Wave) (n : Nat) (x : DWord) : (w.setSpair n x).idle = w.idle := rfl
@[simp] theorem Wave.setSpair_ended (w : Wave) (n : Nat) (x : DWord) : (w.setSpair n x).ended = w.ended := rfl
@[simp] theorem Wave.setSpair_suspended (w : Wave) (n : Nat) (x : DWord) : (w.setSpair n x).suspended = w.suspended := rfl
@[simp] theorem Wave.setSpair_width (w : Wave) (n : Nat) (x : DWord) : (w.setSpair n x).width = w.width := rfl
@[simp] theorem Wave.setSpair_vregs (w : Wave) (n : Nat) (x : DWord) : (w.setSpair n x).vregs = w.vregs := rfl
@[simp] theorem Wave.setSpair_pwords (w : Wave) (n : Nat) (x : DWord) : (w.setSpair n x).pwords = w.pwords := rfl
@[simp] theorem Wave.setSpair_granules (w : Wave) (n : Nat) (x : DWord) : (w.setSpair n x).granules = w.granules := rfl
@[simp] theorem Wave.setSpair_pc (w : Wave) (n : Nat) (x : DWord) : (w.setSpair n x).pc = w.pc := rfl
@[simp] theorem Wave.setSpair_em (w : Wave) (n : Nat) (x : DWord) : (w.setSpair n x).em = w.em := rfl
@[simp] theorem Wave.setSpair_live (w : Wave) (n : Nat) (x : DWord) : (w.setSpair n x).live = w.live := rfl
@[simp] theorem Wave.setSpair_scc (w : Wave) (n : Nat) (x : DWord) : (w.setSpair n x).scc = w.scc := rfl
@[simp] theorem Wave.setSpair_m (w : Wave) (n : Nat) (x : DWord) : (w.setSpair n x).m = w.m := rfl
@[simp] theorem Wave.setSpair_s (w : Wave) (n : Nat) (x : DWord) : (w.setSpair n x).s = cset (cset w.s n (lo32 x)) (n + 1) (hi32 x) := rfl
@[simp] theorem Wave.setSpair_v (w : Wave) (n : Nat) (x : DWord) : (w.setSpair n x).v = w.v := rfl
@[simp] theorem Wave.setSpair_slack (w : Wave) (n : Nat) (x : DWord) : (w.setSpair n x).slack = w.slack := rfl
@[simp] theorem Wave.setSpair_vbad (w : Wave) (n : Nat) (x : DWord) : (w.setSpair n x).vbad = w.vbad := rfl
@[simp] theorem Wave.setSpair_x (w : Wave) (n : Nat) (x : DWord) : (w.setSpair n x).x = w.x := rfl
@[simp] theorem Wave.setSpair_bound (w : Wave) (n : Nat) (x : DWord) : (w.setSpair n x).bound = w.bound := rfl
@[simp] theorem Wave.setSpair_k (w : Wave) (n : Nat) (x : DWord) : (w.setSpair n x).k = w.k := rfl
@[simp] theorem Wave.setSpair_wid (w : Wave) (n : Nat) (x : DWord) : (w.setSpair n x).wid = w.wid := rfl
@[simp] theorem Wave.setSpair_fpctl (w : Wave) (n : Nat) (x : DWord) : (w.setSpair n x).fpctl = w.fpctl := rfl
@[simp] theorem Wave.setSpair_fnctl (w : Wave) (n : Nat) (x : DWord) : (w.setSpair n x).fnctl = w.fnctl := rfl
@[simp] theorem Wave.setSpair_qdepth (w : Wave) (n : Nat) (x : DWord) : (w.setSpair n x).qdepth = w.qdepth := rfl
@[simp] theorem Wave.setSpair_trapcode (w : Wave) (n : Nat) (x : DWord) : (w.setSpair n x).trapcode = w.trapcode := rfl
@[simp] theorem Wave.setSpair_trapaddr (w : Wave) (n : Nat) (x : DWord) : (w.setSpair n x).trapaddr = w.trapaddr := rfl
@[simp] theorem Wave.setSpair_tr (w : Wave) (n : Nat) (x : DWord) : (w.setSpair n x).tr = w.tr := rfl
@[simp] theorem Wave.setSpair_fn (w : Wave) (n : Nat) (x : DWord) : (w.setSpair n x).fn = w.fn := rfl
@[simp] theorem Wave.setSpair_pool (w : Wave) (n : Nat) (x : DWord) : (w.setSpair n x).pool = w.pool := rfl
@[simp] theorem Wave.setSpair_lacc (w : Wave) (n : Nat) (x : DWord) : (w.setSpair n x).lacc = w.lacc := rfl
@[simp] theorem Wave.setSpair_laccFlags (w : Wave) (n : Nat) (x : DWord) : (w.setSpair n x).laccFlags = w.laccFlags := rfl
@[simp] theorem Wave.setSpair_query (w : Wave) (n : Nat) (x : DWord) : (w.setSpair n x).query = w.query := rfl
@[simp] theorem Wave.setSpair_rep (w : Wave) (n : Nat) (x : DWord) : (w.setSpair n x).rep = w.rep := rfl
@[simp] theorem Wave.setSpair_pblk (w : Wave) (n : Nat) (x : DWord) : (w.setSpair n x).pblk = w.pblk := rfl
@[simp] theorem Wave.setSpair_resume (w : Wave) (n : Nat) (x : DWord) : (w.setSpair n x).resume = w.resume := rfl
@[simp] theorem Wave.setSpair_recovery (w : Wave) (n : Nat) (x : DWord) : (w.setSpair n x).recovery = w.recovery := rfl
@[simp] theorem Wave.setSpair_hold (w : Wave) (n : Nat) (x : DWord) : (w.setSpair n x).hold = w.hold := rfl
@[simp] theorem Wave.setSpair_held (w : Wave) (n : Nat) (x : DWord) : (w.setSpair n x).held = w.held := rfl
@[simp] theorem Wave.setSpair_dropped (w : Wave) (n : Nat) (x : DWord) : (w.setSpair n x).dropped = w.dropped := rfl
@[simp] theorem Wave.setSpair_trap (w : Wave) (n : Nat) (x : DWord) : (w.setSpair n x).trap = w.trap := rfl
@[simp] theorem Wave.setSpair_reports (w : Wave) (n : Nat) (x : DWord) : (w.setSpair n x).reports = w.reports := rfl
@[simp] theorem Wave.setSpair_lost (w : Wave) (n : Nat) (x : DWord) : (w.setSpair n x).lost = w.lost := rfl
@[simp] theorem Wave.setSpair_pend (w : Wave) (n : Nat) (x : DWord) : (w.setSpair n x).pend = w.pend := rfl
@[simp] theorem Wave.setSpair_outst (w : Wave) (n : Nat) (x : DWord) : (w.setSpair n x).outst = w.outst := rfl
@[simp] theorem Wave.setSpair_batch (w : Wave) (n : Nat) (x : DWord) : (w.setSpair n x).batch = w.batch := rfl
@[simp] theorem Wave.setSpair_lastIssue (w : Wave) (n : Nat) (x : DWord) : (w.setSpair n x).lastIssue = w.lastIssue := rfl
@[simp] theorem Wave.setSpair_notBefore (w : Wave) (n : Nat) (x : DWord) : (w.setSpair n x).notBefore = w.notBefore := rfl
@[simp] theorem Wave.setSpair_age (w : Wave) (n : Nat) (x : DWord) : (w.setSpair n x).age = w.age := rfl
@[simp] theorem Wave.setSpair_waited (w : Wave) (n : Nat) (x : DWord) : (w.setSpair n x).waited = w.waited := rfl
@[simp] theorem Wave.setSpair_promoted (w : Wave) (n : Nat) (x : DWord) : (w.setSpair n x).promoted = w.promoted := rfl
@[simp] theorem Wave.setSpair_requested (w : Wave) (n : Nat) (x : DWord) : (w.setSpair n x).requested = w.requested := rfl
@[simp] theorem Wave.setSpair_granted (w : Wave) (n : Nat) (x : DWord) : (w.setSpair n x).granted = w.granted := rfl
@[simp] theorem Wave.setSpair_arrived (w : Wave) (n : Nat) (x : DWord) : (w.setSpair n x).arrived = w.arrived := rfl
@[simp] theorem Wave.setSpair_arrOrd (w : Wave) (n : Nat) (x : DWord) : (w.setSpair n x).arrOrd = w.arrOrd := rfl
@[simp] theorem Wave.setSpair_uid (w : Wave) (n : Nat) (x : DWord) : (w.setSpair n x).uid = w.uid := rfl
@[simp] theorem Wave.setSpair_hb (w : Wave) (n : Nat) (x : DWord) : (w.setSpair n x).hb = w.hb := rfl
@[simp] theorem Wave.setSpair_hbRel (w : Wave) (n : Nat) (x : DWord) : (w.setSpair n x).hbRel = w.hbRel := rfl
@[simp] theorem Wave.setSpair_hbAcq (w : Wave) (n : Nat) (x : DWord) : (w.setSpair n x).hbAcq = w.hbAcq := rfl
@[simp] theorem Wave.setSpair_eng (w : Wave) (n : Nat) (x : DWord) : (w.setSpair n x).eng = w.eng := rfl
@[simp] theorem Wave.setSpair_unwaited (w : Wave) (n : Nat) (x : DWord) : (w.setSpair n x).unwaited = w.unwaited := rfl

/-! ### Landing results -/

/-- What a write of a mask register leaves of the others. -/
theorem Wave.setMask_s (w : Wave) (n : Nat) (sel val : Lanes) : (w.setMask n sel val).s = w.s := by
  unfold Wave.setMask; split <;> rfl

theorem Wave.setMask_v (w : Wave) (n : Nat) (sel val : Lanes) : (w.setMask n sel val).v = w.v := by
  unfold Wave.setMask; split <;> rfl

theorem Wave.setMask_em (w : Wave) (n : Nat) (sel val : Lanes) (h : n ≠ 0) : (w.setMask n sel val).em = w.em := by
  unfold Wave.setMask; rw [if_neg h]

theorem Wave.setMask_m (w : Wave) (sel val : Lanes) : (w.setMask 0 sel val).m = w.m := rfl

/-- A result that lands in a wave changes neither its place, nor where it stands, nor what it has outstanding. -/
theorem landWave_place (w : Wave) (x : WaveWrite) :
    (landWave w x).core = w.core ∧ (landWave w x).slot = w.slot ∧ (landWave w x).pc = w.pc ∧ (landWave w x).live = w.live ∧
      (landWave w x).k = w.k ∧ (landWave w x).outst = w.outst ∧ (landWave w x).pend = w.pend ∧ (landWave w x).hold = w.hold := by
  cases x <;> try exact ⟨rfl, rfl, rfl, rfl, rfl, rfl, rfl, rfl⟩
  · simp only [landWave, Wave.setMask]; split <;> exact ⟨rfl, rfl, rfl, rfl, rfl, rfl, rfl, rfl⟩
  · simp only [landWave, Wave.setSpecial]; split <;> exact ⟨rfl, rfl, rfl, rfl, rfl, rfl, rfl, rfl⟩

/-- A result that lands changes no byte of storage. -/
@[simp] theorem landGroup_mem (s : State) (c g : Nat) (x : WaveWrite) : (landGroup s c g x).mem = s.mem := by
  cases x <;> rfl

@[simp] theorem landOne_mem (s : State) (x : WaveWrite) : (landOne s x).mem = s.mem := by
  cases x <;> simp [landOne]

@[simp] theorem landAll_mem (xs : List WaveWrite) (s : State) : (landAll s xs).mem = s.mem := by
  induction xs generalizing s with
  | nil => rfl
  | cons x xs ih => exact (ih (landOne s x)).trans (landOne_mem s x)

@[simp] theorem landDue_mem (s : State) : (landDue s).mem = s.mem := by simp [landDue]

@[simp] theorem landEvery_mem (s : State) : (landEvery s).mem = s.mem := by simp [landEvery]

/-- With nothing in flight nothing lands. -/
theorem landDue_nil (s : State) (h : s.wave.pend = []) : landDue s = s := by
  simp [landDue, landAll, h]; rw [← h]

/-! ### The wave in focus -/

theorem Wave.at_self (w : Wave) : w.at_ w.core w.slot = true := by simp [Wave.at_]

theorem State.focus_self (s : State) : s.focus s.wave.core s.wave.slot = s := by simp [State.focus, Wave.at_self]

theorem State.findWave_self (s : State) : s.findWave s.wave.core s.wave.slot = some s.wave := by
  simp [State.findWave, Wave.at_self]

@[simp] theorem State.mapWave_mem (s : State) (c sl : Nat) (f : Wave → Wave) : (s.mapWave c sl f).mem = s.mem := by
  unfold State.mapWave; split <;> rfl

@[simp] theorem State.focus_mem (s : State) (c sl : Nat) : (s.focus c sl).mem = s.mem := by
  unfold State.focus
  split
  · rfl
  · split <;> rfl

@[simp] theorem State.report_mem (s : State) (c sl : Nat) (r : Report) : (s.report c sl r).mem = s.mem := by
  unfold State.report
  split
  · rfl
  · split
    · rfl
    · split <;> simp

end Sys2Proof.Machine
end

