-- ==== Sys2Proof/Laws/Issue.lean ====
section
/-! SUPPORT. What running an instruction can come to (R83, R92, R80, R111): a failed check, a full counter, no active lane,
or the instruction's own effect. -/

namespace Sys2Proof.Machine

/-- A held instruction that has issued goes on with what it read (R89). -/
theorem run_held {i : Instr} {s : State} {h : Held} (hh : s.wave.held = some h) (eff : State → Act) :
    run i s eff = settleHeld s h i (eff { s with wave := s.wave.asHeld h }) := by
  unfold run; rw [hh]

/-- An instruction that fails a check raises that trap and nothing else (R83). -/
theorem run_checked {i : Instr} {s : State} {code detail : Nat} (hh : s.wave.held = none) (h : s.check i = some (code, detail))
    (eff : State → Act) :
    run i s eff = s.faultAt code (detail + 256 * (s.wave.insAddr - s.wave.pc).toNat) s.wave.insAddr := by
  unfold run; rw [hh]; dsimp only; rw [h]

/-- Under a PBLK with no active lane it only retires (R80). -/
theorem run_noLane {i : Instr} {s : State} (hh : s.wave.held = none) (h : s.check i = none) (hp : s.wave.pblk.isSome = true)
    (ha : s.wave.act = 0) (eff : State → Act) : run i s eff = settle s (insLen i) (.wave s.wave) := by
  unfold run; rw [hh]; dsimp only; rw [h]; simp [hp, ha]

/-- No PBLK with no active lane stands over the wave. -/
theorem lanes_free {w : Wave} (hp : w.pblk.isSome = true → w.act ≠ 0) : (w.pblk.isSome && w.act == 0) = false := by
  by_cases hs : w.pblk.isSome = true
  · simpa [hs] using hp hs
  · simp [hs]

/-- With a counter that it raises, or that its implicit commit raises, at 63 it stays where it is (R92). -/
theorem run_full {i : Instr} {s : State} (hh : s.wave.held = none) (h : s.check i = none)
    (hp : s.wave.pblk.isSome = true → s.wave.act ≠ 0)
    (hk : (s.wave.countersFull (classOf (insOp i)) (insCf i) || s.wave.commitFull i) = true) (eff : State → Act) :
    run i s eff = s := by
  unfold run; rw [hh]; dsimp only; rw [h]; dsimp only; rw [lanes_free hp, hk]; rfl

/-- A poisoned register that it reads is ECC_UNCORRECTABLE (R253). -/
theorem run_bad {i : Instr} {s : State} {j : Nat} (hh : s.wave.held = none) (h : s.check i = none)
    (hp : s.wave.pblk.isSome = true → s.wave.act ≠ 0)
    (hk : (s.wave.countersFull (classOf (insOp i)) (insCf i) || s.wave.commitFull i) = false) (hb : s.wave.badRead i = some j)
    (eff : State → Act) : run i s eff = s.faultAt 0x11 0 (BitVec.ofNat 64 (regPa s.wave.core s.wave.slot j)) := by
  unfold run; rw [hh]; dsimp only; rw [h]; dsimp only; rw [lanes_free hp, hk]; simp [hb]

/-- Otherwise it has its effect. -/
theorem run_ready {i : Instr} {s : State} (hh : s.wave.held = none) (h : s.check i = none)
    (hp : s.wave.pblk.isSome = true → s.wave.act ≠ 0)
    (hk : (s.wave.countersFull (classOf (insOp i)) (insCf i) || s.wave.commitFull i) = false) (hb : s.wave.badRead i = none)
    (eff : State → Act) : run i s eff = settleNew s i (eff s) := by
  unfold run; rw [hh]; dsimp only; rw [h]; dsimp only; rw [lanes_free hp, hk]; simp [hb]

/-- With no poisoned word in its registers a wave reads none (R253). -/
theorem badRead_sound {w : Wave} (h : w.vbad = []) (i : Instr) : w.badRead i = none := by
  unfold Wave.badRead; simp [h]

/-- Registers without a poisoned word are read as they stand (R253). -/
theorem reading_sound {w : Wave} (h : w.vbad = []) (l : List Nat) (a : Act) : w.reading l a = a := by
  unfold Wave.reading Wave.badAmong; simp [h]

/-- The six things that running an instruction can come to. -/
theorem run_cases (i : Instr) (s : State) (eff : State → Act) :
    (∃ h, s.wave.held = some h ∧ run i s eff = settleHeld s h i (eff { s with wave := s.wave.asHeld h })) ∨
    s.wave.held = none ∧
      ((∃ c d, s.check i = some (c, d) ∧
        run i s eff = s.faultAt c (d + 256 * (s.wave.insAddr - s.wave.pc).toNat) s.wave.insAddr) ∨
      (s.check i = none ∧ s.wave.pblk.isSome = true ∧ s.wave.act = 0 ∧ run i s eff = settle s (insLen i) (.wave s.wave)) ∨
      (s.check i = none ∧ (s.wave.countersFull (classOf (insOp i)) (insCf i) || s.wave.commitFull i) = true ∧ run i s eff = s) ∨
      (∃ j, s.check i = none ∧ s.wave.badRead i = some j ∧
        run i s eff = s.faultAt 0x11 0 (BitVec.ofNat 64 (regPa s.wave.core s.wave.slot j))) ∨
      (s.check i = none ∧ (s.wave.pblk.isSome = true → s.wave.act ≠ 0) ∧
        (s.wave.countersFull (classOf (insOp i)) (insCf i) || s.wave.commitFull i) = false ∧ s.wave.badRead i = none ∧
        run i s eff = settleNew s i (eff s))) := by
  rcases hh : s.wave.held with _ | h
  · refine .inr ⟨rfl, ?_⟩
    rcases hc : s.check i with _ | ⟨c, d⟩
    · by_cases hp : s.wave.pblk.isSome = true ∧ s.wave.act = 0
      · exact .inr (.inl ⟨rfl, hp.1, hp.2, run_noLane hh hc hp.1 hp.2 eff⟩)
      · have hp' : s.wave.pblk.isSome = true → s.wave.act ≠ 0 := fun h e => hp ⟨h, e⟩
        cases hk : (s.wave.countersFull (classOf (insOp i)) (insCf i) || s.wave.commitFull i)
        · rcases hb : s.wave.badRead i with _ | j
          · exact .inr (.inr (.inr (.inr ⟨rfl, hp', rfl, rfl, run_ready hh hc hp' hk hb eff⟩)))
          · exact .inr (.inr (.inr (.inl ⟨j, rfl, rfl, run_bad hh hc hp' hk hb eff⟩)))
        · exact .inr (.inr (.inl ⟨rfl, rfl, run_full hh hc hp' hk eff⟩))
    · exact .inl ⟨c, d, rfl, run_checked hh hc eff⟩
  · exact .inl ⟨h, rfl, run_held hh eff⟩

/-- An instruction of the scalar path posts its results for 2 clocks later (R88). -/
theorem runScalar_ready {i : Instr} {s : State} (hh : s.wave.held = none) (h : s.check i = none)
    (hp : s.wave.pblk.isSome = true → s.wave.act ≠ 0)
    (hk : (s.wave.countersFull (classOf (insOp i)) (insCf i) || s.wave.commitFull i) = false) (hb : s.wave.badRead i = none)
    (f : Wave → List WaveWrite) :
    runScalar i s f = { s with wave := (s.wave.postIn s.clock 2 (f s.wave)).advance (insLen i) s.clock } :=
  run_ready hh h hp hk hb _

/-- One of the vector class for 4 or 5 clocks later (R88). -/
theorem runVector_ready {i : Instr} {s : State} (hh : s.wave.held = none) (h : s.check i = none)
    (hp : s.wave.pblk.isSome = true → s.wave.act ≠ 0)
    (hk : (s.wave.countersFull (classOf (insOp i)) (insCf i) || s.wave.commitFull i) = false) (hb : s.wave.badRead i = none)
    (f : Wave → List WaveWrite) :
    runVector i s f = { s with wave := (s.wave.postIn s.clock s.wave.vlat (f s.wave)).advance (insLen i) s.clock } :=
  run_ready hh h hp hk hb _

/-! ### Settling -/

@[simp] theorem settle_wave (s : State) (len : Nat) (w : Wave) :
    settle s len (.wave w) = { s with wave := w.advance len s.clock } := rfl

@[simp] theorem settle_state (s t : State) (len : Nat) :
    settle s len (.state t) = { t with wave := t.wave.advance len s.clock } := rfl

@[simp] theorem settle_stay (s t : State) (len : Nat) : settle s len (.stay t) = t := rfl

@[simp] theorem settle_trap (s : State) (len code detail : Nat) (addr : DWord) :
    settle s len (.trap code detail addr) = s.faultAt code detail addr := rfl

/-- A control transfer: the three things it can come to (R111). -/
theorem transfer_cases (w v : Wave) (target : DWord) :
    (target.getLsbD 0 = true ∧ w.transfer target v = .trap 5 0 target) ∨
    (target.getLsbD 0 = false ∧ 2 ^ 52 ≤ target.toNat ∧ w.transfer target v = .trap 8 4 target) ∨
    (target.getLsbD 0 = false ∧ target.toNat < 2 ^ 52 ∧ w.transfer target v = .jump v target) := by
  unfold Wave.transfer
  cases h : target.getLsbD 0
  · by_cases h2 : target.toNat < 2 ^ 52
    · exact .inr (.inr ⟨rfl, h2, by rw [Nat.div_eq_of_lt h2]; rfl⟩)
    · have h3 : target.toNat / 2 ^ 52 ≠ 0 := by
        intro e
        have := (Nat.div_eq_zero_iff).mp e
        omega
      exact .inr (.inl ⟨rfl, by omega, by
        simp only [Bool.false_eq_true, if_false, bne_iff_ne, ne_eq, h3, not_false_eq_true, if_true]⟩)
  · exact .inl ⟨rfl, by simp⟩

end Sys2Proof.Machine
end

