-- ==== Sys2Proof/Laws/Memory.lean ====
section
/-! SUPPORT. What the operations on memory can do to storage: each leaves it as it is or writes a run of bytes, and
each keeps its canonical form; reading back a byte. -/

namespace Sys2Proof.Machine

theorem Memory.wf_csetList {m : List Host.Cell} (h : Memory.wf m = true) (key : Nat) (bs : List Byte) :
    Memory.wf (csetList m key bs) = true := cellsWf_csetList bs key h

theorem Memory.wf_filter {m : List Host.Cell} (h : Memory.wf m = true) (p : Host.Cell → Bool) :
    Memory.wf (m.filter p) = true := cellsWf_filter p h

/-- The memory at reset is in its canonical form. -/
theorem State.reset_memory_wf : Memory.wf State.reset.mem = true := rfl

/-- A byte read back after a write of bytes to storage. -/
theorem Memory.read_write {m : List Host.Cell} (h : Memory.wf m = true) (key a : Nat) (bs : List Byte) :
    cget (csetList m key bs) a = if key ≤ a ∧ a < key + bs.length then bs.getD (a - key) 0 else cget m a :=
  cget_csetList bs key a h

/-! ### Operations that change no byte of storage -/

@[simp] theorem State.clean_mem (s : State) (key n : Nat) : (s.clean key n).mem = s.mem := rfl

@[simp] theorem State.markRec_mem (s : State) (pa : Nat) (wr : Bool) : (s.markRec pa wr).mem = s.mem := rfl

@[simp] theorem State.claimRec_mem (s : State) (pa : Nat) (t : TransReg) : (s.claimRec pa t).mem = s.mem := by
  unfold State.claimRec
  dsimp only
  split <;> rfl

@[simp] theorem State.askHost_mem (s : State) (line : Nat) : (s.askHost line).mem = s.mem := by
  unfold State.askHost
  split <;> rfl

@[simp] theorem State.setDir_mem (s : State) (line : Nat) (d : DirEntry) : (s.setDir line d).mem = s.mem := rfl

@[simp] theorem State.setCopy_mem (s : State) (die line : Nat) (x : LineState) (bs : List Byte) :
    (s.setCopy die line x bs).mem = s.mem := rfl

@[simp] theorem State.turnCopy_mem (s : State) (die line : Nat) (x : LineState) : (s.turnCopy die line x).mem = s.mem := rfl

@[simp] theorem State.carryLease_mem (s : State) (home die line : Nat) : (s.carryLease home die line).mem = s.mem := by
  unfold State.carryLease
  extract_lets e
  split <;> rfl

@[simp] theorem State.noteShare_mem (s : State) (pa : Nat) (only : Bool) : (s.noteShare pa only).mem = s.mem := by
  unfold State.noteShare
  extract_lets f
  split <;> rfl

@[simp] theorem State.spadPut_mem (s : State) (c at_ : Nat) (bs : List Byte) : (s.spadPut c at_ bs).mem = s.mem := rfl

theorem State.foldl_mem {α : Type} (f : State → α → State) (h : ∀ s a, (f s a).mem = s.mem) :
    ∀ (l : List α) (s : State), (l.foldl f s).mem = s.mem
  | [], _ => rfl
  | a :: l, s => (State.foldl_mem f h l (f s a)).trans (h s a)

@[simp] theorem State.spadWrite_mem (s : State) (c g off : Nat) (bs : List Byte) : (s.spadWrite c g off bs).mem = s.mem := by
  unfold State.spadWrite
  extract_lets base
  split
  · apply State.foldl_mem
    intro s i
    split
    · rfl
    · exact State.spadPut_mem ..
  · exact State.spadPut_mem ..

@[simp] theorem State.putObj_mem (s : State) (c : Nat) (o : BarrierObj) : (s.putObj c o).mem = s.mem := rfl

@[simp] theorem State.chipWrite_mem (s : State) (pa : Nat) (bs : List Byte) : (s.chipWrite pa bs).mem = s.mem := by
  rcases h : chipPlace pa with ⟨c, sl, f⟩ | ⟨c, o⟩ | ⟨c, o⟩ | ⟨c, o⟩ | ⟨c, o⟩ | ⟨d, g, o⟩ | _ <;>
    simp only [State.chipWrite, h, State.mapWave_mem, State.spadPut_mem, State.setCore_mem, State.setDie_mem]

@[simp] theorem State.grantLease_mem (s : State) (core : Nat) (t : TransReg) (o : Nat) : (s.grantLease core t o).mem = s.mem := by
  unfold State.grantLease
  split
  · rfl
  · split
    · rfl
    · extract_lets line home c clocks k
      split
      · rfl
      · split
        · rfl
        · split <;> rfl

@[simp] theorem State.askHalves_mem (s : State) (hs : List Nat) (wr : Bool) : (s.askHalves hs wr).mem = s.mem :=
  State.foldl_mem (fun (s : State) h =>
    let x := s.halfAt h
    { s with bridge := tset s.bridge h { x with req := some (wr || x.req == some true) } }) (fun _ _ => rfl) hs s

/-! ### Operations that write storage -/

@[simp] theorem State.putMem_mem (s : State) (key : Nat) (bs : List Byte) : (s.putMem key bs).mem = csetList s.mem key bs := by
  simp [State.putMem]

theorem State.putMem_wf {s : State} (h : Memory.wf s.mem = true) (key : Nat) (bs : List Byte) :
    Memory.wf (s.putMem key bs).mem = true := by
  rw [State.putMem_mem]; exact Memory.wf_csetList h key bs

theorem State.hostPut_mem (s : State) (pa : Nat) (bs : List Byte) : (s.hostPut pa bs).mem = csetList s.mem pa bs := by
  unfold State.hostPut
  rw [State.foldl_mem _ (fun t h => by dsimp only; split <;> rfl), State.putMem_mem]

/-- A line called back from the other dies: storage keeps its canonical form. -/
theorem State.callBack_wf {s : State} (h : Memory.wf s.mem = true) (line : Nat) : Memory.wf (s.callBack line).mem = true := by
  unfold State.callBack
  split
  · exact h
  · dsimp only
    rw [State.setDir_mem]
    split
    · exact Memory.wf_csetList h _ _
    · exact h

/-- A write into a die's copy, or into storage, keeps the canonical form. -/
theorem State.putLine_wf {s : State} (h : Memory.wf s.mem = true) (who : Option Nat) (key : Nat) (bs : List Byte) :
    Memory.wf (s.putLine who key bs).mem = true := by
  unfold State.putLine
  split
  · exact State.putMem_wf h key bs
  · exact h

/-- A write to a replicated page keeps the canonical form. -/
theorem State.replicate_wf {s : State} (h : Memory.wf s.mem = true) (owner : Option Nat) (t : TransReg) (key : Nat) (bs : List Byte) :
    Memory.wf (s.replicate owner t key bs).mem = true := by
  unfold State.replicate
  extract_lets others
  split
  · exact State.putMem_wf h key bs
  · exact h

/-- Does a result, whichever it is, hold a state whose storage is in canonical form? -/
def Result.Wf {α : Type} (f : α → State) : Except State α → Prop
  | .error t => Memory.wf t.mem = true
  | .ok a => Memory.wf (f a).mem = true

/-- Room made in the snoop filter keeps the canonical form. -/
theorem State.makeRoom_wf {s : State} (h : Memory.wf s.mem = true) (line pa home : Nat) : Result.Wf id (s.makeRoom line pa home) := by
  unfold State.makeRoom
  split
  · exact h
  · extract_lets set lru
    clear_value lru
    split
    · exact h
    · split
      · exact h
      · split
        · exact (congrArg _ (State.askHost_mem s _)).trans h
        · split
          · exact h
          · exact State.callBack_wf h _

/-- A line made ready for a load keeps the canonical form. -/
theorem State.readLine_wf {s : State} (h : Memory.wf s.mem = true) (r line pa home : Nat) (only : Bool) :
    Result.Wf id (s.readLine r line pa home only) := by
  unfold State.readLine
  split
  · exact h
  · split
    · exact h
    · have hm := State.makeRoom_wf h line pa home
      split
      · rename_i t e
        rw [e] at hm
        exact hm
      · rename_i t e
        rw [e] at hm
        have ht : Memory.wf t.mem = true := hm
        extract_lets owned u d bs share
        split
        · exact ht
        · have hu : Memory.wf u.mem = true := by
            show Memory.wf (if only && owned then t.callBack line else t).mem = true
            split
            · exact State.callBack_wf ht line
            · exact ht
          show Memory.wf (State.mem _) = true
          simp only [id]
          split
          · split
            · exact hu
            · simpa using hu
          · exact hu
          · split <;> exact hu
          · exact hu

/-- A line made ready for a write keeps the canonical form. -/
theorem State.ownLine_wf {s : State} (h : Memory.wf s.mem = true) (r line pa home : Nat) (only : Bool) :
    Result.Wf Prod.fst (s.ownLine r line pa home only) := by
  unfold State.ownLine
  split
  · exact h
  · split
    · exact h
    · split
      · exact State.callBack_wf h line
      · split
        · exact h
        · have hm := State.makeRoom_wf h line pa home
          split
          · rename_i t e
            rw [e] at hm
            exact hm
          · rename_i t e
            rw [e] at hm
            exact hm

/-- What an access may leave: storage in its canonical form. -/
def Got.Wf : Got → Prop
  | .ok t _ _ => Memory.wf t.mem = true
  | .wait t => Memory.wf t.mem = true
  | _ => True

theorem State.lineAccess_wf {s : State} (h : Memory.wf s.mem = true) (core : Nat) (t : TransReg) (o n : Nat) (wr : Bool)
    (f : List Byte → List Byte) (key : Nat) : (s.lineAccess core t o n wr f key).Wf := by
  unfold State.lineAccess
  extract_lets pa r home only u pb
  have hu : Memory.wf u.mem = true := (congrArg _ (State.noteShare_mem s pa only)).trans h
  split
  · have hw := State.ownLine_wf hu r (key / 128) pb home only
    split
    · rename_i e
      rw [e] at hw
      exact hw
    · rename_i v who e
      rw [e] at hw
      exact State.putLine_wf (s := { v with waitWrites := sdel v.waitWrites (key / 128) }) hw who key _
  · have hw := State.readLine_wf hu r (key / 128) pb home only
    split
    · rename_i e
      rw [e] at hw
      exact hw
    · rename_i v e
      rw [e] at hw
      exact hw

theorem State.frameAccess_wf {s : State} (h : Memory.wf s.mem = true) (core : Nat) (t : TransReg) (o n : Nat) (wr : Bool)
    (f : List Byte → List Byte) : (s.frameAccess core t o n wr f).Wf := by
  unfold State.frameAccess
  extract_lets pa r d
  split
  · split
    · trivial
    · exact h
  · split
    · trivial
    · split
      · trivial
      · split
        · exact h
        · extract_lets key line ask u old bad
          have hu : Memory.wf u.mem = true := by
            show Memory.wf (State.markRec (s.claimRec pa t) _ wr).mem = true
            rw [State.markRec_mem, State.claimRec_mem]; exact h
          split
          · exact h
          · split
            · exact (congrArg _ (State.askHost_mem s line)).trans h
            · split
              · exact h
              · split
                · split
                  · split
                    · trivial
                    · exact hu
                  · exact hu
                · split
                  · split
                    · exact State.replicate_wf (s := { u with waitWrites := sdel u.waitWrites line }) hu _ t key (f old)
                    · exact hu
                  · have hl := State.lineAccess_wf hu core t o n wr f key
                    split
                    · exact h
                    · exact hl

theorem State.hostPerform_wf {s : State} (h : Memory.wf s.mem = true) (pa n : Nat) (wr atomic : Bool) (f : List Byte → List Byte) :
    (s.hostPerform pa n wr atomic f).Wf := by
  unfold State.hostPerform
  extract_lets old done l
  have hd : done.Wf := by
    cases wr
    · exact h
    · exact (congrArg _ (State.hostPut_mem s pa (f old))).trans (Memory.wf_csetList h pa (f old))
  split
  · exact hd
  · split
    · split
      · exact hd
      · exact (congrArg _ (State.askHalves_mem s l wr)).trans h
    · exact hd

/-- WHAT ONE ACCESS LEAVES: storage in its canonical form. -/
theorem State.access_wf {s : State} (h : Memory.wf s.mem = true) (core : Nat) (t : TransReg) (o n : Nat) (wr atomic : Bool)
    (f : List Byte → List Byte) : (s.access core t o n wr atomic f).Wf := by
  unfold State.access
  extract_lets pa old bad
  have hw (bs : List Byte) : Memory.wf ((s.chipWrite pa bs).clean pa n).mem = true :=
    (congrArg _ ((State.clean_mem ..).trans (State.chipWrite_mem ..))).trans h
  generalize inChip pa = chip
  generalize s.chipBad pa n = broken
  generalize chipPlace pa = place
  split
  · exact h
  · split
    · exact State.hostPerform_wf h ..
    · split
      · split
        · trivial
        · split
          · cases place <;> dsimp only
            case spad =>
              split
              · trivial
              · exact (congrArg _ (State.askHost_mem s _)).trans h
              · exact hw _
            case geode => split <;> first | trivial | exact hw _
            all_goals exact hw _
          · exact h
      · exact State.frameAccess_wf h ..

theorem Got.Wf.wf {g : Got} (hg : g.Wf) {t : State} :
    (∀ bs p, g = .ok t bs p → Memory.wf t.mem = true) ∧ (g = .wait t → Memory.wf t.mem = true) :=
  ⟨fun bs p e => by subst e; exact hg, fun e => by subst e; exact hg⟩

/-! ### Writes by physical address -/

theorem State.devPut_wf {s : State} (h : Memory.wf s.mem = true) (pa : Nat) (bs : List Byte) : Memory.wf (s.devPut pa bs).mem = true := by
  unfold State.devPut
  split
  · exact h
  · split
    · exact (congrArg _ (State.hostPut_mem s pa bs)).trans (Memory.wf_csetList h pa bs)
    · dsimp only
      have hm (p : Nat) : Memory.wf (s.markRec p true).mem = true := h
      split
      · exact h
      · split
        · exact State.replicate_wf (hm _) ..
        · split
          · exact State.putLine_wf (hm _) ..
          · exact State.putMem_wf (State.callBack_wf (hm _) _) ..

@[simp] theorem State.wantFor_mem (s : State) (host : Bool) (pa n : Nat) : (s.wantFor host pa n).mem = s.mem := by
  unfold State.wantFor
  extract_lets line u
  show u.mem = s.mem
  show (if inHost pa then s.askHalves (s.lacking pa n true) true
    else if !host && s.hostHolds line then s.askHost line else s).mem = s.mem
  split
  · exact State.askHalves_mem ..
  · split
    · exact State.askHost_mem ..
    · rfl

theorem State.putOrWait_wf {s : State} (h : Memory.wf s.mem = true) (host : Bool) (pa : Nat) (bs : List Byte) :
    Memory.wf (s.putOrWait host pa bs).mem = true := by
  unfold State.putOrWait
  split
  · exact (congrArg _ (State.wantFor_mem s host pa bs.length)).trans h
  · exact State.devPut_wf h pa bs

theorem State.physWriteGo_wf (host : Bool) (fuel : Nat) : ∀ {s : State} (pa : Nat) (bs : List Byte), Memory.wf s.mem = true →
    Memory.wf (s.physWriteGo host pa bs fuel).mem = true := by
  induction fuel with
  | zero => intro s pa bs h; exact h
  | succ fuel ih =>
    intro s pa bs h
    unfold State.physWriteGo
    split
    · exact h
    · exact ih _ _ (State.putOrWait_wf h _ _ _)

theorem State.foldl_wf {α : Type} (f : State → α → State) (hf : ∀ s a, Memory.wf s.mem = true → Memory.wf (f s a).mem = true) :
    ∀ (l : List α) {s : State}, Memory.wf s.mem = true → Memory.wf (l.foldl f s).mem = true
  | [], _, h => h
  | a :: l, _, h => State.foldl_wf f hf l (hf _ a h)

/-- The writes that wait on a line keep the canonical form as they are performed. -/
theorem State.devRelease_wf {s : State} (h : Memory.wf s.mem = true) (line : Nat) : Memory.wf (s.devRelease line).mem = true :=
  State.foldl_wf _ (fun _ w h => State.putOrWait_wf h w.host w.pa w.bytes) _ h

/-- A write by physical address keeps the canonical form. -/
theorem State.physWrite_wf {s : State} (h : Memory.wf s.mem = true) (pa : Nat) (bs : List Byte) :
    Memory.wf (s.physWrite pa bs).mem = true := State.physWriteGo_wf _ _ pa bs h

end Sys2Proof.Machine
end

