-- ==== Sys2Proof/Laws/PerInstr.lean ====
section
/-! SUPPORT. Statements made for each constructor of Instr: the bytes of an instruction are as many as its form has
(R67), and a step of another agent has none. -/

namespace Sys2Proof

/-- The encoding of `i` has the length of its form. -/
def Laws.EncodedLength.Statement (i : Instr) : Prop := (encode i).length = Machine.insLen i

theorem Laws.EncodedLength.nopK32 (f : K32) : Laws.EncodedLength.Statement (.nopK32 f) := rfl
theorem Laws.EncodedLength.nopL64 (f : L64) : Laws.EncodedLength.Statement (.nopL64 f) := rfl
theorem Laws.EncodedLength.smov (f : G64) : Laws.EncodedLength.Statement (.smov f) := rfl
theorem Laws.EncodedLength.smoviK32 (f : K32) : Laws.EncodedLength.Statement (.smoviK32 f) := rfl
theorem Laws.EncodedLength.smoviL64 (f : L64) : Laws.EncodedLength.Statement (.smoviL64 f) := rfl
theorem Laws.EncodedLength.saddK32 (f : K32) : Laws.EncodedLength.Statement (.saddK32 f) := rfl
theorem Laws.EncodedLength.saddG64 (f : G64) : Laws.EncodedLength.Statement (.saddG64 f) := rfl
theorem Laws.EncodedLength.ssubK32 (f : K32) : Laws.EncodedLength.Statement (.ssubK32 f) := rfl
theorem Laws.EncodedLength.ssubG64 (f : G64) : Laws.EncodedLength.Statement (.ssubG64 f) := rfl
theorem Laws.EncodedLength.smulK32 (f : K32) : Laws.EncodedLength.Statement (.smulK32 f) := rfl
theorem Laws.EncodedLength.smulG64 (f : G64) : Laws.EncodedLength.Statement (.smulG64 f) := rfl
theorem Laws.EncodedLength.smulh (f : G64) : Laws.EncodedLength.Statement (.smulh f) := rfl
theorem Laws.EncodedLength.sandK32 (f : K32) : Laws.EncodedLength.Statement (.sandK32 f) := rfl
theorem Laws.EncodedLength.sandG64 (f : G64) : Laws.EncodedLength.Statement (.sandG64 f) := rfl
theorem Laws.EncodedLength.sorK32 (f : K32) : Laws.EncodedLength.Statement (.sorK32 f) := rfl
theorem Laws.EncodedLength.sorG64 (f : G64) : Laws.EncodedLength.Statement (.sorG64 f) := rfl
theorem Laws.EncodedLength.sxorK32 (f : K32) : Laws.EncodedLength.Statement (.sxorK32 f) := rfl
theorem Laws.EncodedLength.sxorG64 (f : G64) : Laws.EncodedLength.Statement (.sxorG64 f) := rfl
theorem Laws.EncodedLength.sshlK32 (f : K32) : Laws.EncodedLength.Statement (.sshlK32 f) := rfl
theorem Laws.EncodedLength.sshlG64 (f : G64) : Laws.EncodedLength.Statement (.sshlG64 f) := rfl
theorem Laws.EncodedLength.sshrK32 (f : K32) : Laws.EncodedLength.Statement (.sshrK32 f) := rfl
theorem Laws.EncodedLength.sshrG64 (f : G64) : Laws.EncodedLength.Statement (.sshrG64 f) := rfl
theorem Laws.EncodedLength.scmpK32 (f : K32) : Laws.EncodedLength.Statement (.scmpK32 f) := rfl
theorem Laws.EncodedLength.scmpL64 (f : L64) : Laws.EncodedLength.Statement (.scmpL64 f) := rfl
theorem Laws.EncodedLength.ssel (f : G64) : Laws.EncodedLength.Statement (.ssel f) := rfl
theorem Laws.EncodedLength.sminmax (f : G64) : Laws.EncodedLength.Statement (.sminmax f) := rfl
theorem Laws.EncodedLength.sbfx (f : G64) : Laws.EncodedLength.Statement (.sbfx f) := rfl
theorem Laws.EncodedLength.braB32 (f : B32) : Laws.EncodedLength.Statement (.braB32 f) := rfl
theorem Laws.EncodedLength.braL64 (f : L64) : Laws.EncodedLength.Statement (.braL64 f) := rfl
theorem Laws.EncodedLength.brcB32 (f : B32) : Laws.EncodedLength.Statement (.brcB32 f) := rfl
theorem Laws.EncodedLength.brcL64 (f : L64) : Laws.EncodedLength.Statement (.brcL64 f) := rfl
theorem Laws.EncodedLength.brmB32 (f : B32) : Laws.EncodedLength.Statement (.brmB32 f) := rfl
theorem Laws.EncodedLength.brmL64 (f : L64) : Laws.EncodedLength.Statement (.brmL64 f) := rfl
theorem Laws.EncodedLength.callB32 (f : B32) : Laws.EncodedLength.Statement (.callB32 f) := rfl
theorem Laws.EncodedLength.callL64 (f : L64) : Laws.EncodedLength.Statement (.callL64 f) := rfl
theorem Laws.EncodedLength.ret (f : K32) : Laws.EncodedLength.Statement (.ret f) := rfl
theorem Laws.EncodedLength.jmpi (f : K32) : Laws.EncodedLength.Statement (.jmpi f) := rfl
theorem Laws.EncodedLength.mlog (f : G64) : Laws.EncodedLength.Statement (.mlog f) := rfl
theorem Laws.EncodedLength.mmov (f : G64) : Laws.EncodedLength.Statement (.mmov f) := rfl
theorem Laws.EncodedLength.mcnt (f : G64) : Laws.EncodedLength.Statement (.mcnt f) := rfl
theorem Laws.EncodedLength.srd (f : K32) : Laws.EncodedLength.Statement (.srd f) := rfl
theorem Laws.EncodedLength.swr (f : K32) : Laws.EncodedLength.Statement (.swr f) := rfl
theorem Laws.EncodedLength.wait (f : L64) : Laws.EncodedLength.Statement (.wait f) := rfl
theorem Laws.EncodedLength.bart (f : K32) : Laws.EncodedLength.Statement (.bart f) := rfl
theorem Laws.EncodedLength.loop (f : L64) : Laws.EncodedLength.Statement (.loop f) := rfl
theorem Laws.EncodedLength.exit (f : K32) : Laws.EncodedLength.Statement (.exit f) := rfl
theorem Laws.EncodedLength.yield (f : K32) : Laws.EncodedLength.Statement (.yield f) := rfl
theorem Laws.EncodedLength.vaddK32 (f : K32) : Laws.EncodedLength.Statement (.vaddK32 f) := rfl
theorem Laws.EncodedLength.vaddG64 (f : G64) : Laws.EncodedLength.Statement (.vaddG64 f) := rfl
theorem Laws.EncodedLength.vaddC16 (f : C16) : Laws.EncodedLength.Statement (.vaddC16 f) := rfl
theorem Laws.EncodedLength.vsubK32 (f : K32) : Laws.EncodedLength.Statement (.vsubK32 f) := rfl
theorem Laws.EncodedLength.vsubG64 (f : G64) : Laws.EncodedLength.Statement (.vsubG64 f) := rfl
theorem Laws.EncodedLength.vsubC16 (f : C16) : Laws.EncodedLength.Statement (.vsubC16 f) := rfl
theorem Laws.EncodedLength.vmul (f : G64) : Laws.EncodedLength.Statement (.vmul f) := rfl
theorem Laws.EncodedLength.vmulC16 (f : C16) : Laws.EncodedLength.Statement (.vmulC16 f) := rfl
theorem Laws.EncodedLength.vmulh (f : G64) : Laws.EncodedLength.Statement (.vmulh f) := rfl
theorem Laws.EncodedLength.vmad (f : G64) : Laws.EncodedLength.Statement (.vmad f) := rfl
theorem Laws.EncodedLength.vandK32 (f : K32) : Laws.EncodedLength.Statement (.vandK32 f) := rfl
theorem Laws.EncodedLength.vandG64 (f : G64) : Laws.EncodedLength.Statement (.vandG64 f) := rfl
theorem Laws.EncodedLength.vandC16 (f : C16) : Laws.EncodedLength.Statement (.vandC16 f) := rfl
theorem Laws.EncodedLength.vorK32 (f : K32) : Laws.EncodedLength.Statement (.vorK32 f) := rfl
theorem Laws.EncodedLength.vorG64 (f : G64) : Laws.EncodedLength.Statement (.vorG64 f) := rfl
theorem Laws.EncodedLength.vorC16 (f : C16) : Laws.EncodedLength.Statement (.vorC16 f) := rfl
theorem Laws.EncodedLength.vxorK32 (f : K32) : Laws.EncodedLength.Statement (.vxorK32 f) := rfl
theorem Laws.EncodedLength.vxorG64 (f : G64) : Laws.EncodedLength.Statement (.vxorG64 f) := rfl
theorem Laws.EncodedLength.vxorC16 (f : C16) : Laws.EncodedLength.Statement (.vxorC16 f) := rfl
theorem Laws.EncodedLength.vshl (f : G64) : Laws.EncodedLength.Statement (.vshl f) := rfl
theorem Laws.EncodedLength.vshlC16 (f : C16) : Laws.EncodedLength.Statement (.vshlC16 f) := rfl
theorem Laws.EncodedLength.vshr (f : G64) : Laws.EncodedLength.Statement (.vshr f) := rfl
theorem Laws.EncodedLength.vshrC16 (f : C16) : Laws.EncodedLength.Statement (.vshrC16 f) := rfl
theorem Laws.EncodedLength.vmin (f : G64) : Laws.EncodedLength.Statement (.vmin f) := rfl
theorem Laws.EncodedLength.vminC16 (f : C16) : Laws.EncodedLength.Statement (.vminC16 f) := rfl
theorem Laws.EncodedLength.vmax (f : G64) : Laws.EncodedLength.Statement (.vmax f) := rfl
theorem Laws.EncodedLength.vmaxC16 (f : C16) : Laws.EncodedLength.Statement (.vmaxC16 f) := rfl
theorem Laws.EncodedLength.vbfx (f : G64) : Laws.EncodedLength.Statement (.vbfx f) := rfl
theorem Laws.EncodedLength.vpopc (f : G64) : Laws.EncodedLength.Statement (.vpopc f) := rfl
theorem Laws.EncodedLength.vsel (f : G64) : Laws.EncodedLength.Statement (.vsel f) := rfl
theorem Laws.EncodedLength.vcmpiK32 (f : K32) : Laws.EncodedLength.Statement (.vcmpiK32 f) := rfl
theorem Laws.EncodedLength.vcmpiG64 (f : G64) : Laws.EncodedLength.Statement (.vcmpiG64 f) := rfl
theorem Laws.EncodedLength.fadd (f : G64) : Laws.EncodedLength.Statement (.fadd f) := rfl
theorem Laws.EncodedLength.faddC16 (f : C16) : Laws.EncodedLength.Statement (.faddC16 f) := rfl
theorem Laws.EncodedLength.fsub (f : G64) : Laws.EncodedLength.Statement (.fsub f) := rfl
theorem Laws.EncodedLength.fsubC16 (f : C16) : Laws.EncodedLength.Statement (.fsubC16 f) := rfl
theorem Laws.EncodedLength.fmul (f : G64) : Laws.EncodedLength.Statement (.fmul f) := rfl
theorem Laws.EncodedLength.fmulC16 (f : C16) : Laws.EncodedLength.Statement (.fmulC16 f) := rfl
theorem Laws.EncodedLength.ffma (f : G64) : Laws.EncodedLength.Statement (.ffma f) := rfl
theorem Laws.EncodedLength.fmin (f : G64) : Laws.EncodedLength.Statement (.fmin f) := rfl
theorem Laws.EncodedLength.fminC16 (f : C16) : Laws.EncodedLength.Statement (.fminC16 f) := rfl
theorem Laws.EncodedLength.fmax (f : G64) : Laws.EncodedLength.Statement (.fmax f) := rfl
theorem Laws.EncodedLength.fmaxC16 (f : C16) : Laws.EncodedLength.Statement (.fmaxC16 f) := rfl
theorem Laws.EncodedLength.fcmp (f : G64) : Laws.EncodedLength.Statement (.fcmp f) := rfl
theorem Laws.EncodedLength.fclass (f : G64) : Laws.EncodedLength.Statement (.fclass f) := rfl
theorem Laws.EncodedLength.frnd (f : G64) : Laws.EncodedLength.Statement (.frnd f) := rfl
theorem Laws.EncodedLength.fmed3 (f : G64) : Laws.EncodedLength.Statement (.fmed3 f) := rfl
theorem Laws.EncodedLength.flerp (f : G64) : Laws.EncodedLength.Statement (.flerp f) := rfl
theorem Laws.EncodedLength.fdot2 (f : G64) : Laws.EncodedLength.Statement (.fdot2 f) := rfl
theorem Laws.EncodedLength.fpk (f : G64) : Laws.EncodedLength.Statement (.fpk f) := rfl
theorem Laws.EncodedLength.hadd2 (f : G64) : Laws.EncodedLength.Statement (.hadd2 f) := rfl
theorem Laws.EncodedLength.hmul2 (f : G64) : Laws.EncodedLength.Statement (.hmul2 f) := rfl
theorem Laws.EncodedLength.hfma2 (f : G64) : Laws.EncodedLength.Statement (.hfma2 f) := rfl
theorem Laws.EncodedLength.cvt (f : G64) : Laws.EncodedLength.Statement (.cvt f) := rfl
theorem Laws.EncodedLength.cvtq (f : G64) : Laws.EncodedLength.Statement (.cvtq f) := rfl
theorem Laws.EncodedLength.frcp (f : G64) : Laws.EncodedLength.Statement (.frcp f) := rfl
theorem Laws.EncodedLength.frsq (f : G64) : Laws.EncodedLength.Statement (.frsq f) := rfl
theorem Laws.EncodedLength.fsqrt (f : G64) : Laws.EncodedLength.Statement (.fsqrt f) := rfl
theorem Laws.EncodedLength.flog2 (f : G64) : Laws.EncodedLength.Statement (.flog2 f) := rfl
theorem Laws.EncodedLength.fexp2 (f : G64) : Laws.EncodedLength.Statement (.fexp2 f) := rfl
theorem Laws.EncodedLength.fsin (f : G64) : Laws.EncodedLength.Statement (.fsin f) := rfl
theorem Laws.EncodedLength.fcos (f : G64) : Laws.EncodedLength.Statement (.fcos f) := rfl
theorem Laws.EncodedLength.ftanh (f : G64) : Laws.EncodedLength.Statement (.ftanh f) := rfl
theorem Laws.EncodedLength.fdiv (f : G64) : Laws.EncodedLength.Statement (.fdiv f) := rfl
theorem Laws.EncodedLength.idiv (f : G64) : Laws.EncodedLength.Statement (.idiv f) := rfl
theorem Laws.EncodedLength.vrand (f : G64) : Laws.EncodedLength.Statement (.vrand f) := rfl
theorem Laws.EncodedLength.vsobol (f : G64) : Laws.EncodedLength.Statement (.vsobol f) := rfl
theorem Laws.EncodedLength.vmoviK32 (f : K32) : Laws.EncodedLength.Statement (.vmoviK32 f) := rfl
theorem Laws.EncodedLength.vmoviL64 (f : L64) : Laws.EncodedLength.Statement (.vmoviL64 f) := rfl
theorem Laws.EncodedLength.vmov (f : G64) : Laws.EncodedLength.Statement (.vmov f) := rfl
theorem Laws.EncodedLength.vmovC16 (f : C16) : Laws.EncodedLength.Statement (.vmovC16 f) := rfl
theorem Laws.EncodedLength.vmovx (f : G64) : Laws.EncodedLength.Statement (.vmovx f) := rfl
theorem Laws.EncodedLength.xset (f : G64) : Laws.EncodedLength.Statement (.xset f) := rfl
theorem Laws.EncodedLength.xbnd (f : L64) : Laws.EncodedLength.Statement (.xbnd f) := rfl
theorem Laws.EncodedLength.vtrn (f : G64) : Laws.EncodedLength.Statement (.vtrn f) := rfl
theorem Laws.EncodedLength.vpack (f : G64) : Laws.EncodedLength.Statement (.vpack f) := rfl
theorem Laws.EncodedLength.vunpk (f : G64) : Laws.EncodedLength.Statement (.vunpk f) := rfl
theorem Laws.EncodedLength.vbyte (f : G64) : Laws.EncodedLength.Statement (.vbyte f) := rfl
theorem Laws.EncodedLength.vext (f : G64) : Laws.EncodedLength.Statement (.vext f) := rfl
theorem Laws.EncodedLength.vins (f : G64) : Laws.EncodedLength.Statement (.vins f) := rfl
theorem Laws.EncodedLength.vaddc (f : G64) : Laws.EncodedLength.Statement (.vaddc f) := rfl
theorem Laws.EncodedLength.vsubb (f : G64) : Laws.EncodedLength.Statement (.vsubb f) := rfl
theorem Laws.EncodedLength.vmul64 (f : G64) : Laws.EncodedLength.Statement (.vmul64 f) := rfl
theorem Laws.EncodedLength.vshl64 (f : G64) : Laws.EncodedLength.Statement (.vshl64 f) := rfl
theorem Laws.EncodedLength.vshr64 (f : G64) : Laws.EncodedLength.Statement (.vshr64 f) := rfl
theorem Laws.EncodedLength.vcmp64 (f : G64) : Laws.EncodedLength.Statement (.vcmp64 f) := rfl
theorem Laws.EncodedLength.vabsd (f : G64) : Laws.EncodedLength.Statement (.vabsd f) := rfl
theorem Laws.EncodedLength.shfl (f : G64) : Laws.EncodedLength.Statement (.shfl f) := rfl
theorem Laws.EncodedLength.vote (f : G64) : Laws.EncodedLength.Statement (.vote f) := rfl
theorem Laws.EncodedLength.ballot (f : G64) : Laws.EncodedLength.Statement (.ballot f) := rfl
theorem Laws.EncodedLength.matchLanes (f : G64) : Laws.EncodedLength.Statement (.matchLanes f) := rfl
theorem Laws.EncodedLength.red (f : G64) : Laws.EncodedLength.Statement (.red f) := rfl
theorem Laws.EncodedLength.scan (f : G64) : Laws.EncodedLength.Statement (.scan f) := rfl
theorem Laws.EncodedLength.fred (f : G64) : Laws.EncodedLength.Statement (.fred f) := rfl
theorem Laws.EncodedLength.bcast (f : G64) : Laws.EncodedLength.Statement (.bcast f) := rfl
theorem Laws.EncodedLength.qswz (f : G64) : Laws.EncodedLength.Statement (.qswz f) := rfl
theorem Laws.EncodedLength.vcompact (f : G64) : Laws.EncodedLength.Statement (.vcompact f) := rfl
theorem Laws.EncodedLength.laclr (f : K32) : Laws.EncodedLength.Statement (.laclr f) := rfl
theorem Laws.EncodedLength.laadd (f : G64) : Laws.EncodedLength.Statement (.laadd f) := rfl
theorem Laws.EncodedLength.lafma (f : G64) : Laws.EncodedLength.Statement (.lafma f) := rfl
theorem Laws.EncodedLength.lard (f : G64) : Laws.EncodedLength.Statement (.lard f) := rfl
theorem Laws.EncodedLength.lasave (f : G64) : Laws.EncodedLength.Statement (.lasave f) := rfl
theorem Laws.EncodedLength.larst (f : G64) : Laws.EncodedLength.Statement (.larst f) := rfl
theorem Laws.EncodedLength.fndef (f : G64) : Laws.EncodedLength.Statement (.fndef f) := rfl
theorem Laws.EncodedLength.fnfree (f : K32) : Laws.EncodedLength.Statement (.fnfree f) := rfl
theorem Laws.EncodedLength.fnfit (f : G64) : Laws.EncodedLength.Statement (.fnfit f) := rfl
theorem Laws.EncodedLength.fnld (f : G64) : Laws.EncodedLength.Statement (.fnld f) := rfl
theorem Laws.EncodedLength.fnst (f : G64) : Laws.EncodedLength.Statement (.fnst f) := rfl
theorem Laws.EncodedLength.fnadd (f : G64) : Laws.EncodedLength.Statement (.fnadd f) := rfl
theorem Laws.EncodedLength.fnmul (f : G64) : Laws.EncodedLength.Statement (.fnmul f) := rfl
theorem Laws.EncodedLength.fnscl (f : G64) : Laws.EncodedLength.Statement (.fnscl f) := rfl
theorem Laws.EncodedLength.fncomp (f : G64) : Laws.EncodedLength.Statement (.fncomp f) := rfl
theorem Laws.EncodedLength.fnint (f : G64) : Laws.EncodedLength.Statement (.fnint f) := rfl
theorem Laws.EncodedLength.fnder (f : G64) : Laws.EncodedLength.Statement (.fnder f) := rfl
theorem Laws.EncodedLength.fneval (f : G64) : Laws.EncodedLength.Statement (.fneval f) := rfl
theorem Laws.EncodedLength.fnroot (f : G64) : Laws.EncodedLength.Statement (.fnroot f) := rfl
theorem Laws.EncodedLength.fnext (f : G64) : Laws.EncodedLength.Statement (.fnext f) := rfl
theorem Laws.EncodedLength.fnrestr (f : G64) : Laws.EncodedLength.Statement (.fnrestr f) := rfl
theorem Laws.EncodedLength.fncoef (f : G64) : Laws.EncodedLength.Statement (.fncoef f) := rfl
theorem Laws.EncodedLength.ld (f : M64) : Laws.EncodedLength.Statement (.ld f) := rfl
theorem Laws.EncodedLength.st (f : M64) : Laws.EncodedLength.Statement (.st f) := rfl
theorem Laws.EncodedLength.lds (f : M64) : Laws.EncodedLength.Statement (.lds f) := rfl
theorem Laws.EncodedLength.sts (f : M64) : Laws.EncodedLength.Statement (.sts f) := rfl
theorem Laws.EncodedLength.ldk (f : M64) : Laws.EncodedLength.Statement (.ldk f) := rfl
theorem Laws.EncodedLength.atom (f : M64) : Laws.EncodedLength.Statement (.atom f) := rfl
theorem Laws.EncodedLength.atomn (f : M64) : Laws.EncodedLength.Statement (.atomn f) := rfl
theorem Laws.EncodedLength.atoms (f : M64) : Laws.EncodedLength.Statement (.atoms f) := rfl
theorem Laws.EncodedLength.cas (f : M64) : Laws.EncodedLength.Statement (.cas f) := rfl
theorem Laws.EncodedLength.fence (f : M64) : Laws.EncodedLength.Statement (.fence f) := rfl
theorem Laws.EncodedLength.trans (f : M64) : Laws.EncodedLength.Statement (.trans f) := rfl
theorem Laws.EncodedLength.trinv (f : M64) : Laws.EncodedLength.Statement (.trinv f) := rfl
theorem Laws.EncodedLength.pref (f : M64) : Laws.EncodedLength.Statement (.pref f) := rfl
theorem Laws.EncodedLength.cache (f : M64) : Laws.EncodedLength.Statement (.cache f) := rfl
theorem Laws.EncodedLength.cpa (f : M64) : Laws.EncodedLength.Statement (.cpa f) := rfl
theorem Laws.EncodedLength.cpcommit (f : K32) : Laws.EncodedLength.Statement (.cpcommit f) := rfl
theorem Laws.EncodedLength.cpb (f : M64) : Laws.EncodedLength.Statement (.cpb f) := rfl
theorem Laws.EncodedLength.cpr (f : M64) : Laws.EncodedLength.Statement (.cpr f) := rfl
theorem Laws.EncodedLength.cpsm (f : M64) : Laws.EncodedLength.Statement (.cpsm f) := rfl
theorem Laws.EncodedLength.cwprd (f : K32) : Laws.EncodedLength.Statement (.cwprd f) := rfl
theorem Laws.EncodedLength.binit (f : M64) : Laws.EncodedLength.Statement (.binit f) := rfl
theorem Laws.EncodedLength.barr (f : M64) : Laws.EncodedLength.Statement (.barr f) := rfl
theorem Laws.EncodedLength.bwait (f : M64) : Laws.EncodedLength.Statement (.bwait f) := rfl
theorem Laws.EncodedLength.bexp (f : M64) : Laws.EncodedLength.Statement (.bexp f) := rfl
theorem Laws.EncodedLength.seal (f : M64) : Laws.EncodedLength.Statement (.seal f) := rfl
theorem Laws.EncodedLength.unseal (f : M64) : Laws.EncodedLength.Statement (.unseal f) := rfl
theorem Laws.EncodedLength.worel (f : M64) : Laws.EncodedLength.Statement (.worel f) := rfl
theorem Laws.EncodedLength.smap (f : M64) : Laws.EncodedLength.Statement (.smap f) := rfl
theorem Laws.EncodedLength.sunmap (f : M64) : Laws.EncodedLength.Statement (.sunmap f) := rfl
theorem Laws.EncodedLength.enq (f : M64) : Laws.EncodedLength.Statement (.enq f) := rfl
theorem Laws.EncodedLength.deq (f : M64) : Laws.EncodedLength.Statement (.deq f) := rfl
theorem Laws.EncodedLength.fetchw (f : K32) : Laws.EncodedLength.Statement (.fetchw f) := rfl
theorem Laws.EncodedLength.tcfg (f : G64) : Laws.EncodedLength.Statement (.tcfg f) := rfl
theorem Laws.EncodedLength.tld (f : G64) : Laws.EncodedLength.Statement (.tld f) := rfl
theorem Laws.EncodedLength.tst (f : G64) : Laws.EncodedLength.Statement (.tst f) := rfl
theorem Laws.EncodedLength.tzero (f : G64) : Laws.EncodedLength.Statement (.tzero f) := rfl
theorem Laws.EncodedLength.tmovv (f : G64) : Laws.EncodedLength.Statement (.tmovv f) := rfl
theorem Laws.EncodedLength.vmovt (f : G64) : Laws.EncodedLength.Statement (.vmovt f) := rfl
theorem Laws.EncodedLength.mma (f : G64) : Laws.EncodedLength.Statement (.mma f) := rfl
theorem Laws.EncodedLength.mmas (f : G64) : Laws.EncodedLength.Statement (.mmas f) := rfl
theorem Laws.EncodedLength.mmat (f : G64) : Laws.EncodedLength.Statement (.mmat f) := rfl
theorem Laws.EncodedLength.mmax (f : G64) : Laws.EncodedLength.Statement (.mmax f) := rfl
theorem Laws.EncodedLength.accld (f : G64) : Laws.EncodedLength.Statement (.accld f) := rfl
theorem Laws.EncodedLength.accst (f : G64) : Laws.EncodedLength.Statement (.accst f) := rfl
theorem Laws.EncodedLength.accq (f : G64) : Laws.EncodedLength.Statement (.accq f) := rfl
theorem Laws.EncodedLength.ttrl (f : G64) : Laws.EncodedLength.Statement (.ttrl f) := rfl
theorem Laws.EncodedLength.tscl (f : G64) : Laws.EncodedLength.Statement (.tscl f) := rfl
theorem Laws.EncodedLength.txp (f : G64) : Laws.EncodedLength.Statement (.txp f) := rfl
theorem Laws.EncodedLength.dice (f : G64) : Laws.EncodedLength.Statement (.dice f) := rfl
theorem Laws.EncodedLength.gridacq (f : G64) : Laws.EncodedLength.Statement (.gridacq f) := rfl
theorem Laws.EncodedLength.gridrel (f : G64) : Laws.EncodedLength.Statement (.gridrel f) := rfl
theorem Laws.EncodedLength.rast (f : G64) : Laws.EncodedLength.Statement (.rast f) := rfl
theorem Laws.EncodedLength.rayq (f : G64) : Laws.EncodedLength.Statement (.rayq f) := rfl
theorem Laws.EncodedLength.rayrd (f : G64) : Laws.EncodedLength.Statement (.rayrd f) := rfl
theorem Laws.EncodedLength.bkt (f : G64) : Laws.EncodedLength.Statement (.bkt f) := rfl
theorem Laws.EncodedLength.spill (f : G64) : Laws.EncodedLength.Statement (.spill f) := rfl
theorem Laws.EncodedLength.rep (f : Rep) : Laws.EncodedLength.Statement (.rep f) := rfl
theorem Laws.EncodedLength.pblk (f : Pblk) : Laws.EncodedLength.Statement (.pblk f) := rfl
theorem Laws.EncodedLength.trap (f : K32) : Laws.EncodedLength.Statement (.trap f) := rfl
theorem Laws.EncodedLength.rte (f : K32) : Laws.EncodedLength.Statement (.rte f) := rfl
theorem Laws.EncodedLength.prd (f : K32) : Laws.EncodedLength.Statement (.prd f) := rfl
theorem Laws.EncodedLength.pwr (f : K32) : Laws.EncodedLength.Statement (.pwr f) := rfl
theorem Laws.EncodedLength.bkpt (f : K32) : Laws.EncodedLength.Statement (.bkpt f) := rfl
theorem Laws.EncodedLength.logev (f : K32) : Laws.EncodedLength.Statement (.logev f) := rfl
theorem Laws.EncodedLength.pipeIssue (core pipe : Nat) : Laws.EncodedLength.Statement (.pipeIssue core pipe) := rfl
theorem Laws.EncodedLength.wavePromote (core slot : Nat) : Laws.EncodedLength.Statement (.wavePromote core slot) := rfl
theorem Laws.EncodedLength.distElapsed (core slot : Nat) : Laws.EncodedLength.Statement (.distElapsed core slot) := rfl
theorem Laws.EncodedLength.tokenGrant : Laws.EncodedLength.Statement (.tokenGrant) := rfl
theorem Laws.EncodedLength.counterCompletion (core slot id : Nat) : Laws.EncodedLength.Statement (.counterCompletion core slot id) := rfl
theorem Laws.EncodedLength.functionDecisionPoint (core : Nat) : Laws.EncodedLength.Statement (.functionDecisionPoint core) := rfl
theorem Laws.EncodedLength.matrixCompletion (core : Nat) : Laws.EncodedLength.Statement (.matrixCompletion core) := rfl
theorem Laws.EncodedLength.bartRelease (launch tag : Nat) : Laws.EncodedLength.Statement (.bartRelease launch tag) := rfl
theorem Laws.EncodedLength.yieldExpiry (core slot : Nat) : Laws.EncodedLength.Statement (.yieldExpiry core slot) := rfl
theorem Laws.EncodedLength.copyBatchComplete (core slot : Nat) : Laws.EncodedLength.Statement (.copyBatchComplete core slot) := rfl
theorem Laws.EncodedLength.cpbByteAddition (core id : Nat) : Laws.EncodedLength.Statement (.cpbByteAddition core id) := rfl
theorem Laws.EncodedLength.rastComplete (core slot id : Nat) : Laws.EncodedLength.Statement (.rastComplete core slot id) := rfl
theorem Laws.EncodedLength.rayqComplete (core slot id : Nat) : Laws.EncodedLength.Statement (.rayqComplete core slot id) := rfl
theorem Laws.EncodedLength.nopPacket (stream ticket : Nat) : Laws.EncodedLength.Statement (.nopPacket stream ticket) := rfl
theorem Laws.EncodedLength.launch (stream ticket : Nat) : Laws.EncodedLength.Statement (.launch stream ticket) := rfl
theorem Laws.EncodedLength.waitv (stream ticket : Nat) : Laws.EncodedLength.Statement (.waitv stream ticket) := rfl
theorem Laws.EncodedLength.signal (stream ticket : Nat) : Laws.EncodedLength.Statement (.signal stream ticket) := rfl
theorem Laws.EncodedLength.harvest (stream ticket : Nat) : Laws.EncodedLength.Statement (.harvest stream ticket) := rfl
theorem Laws.EncodedLength.shootdown (stream ticket : Nat) : Laws.EncodedLength.Statement (.shootdown stream ticket) := rfl
theorem Laws.EncodedLength.packetClaim (core stream : Nat) : Laws.EncodedLength.Statement (.packetClaim core stream) := rfl
theorem Laws.EncodedLength.parkedPacketReexamine (stream ticket : Nat) : Laws.EncodedLength.Statement (.parkedPacketReexamine stream ticket) := rfl
theorem Laws.EncodedLength.parkRecheckTimer (stream ticket : Nat) : Laws.EncodedLength.Statement (.parkRecheckTimer stream ticket) := rfl
theorem Laws.EncodedLength.placementRequest (core launch : Nat) : Laws.EncodedLength.Statement (.placementRequest core launch) := rfl
theorem Laws.EncodedLength.placementGrant (core : Nat) : Laws.EncodedLength.Statement (.placementGrant core) := rfl
theorem Laws.EncodedLength.launchStart (launch : Nat) : Laws.EncodedLength.Statement (.launchStart launch) := rfl
theorem Laws.EncodedLength.launchCompletion (launch : Nat) : Laws.EncodedLength.Statement (.launchCompletion launch) := rfl
theorem Laws.EncodedLength.drainClockMark (launch : Nat) : Laws.EncodedLength.Statement (.drainClockMark launch) := rfl
theorem Laws.EncodedLength.drainClockPreempt (launch : Nat) : Laws.EncodedLength.Statement (.drainClockPreempt launch) := rfl
theorem Laws.EncodedLength.preemptRetry (launch : Nat) : Laws.EncodedLength.Statement (.preemptRetry launch) := rfl
theorem Laws.EncodedLength.groupPreempt (core gslot : Nat) : Laws.EncodedLength.Statement (.groupPreempt core gslot) := rfl
theorem Laws.EncodedLength.groupResume (core : Nat) : Laws.EncodedLength.Statement (.groupResume core) := rfl
theorem Laws.EncodedLength.waveSlotReturn (core slot : Nat) : Laws.EncodedLength.Statement (.waveSlotReturn core slot) := rfl
theorem Laws.EncodedLength.groupFree (core gslot : Nat) : Laws.EncodedLength.Statement (.groupFree core gslot) := rfl
theorem Laws.EncodedLength.bucketFill (queue : DWord) (shard : Nat) (tail : DWord) : Laws.EncodedLength.Statement (.bucketFill queue shard tail) := rfl
theorem Laws.EncodedLength.queueCloseWake (queue : DWord) : Laws.EncodedLength.Statement (.queueCloseWake queue) := rfl
theorem Laws.EncodedLength.queueHeaderRevalidate (queue : DWord) : Laws.EncodedLength.Statement (.queueHeaderRevalidate queue) := rfl
theorem Laws.EncodedLength.queueWaiterServe (queue : DWord) (shard : Nat) : Laws.EncodedLength.Statement (.queueWaiterServe queue shard) := rfl
theorem Laws.EncodedLength.stealOptimistic (queue : DWord) (die : Nat) : Laws.EncodedLength.Statement (.stealOptimistic queue die) := rfl
theorem Laws.EncodedLength.stealLocked (queue : DWord) (die : Nat) : Laws.EncodedLength.Statement (.stealLocked queue die) := rfl
theorem Laws.EncodedLength.evconsWrite (value : Word) : Laws.EncodedLength.Statement (.evconsWrite value) := rfl
theorem Laws.EncodedLength.leaseExpiry (line : Nat) : Laws.EncodedLength.Statement (.leaseExpiry line) := rfl
theorem Laws.EncodedLength.reqs (die line : Nat) : Laws.EncodedLength.Statement (.reqs die line) := rfl
theorem Laws.EncodedLength.reqm (die line : Nat) : Laws.EncodedLength.Statement (.reqm die line) := rfl
theorem Laws.EncodedLength.data (die line : Nat) : Laws.EncodedLength.Statement (.data die line) := rfl
theorem Laws.EncodedLength.forward (die line : Nat) : Laws.EncodedLength.Statement (.forward die line) := rfl
theorem Laws.EncodedLength.inv (die line : Nat) : Laws.EncodedLength.Statement (.inv die line) := rfl
theorem Laws.EncodedLength.invAck (die line : Nat) : Laws.EncodedLength.Statement (.invAck die line) := rfl
theorem Laws.EncodedLength.recall (die line : Nat) : Laws.EncodedLength.Statement (.recall die line) := rfl
theorem Laws.EncodedLength.cleanEvict (die line : Nat) : Laws.EncodedLength.Statement (.cleanEvict die line) := rfl
theorem Laws.EncodedLength.wbdata (die line : Nat) : Laws.EncodedLength.Statement (.wbdata die line) := rfl
theorem Laws.EncodedLength.snoopFilterEviction (line : Nat) : Laws.EncodedLength.Statement (.snoopFilterEviction line) := rfl
theorem Laws.EncodedLength.snpinv (half : Nat) : Laws.EncodedLength.Statement (.snpinv half) := rfl
theorem Laws.EncodedLength.snpdata (half : Nat) : Laws.EncodedLength.Statement (.snpdata half) := rfl
theorem Laws.EncodedLength.birsp (line half : Nat) : Laws.EncodedLength.Statement (.birsp line half) := rfl
theorem Laws.EncodedLength.hostAtomicHelperCas (core slot id : Nat) (success : Bool) : Laws.EncodedLength.Statement (.hostAtomicHelperCas core slot id success) := rfl
theorem Laws.EncodedLength.hostAccess (addr : Nat) (write : Bool) (bytes : List Byte) : Laws.EncodedLength.Statement (.hostAccess addr write bytes) := rfl
theorem Laws.EncodedLength.translationWalk (core slot id : Nat) : Laws.EncodedLength.Statement (.translationWalk core slot id) := rfl
theorem Laws.EncodedLength.sideLogReplay (core : Nat) : Laws.EncodedLength.Statement (.sideLogReplay core) := rfl
theorem Laws.EncodedLength.genRefusalRetry (core slot id : Nat) : Laws.EncodedLength.Statement (.genRefusalRetry core slot id) := rfl
theorem Laws.EncodedLength.moveCopyStep (entry : Nat) : Laws.EncodedLength.Statement (.moveCopyStep entry) := rfl
theorem Laws.EncodedLength.frespMapped (tag : Word) : Laws.EncodedLength.Statement (.frespMapped tag) := rfl
theorem Laws.EncodedLength.frespDeclined (tag : Word) : Laws.EncodedLength.Statement (.frespDeclined tag) := rfl
theorem Laws.EncodedLength.fltconsWrite (value : Word) : Laws.EncodedLength.Statement (.fltconsWrite value) := rfl
theorem Laws.EncodedLength.fpcmdRead : Laws.EncodedLength.Statement (.fpcmdRead) := rfl
theorem Laws.EncodedLength.fpcmdWrite : Laws.EncodedLength.Statement (.fpcmdWrite) := rfl
theorem Laws.EncodedLength.mvdoorStart : Laws.EncodedLength.Statement (.mvdoorStart) := rfl
theorem Laws.EncodedLength.mvdoorEnd : Laws.EncodedLength.Statement (.mvdoorEnd) := rfl
theorem Laws.EncodedLength.ctrlGo : Laws.EncodedLength.Statement (.ctrlGo) := rfl
theorem Laws.EncodedLength.ctrlCommit : Laws.EncodedLength.Statement (.ctrlCommit) := rfl
theorem Laws.EncodedLength.ctrlWarmrst : Laws.EncodedLength.Statement (.ctrlWarmrst) := rfl
theorem Laws.EncodedLength.plimitWrite (value : Word) : Laws.EncodedLength.Statement (.plimitWrite value) := rfl
theorem Laws.EncodedLength.powerThrottle (watts : Nat) : Laws.EncodedLength.Statement (.powerThrottle watts) := rfl
theorem Laws.EncodedLength.powerRecover (watts : Nat) : Laws.EncodedLength.Statement (.powerRecover watts) := rfl
theorem Laws.EncodedLength.hcfgWrite (head : Nat) (value : Word) : Laws.EncodedLength.Statement (.hcfgWrite head value) := rfl
theorem Laws.EncodedLength.timingWrite (head : Nat) (value : DWord) : Laws.EncodedLength.Statement (.timingWrite head value) := rfl
theorem Laws.EncodedLength.registerWrite (offset : Nat) (value : Word) : Laws.EncodedLength.Statement (.registerWrite offset value) := rfl
theorem Laws.EncodedLength.headScanDecision (head : Nat) : Laws.EncodedLength.Statement (.headScanDecision head) := rfl
theorem Laws.EncodedLength.vblank (head : Nat) : Laws.EncodedLength.Statement (.vblank head) := rfl
theorem Laws.EncodedLength.perstDeassert : Laws.EncodedLength.Statement (.perstDeassert) := rfl
theorem Laws.EncodedLength.recoveryBoot : Laws.EncodedLength.Statement (.recoveryBoot) := rfl
theorem Laws.EncodedLength.recoveryProgram : Laws.EncodedLength.Statement (.recoveryProgram) := rfl
theorem Laws.EncodedLength.recoveryBootslot : Laws.EncodedLength.Statement (.recoveryBootslot) := rfl
theorem Laws.EncodedLength.scrub (die place unit : Nat) (uncorrectable : Bool) : Laws.EncodedLength.Statement (.scrub die place unit uncorrectable) := rfl
theorem Laws.EncodedLength.deferredReport (core slot : Nat) : Laws.EncodedLength.Statement (.deferredReport core slot) := rfl
theorem Laws.EncodedLength.trapDelivery (core slot : Nat) : Laws.EncodedLength.Statement (.trapDelivery core slot) := rfl
theorem Laws.EncodedLength.replicaUpdate (die line : Nat) : Laws.EncodedLength.Statement (.replicaUpdate die line) := rfl
theorem Laws.EncodedLength.replicaAcknowledge (die line : Nat) : Laws.EncodedLength.Statement (.replicaAcknowledge die line) := rfl
theorem Laws.EncodedLength.cxlCacheResponse (half : Nat) : Laws.EncodedLength.Statement (.cxlCacheResponse half) := rfl

end Sys2Proof
end

