-- ==== Sys2Proof/Laws/Step.lean ====
section
/-! SUPPORT. What a step can do (R99, R100): the cases of one step, and that only a reserved PTROOT ends a run. -/

namespace Sys2Proof.Machine

/-- Everything a step that answers a next state can have done. -/
theorem step_cases {s t : State} (h : step s = .next t) :
    (s.chosen = true ∧ s.rootReserved = false ∧
      (s.nextToRun = .done t ∨
        ∃ u i v, s.nextToRun = .run u i ∧ exec i u = .next v ∧ t = v.settleToken u.wave.core u.wave.slot)) ∨
    (s.chosen = false ∧
      ((∃ e l, s.agenda = e :: l ∧ exec e { s with agenda := l } = .next t) ∨
        (s.agenda = [] ∧ ∃ n, s.nextTurn = some n ∧ exec (.pipeIssue (n / 4) (n % 4)) { s with turn := n + 1 } = .next t) ∨
        (s.agenda = [] ∧ s.nextTurn = none ∧ t = s.tick.heldRun))) := by
  unfold step at h
  split at h
  · rename_i hc
    split at h
    · cases h
    · rename_i hr
      refine .inl ⟨hc, by simpa using hr, ?_⟩
      split at h
      · rename_i u hn
        injection h with e
        exact .inl (e ▸ hn)
      · rename_i u i hn
        split at h
        · rename_i v he
          injection h with e
          exact .inr ⟨u, i, v, hn, he, e.symm⟩
        · cases h
        · cases h
  · rename_i hc
    refine .inr ⟨by simpa using hc, ?_⟩
    split at h
    · rename_i e l ha
      exact .inl ⟨e, l, ha, h⟩
    · rename_i ha
      split at h
      · rename_i n hn
        exact .inr (.inl ⟨ha, n, hn, h⟩)
      · rename_i hn
        exact .inr (.inr ⟨ha, hn, (Host.Outcome.next.inj h).symm⟩)

/-- Where every meaning answers a next state, a step does, unless a chosen wave would fetch from a reserved PTROOT. -/
theorem step_next (hx : ∀ i t, ∃ u, exec i t = .next u) (s : State) (h : s.chosen = true → s.rootReserved = false) :
    ∃ t, step s = .next t := by
  unfold step
  split
  · rename_i hc
    rw [h hc]
    simp only [Bool.false_eq_true, if_false]
    split
    · exact ⟨_, rfl⟩
    · rename_i t i _
      obtain ⟨u, hu⟩ := hx i t
      rw [hu]; exact ⟨_, rfl⟩
  · split
    · exact hx _ _
    · split
      · exact hx _ _
      · exact ⟨_, rfl⟩

end Sys2Proof.Machine
end

