-- ==== Sys2Proof/Laws/Traps.lean ====
section
/-! SUPPORT. What taking a trap, translating an address and ending a wave can do to storage; the frame's length (R225,
R384 to R390). -/

namespace Sys2Proof.Machine

/-! ### Translation (R208, R225) -/

@[simp] theorem State.walkVia_mem (s : State) (d va : Nat) : (s.walkVia d va).1.mem = s.mem := by
  unfold State.walkVia
  dsimp only
  split
  · split
    · rfl
    · split <;> rfl
  · rfl

@[simp] theorem State.walkMarks_mem (s : State) (va : Nat) : (s.walkMarks va).mem = s.mem :=
  State.foldl_mem (fun s b => if s.tableRefused b then s else (s.claimRec b (tablePage b)).markRec b false) (fun s b => by
    split
    · rfl
    · rw [State.markRec_mem, State.claimRec_mem]) _ s

@[simp] theorem State.walkFill_mem (s : State) (core va : Nat) : (s.walkFill core va).1.mem = s.mem := by
  have h := (State.walkVia_mem (s.walkMarks va) (dieOf core) va).trans (State.walkMarks_mem s va)
  unfold State.walkFill
  split
  · rename_i e; rw [e] at h; exact h
  · exact h

/-- A translation changes no byte of storage. -/
@[simp] theorem State.translate_mem (s : State) (core va : Nat) : (s.translate core va).1.mem = s.mem := by
  unfold State.translate
  dsimp only
  split
  · split
    · rfl
    · split
      · rfl
      · simp
  · split
    · split
      · rfl
      · split
        · rfl
        · simp
    · simp

/-! ### Outstanding work and the end of a wave -/

@[simp] theorem State.startOutst_mem (s : State) (cls cf : Option Nat) (pc : DWord) (holds : Bool) (e : Effect) :
    (s.startOutst cls cf pc holds e).mem = s.mem := rfl

@[simp] theorem State.commitBatch_mem (s : State) (pc : DWord) (obj : Option Nat) (bytes : Nat) :
    (s.commitBatch pc obj bytes).mem = s.mem := rfl

@[simp] theorem State.phaseCheck_mem (s : State) (l tag : Nat) : (s.phaseCheck l tag).mem = s.mem := by
  unfold State.phaseCheck
  split <;> rfl

@[simp] theorem State.phaseChecks_mem (s : State) (l : Nat) : (s.phaseChecks l).mem = s.mem :=
  State.foldl_mem _ (fun s t => State.phaseCheck_mem s l t) _ s

@[simp] theorem State.endWave_mem (s : State) : s.endWave.mem = s.mem := by
  unfold State.endWave
  dsimp only
  rw [State.phaseChecks_mem]
  split <;> split <;> rfl

@[simp] theorem State.withdrawToken_mem (s : State) : s.withdrawToken.mem = s.mem := rfl

@[simp] theorem State.commitOpen_mem (s : State) : s.commitOpen.mem = s.mem := by
  unfold State.commitOpen
  split <;> rfl

@[simp] theorem State.decideTrap_mem (s : State) (t : TrapReq) : (s.decideTrap t).mem = s.mem := by
  unfold State.decideTrap
  show (s.commitOpen.withdrawToken).mem = s.mem
  rw [State.withdrawToken_mem, State.commitOpen_mem]

@[simp] theorem State.withdrawWaits_mem (s : State) : s.withdrawWaits.mem = s.mem := rfl

@[simp] theorem State.dropMove_mem (s : State) : s.dropMove.mem = s.mem := by
  unfold State.dropMove
  split <;> rfl

@[simp] theorem State.enterHandler_mem (s : State) (t : TrapReq) (fa : DWord) : (s.enterHandler t fa).mem = s.mem := rfl

/-! ### The frame -/

/-- A frame has 64 bytes (R387). -/
theorem Wave.frame_length (w : Wave) (t : TrapReq) (clock : Nat) : (w.frame t clock).length = 64 := by
  simp [Wave.frame]

/-- An access to a frame keeps the canonical form of storage. -/
theorem State.frameIo_wf {s t : State} {va : DWord} {acc : Access} {f : List Byte → List Byte} {bs : List Byte}
    (h : Memory.wf s.mem = true) (e : s.frameIo va acc f = .ok t bs) : Memory.wf t.mem = true := by
  unfold State.frameIo at e
  split at e
  · cases e
  · have hm := State.translate_mem s s.wave.core va.toNat
    split at e
    · rename_i s1 r he
      rw [he] at hm
      split at e
      · cases e
      · have h1 : Memory.wf s1.mem = true := (congrArg _ (show s1.mem = s.mem from hm)).trans h
        have hg := State.access_wf h1 s.wave.core r (r.pbase.toNat - r.ppage) 64 (acc == .store) false f
        split at e
        · rename_i s2 b p hacc
          split at e
          · cases e
          · injection e with e1 e2
            subst e1
            rw [hacc] at hg
            exact hg
        · cases e
        · cases e
        · cases e
    · cases e

/-- One that waits keeps it too. -/
theorem State.frameIo_wait {s t : State} {va : DWord} {acc : Access} {f : List Byte → List Byte}
    (h : Memory.wf s.mem = true) (e : s.frameIo va acc f = .wait t) : Memory.wf t.mem = true := by
  unfold State.frameIo at e
  split at e
  · cases e
  · have hm := State.translate_mem s s.wave.core va.toNat
    split at e
    · rename_i s1 r he
      rw [he] at hm
      have h1 : Memory.wf s1.mem = true := (congrArg _ (show s1.mem = s.mem from hm)).trans h
      split at e
      · cases e
      · have hg := State.access_wf h1 s.wave.core r (r.pbase.toNat - r.ppage) 64 (acc == .store) false f
        split at e
        · split at e <;> cases e
        · rename_i hacc
          injection e with e1
          subst e1
          rw [hacc] at hg
          exact hg
        · injection e with e1
          subst e1
          exact h1
        · cases e
    · cases e

/-! ### Delivery -/

/-- With no trap decided there is nothing to deliver. -/
theorem State.deliver_none {s : State} (h : s.wave.trap = none) : s.deliver = s := by
  unfold State.deliver; rw [h]

/-- While work that must land first is outstanding a decided trap is held (R384). -/
theorem State.deliver_held {s : State} {t : TrapReq} (h : s.wave.trap = some t) (hd : s.commitOpen.wave.drained = false) :
    s.deliver = s.commitOpen := by
  unfold State.deliver; rw [h]; simp [hd]

/-- Delivery keeps the canonical form of storage: a handler's frame is all it writes. -/
theorem State.deliver_wf {s : State} (h : Memory.wf s.mem = true) : Memory.wf s.deliver.mem = true := by
  unfold State.deliver
  split
  · exact h
  · extract_lets u v w t d fa
    have hu : Memory.wf u.mem = true := (congrArg _ (State.commitOpen_mem s)).trans h
    have hv : Memory.wf v.mem = true := (congrArg _ ((State.withdrawWaits_mem _).trans (landEvery_mem u))).trans hu
    split
    · exact hu
    · split
      · exact (congrArg _ (State.dropMove_mem _)).trans hv
      · split
        · simpa using hv
        · split
          · simpa using hv
          · split
            · rename_i e
              rw [State.enterHandler_mem]
              exact State.frameIo_wf hv e
            · rename_i e
              exact State.frameIo_wait hv e
            · simpa using hv

/-- TAKING A TRAP keeps the canonical form of storage. -/
theorem State.raise_wf {s : State} (h : Memory.wf s.mem = true) (t : TrapReq) : Memory.wf (s.raise t).mem = true :=
  State.deliver_wf (by rw [State.decideTrap_mem]; exact h)

theorem State.faultAt_wf {s : State} (h : Memory.wf s.mem = true) (code detail : Nat) (addr : DWord) :
    Memory.wf (s.faultAt code detail addr).mem = true := by
  unfold State.faultAt
  exact State.raise_wf (s := { s with wave := { s.wave with hold := .none, held := none } }) h _

/-- The state that an effect leads to, where it names one. -/
def Act.leads (a : Act) (t : State) : Prop :=
  match a with
  | .state u => u = t
  | .stay u => u = t
  | .trapIn u _ _ _ => u = t
  | _ => False

/-- How an instruction settles keeps the canonical form, where the states that its effect names have it. -/
theorem settle_wf {s : State} (h : Memory.wf s.mem = true) (len : Nat) (a : Act) (ha : ∀ t, a.leads t → Memory.wf t.mem = true) :
    Memory.wf (settle s len a).mem = true := by
  cases a with
  | wave w => exact h
  | state t => exact ha t rfl
  | jump w target => exact h
  | stay t => exact ha t rfl
  | trap c d addr => exact State.faultAt_wf h c d addr
  | trapIn t c d addr => exact State.faultAt_wf (ha t rfl) c d addr

/-- The same for an instruction that issues, and for a held one that goes on. -/
theorem settleNew_wf {s : State} (h : Memory.wf s.mem = true) (i : Instr) (a : Act) (ha : ∀ t, a.leads t → Memory.wf t.mem = true) :
    Memory.wf (settleNew s i a).mem = true := by
  cases a with
  | stay t =>
    show Memory.wf (s.holdOn i t).mem = true
    unfold State.holdOn
    have ht : Memory.wf t.mem = true := ha t rfl
    split <;> exact ht
  | _ => exact settle_wf h (insLen i) _ ha

theorem settleHeld_wf {s : State} (hs : Memory.wf s.mem = true) (h : Held) (i : Instr) (a : Act)
    (ha : ∀ t, a.leads t → Memory.wf t.mem = true) : Memory.wf (settleHeld s h i a).mem = true := by
  cases a with
  | wave w => exact hs
  | state t => exact ha t rfl
  | stay t => exact ha t rfl
  | trapIn t c d addr =>
    have ht : Memory.wf t.mem = true := ha t rfl
    exact State.faultAt_wf (s := { t with wave := t.wave.backTo s.wave h }) ht c d addr
  | jump w target => exact hs
  | trap c d addr => exact State.faultAt_wf hs c d addr

/-- An instruction keeps the canonical form of storage, where the states that its effect names have it. -/
theorem run_wf {s : State} (h : Memory.wf s.mem = true) (i : Instr) (eff : State → Act)
    (he : ∀ u, u.mem = s.mem → ∀ t, (eff u).leads t → Memory.wf t.mem = true) : Memory.wf (run i s eff).mem = true := by
  unfold run
  split
  · exact settleHeld_wf h _ i _ (he _ rfl)
  · split
    · exact State.faultAt_wf h _ _ _
    · split
      · exact h
      · split
        · exact h
        · split
          · exact State.faultAt_wf h _ _ _
          · exact settleNew_wf h i _ (he s rfl)

theorem runWave_wf {s : State} (h : Memory.wf s.mem = true) (i : Instr) (eff : Wave → Act)
    (he : ∀ w t, ¬(eff w).leads t) : Memory.wf (runWave i s eff).mem = true :=
  run_wf h i _ fun _ _ t e => absurd e (he _ t)

theorem runScalar_wf {s : State} (h : Memory.wf s.mem = true) (i : Instr) (f : Wave → List WaveWrite) :
    Memory.wf (runScalar i s f).mem = true := run_wf h i _ fun _ _ _ e => e.elim

theorem runVector_wf {s : State} (h : Memory.wf s.mem = true) (i : Instr) (f : Wave → List WaveWrite) :
    Memory.wf (runVector i s f).mem = true := run_wf h i _ fun _ _ _ e => e.elim

end Sys2Proof.Machine
end

