-- ==== Sys2Proof/Tests/Slice0.lean ====
section
/-! SUPPORT. The model's own tests: words of the spec's encodings, ill-formed instructions, and for every statement with
hypotheses a state and operands that meet them. Each is about one instruction or one step. -/

namespace Sys2Proof.Tests

open Sys2Proof.Machine

set_option Elab.async false

/-! ### Small states and instructions -/

/-- A G64 or T64 instruction; bits 0, 1 and 2 of `sx` are SA, SB and SC. -/
def g64 (d a b c sub mod sx : Nat) : G64 :=
  { xe := false, xi := 0, sub := BitVec.ofNat 4 sub, mod := BitVec.ofNat 4 mod, sc := nbit sx 2, sb := nbit sx 1,
    sa := nbit sx 0, c := BitVec.ofNat 8 c, b := BitVec.ofNat 8 b, a := BitVec.ofNat 8 a, d := BitVec.ofNat 8 d, cf := 15, dist := 0 }

/-- An M64 instruction. -/
def m64 (d a tr size order scope aop imm sx : Nat) : M64 :=
  { imm := BitVec.ofNat 14 imm, aop := BitVec.ofNat 4 aop, size := BitVec.ofNat 3 size, order := BitVec.ofNat 3 order,
    scope := BitVec.ofNat 3 scope, asc := nbit sx 0, tr := BitVec.ofNat 3 tr, a := BitVec.ofNat 8 a, d := BitVec.ofNat 8 d,
    cf := 15, dist := 0 }

/-- A K32 instruction. -/
def k32 (d imm : Nat) : K32 := { imm := BitVec.ofNat 11 imm, d := BitVec.ofNat 8 d, dist := 0 }

/-- A B32 instruction. -/
def b32 (off : Nat) : B32 := { off := BitVec.ofNat 19 off, dist := 0 }

/-- An L64 instruction. -/
def l64 (d sub7 imm : Nat) : L64 :=
  { imm := BitVec.ofNat 32 imm, sub7 := BitVec.ofNat 7 sub7, d := BitVec.ofNat 8 d, cf := 15, dist := 0 }

/-- A C16 instruction. -/
def c16 (vd vb : Nat) : C16 := { vb := BitVec.ofNat 5 vb, vd := BitVec.ofNat 5 vd, d4 := false }

/-- A page of 256 MiB of frame space, placed on die 0 alone. -/
def page : TransReg :=
  { TransReg.reset with limit := BitVec.ofNat 33 (2 ^ 28), pw := 0xFF01, valid := true, perm := 3, psize := 4 }

/-- A wave of 16 lanes with 64 vector registers, four translation registers and one defined function register. -/
def wave : Wave :=
  { Wave.reset with
    slot := 0, gslot := 0, priv := false, idle := false, vregs := 64, pwords := 8, granules := 3, pc := 0x100, uid := 400,
    tr := [(0, page), (1, page), (2, page)] }

/-- Its group: 64 KiB of scratchpad, 64 KiB of accumulators and four tiles. -/
def group : Group := { noGroup with spadLen := 65536, accLen := 65536, tiles := [0, 1, 2, 3], waves := 1 }

/-- Its launch: every tag, and four descriptors. -/
def theLaunch : Launch :=
  { noLaunch with vregs := 64, fpool := 1, spad := 64, acc := 64, tiles := 4, btags := 0xFF, cmask := [0], started := true,
                  desc := List.replicate 256 0, args := List.replicate 64 0 }

/-- A module at work, every feature accepted, that wave in focus. -/
def small : State :=
  { State.reset with
    wave := wave, groups := [(0, group)], launches := [(0, theLaunch)], mgmt := { Mgmt.reset with featacc := 0xFF },
    boot := { Boot.reset with state := 4 } }

/-- The same with the wave changed. -/
def withWave (f : Wave → Wave) : State := { small with wave := f small.wave }

/-- The agent of core 0 in focus. -/
def agent : State := { small with wave := { Wave.reset with idle := false, pc := 0x100, tr := [(0, page), (1, page), (2, page)] } }

/-- The wave in its handler. -/
def inHandler : State := withWave fun w => { w with recovery := true }


/-! ### Decoding: words written out from the opcode map, the compact index and the field tables (R68 to R82) -/

/-- Each word, of so many bits, decodes to the instruction beside it. -/
def decodesTo (l : List (Nat × Nat × Instr)) : Bool := l.all fun x => decodeTableWord x.1 x.2.1 == some x.2.2

theorem test_decode_1 : decodesTo [
   (32, 0x00000001, .nopK32 (k32 0 0)), (64, 0x00000000000001E3, .nopL64 (l64 0 0 0)),
   (64, 0x00000000040003E3, .smov (g64 0 2 0 0 0 0 0)), (32, 0x00008041, .smoviK32 (k32 4 0)),
   (64, 0x00000000000805E3, .smoviL64 (l64 4 0 0)), (32, 0x00008061, .saddK32 (k32 4 0)),
   (64, 0x00000008040007E3, .saddG64 (g64 0 2 4 0 0 0 0)), (32, 0x00008081, .ssubK32 (k32 4 0)),
   (64, 0x00000008040009E3, .ssubG64 (g64 0 2 4 0 0 0 0)), (32, 0x000080A1, .smulK32 (k32 4 0)),
   (64, 0x0000000804000BE3, .smulG64 (g64 0 2 4 0 0 0 0)), (64, 0x0000000804000DE3, .smulh (g64 0 2 4 0 0 0 0)),
   (32, 0x000080E1, .sandK32 (k32 4 0)), (64, 0x0000000804000FE3, .sandG64 (g64 0 2 4 0 0 0 0)),
   (32, 0x00008101, .sorK32 (k32 4 0)), (64, 0x00000008040011E3, .sorG64 (g64 0 2 4 0 0 0 0)),
   (32, 0x00008121, .sxorK32 (k32 4 0)), (64, 0x00000008040013E3, .sxorG64 (g64 0 2 4 0 0 0 0)),
   (32, 0x00008141, .sshlK32 (k32 4 0)), (64, 0x00000008040015E3, .sshlG64 (g64 0 2 4 0 0 0 0)),
   (32, 0x00008161, .sshrK32 (k32 4 0)), (64, 0x00000008040017E3, .sshrG64 (g64 0 2 4 0 0 0 0)),
   (32, 0x00008181, .scmpK32 (k32 4 0)), (64, 0x00000000000819E3, .scmpL64 (l64 4 0 0))] = true := by decide +kernel

theorem test_decode_2 : decodesTo [
   (64, 0x0000000804001BE3, .ssel (g64 0 2 4 0 0 0 0)), (64, 0x0000000804001DE3, .sminmax (g64 0 2 4 0 0 0 0)),
   (64, 0x00000C0804001FE3, .sbfx (g64 0 2 4 6 0 0 0)), (32, 0x00010201, .braB32 (b32 8)),
   (64, 0x00000000000021E3, .braL64 (l64 0 0 0)), (32, 0x00010221, .brcB32 (b32 8)),
   (64, 0x00000000000023E3, .brcL64 (l64 0 0 0)), (32, 0x00300241, .brmB32 (b32 384)),
   (64, 0x00000000000825E3, .brmL64 (l64 4 0 0)), (32, 0x00010261, .callB32 (b32 8)),
   (64, 0x00000000000027E3, .callL64 (l64 0 0 0)), (32, 0x00008281, .ret (k32 4 0)),
   (32, 0x000082A1, .jmpi (k32 4 0)), (64, 0x0000000804002DE3, .mlog (g64 0 2 4 0 0 0 0)),
   (64, 0x0000000004002FE3, .mmov (g64 0 2 0 0 0 0 0)), (64, 0x00000000040031E3, .mcnt (g64 0 2 0 0 0 0 0)),
   (32, 0x00008321, .srd (k32 4 0)), (32, 0x01008341, .swr (k32 4 8)), (64, 0x00000000000037E3, .wait (l64 0 0 0)),
   (32, 0x00000381, .bart (k32 0 0)), (64, 0x0000000000083BE3, .loop (l64 4 0 0)), (32, 0x000003C1, .exit (k32 0 0)),
   (32, 0x000003E1, .yield (k32 0 0)), (32, 0x00008401, .vaddK32 (k32 4 0))] = true := by decide +kernel

theorem test_decode_3 : decodesTo [
   (64, 0x00000008040041E3, .vaddG64 (g64 0 2 4 0 0 0 0)), (16, 0x8204, .vaddC16 (c16 8 16)),
   (32, 0x00008421, .vsubK32 (k32 4 0)), (64, 0x00000008040043E3, .vsubG64 (g64 0 2 4 0 0 0 0)),
   (16, 0x8208, .vsubC16 (c16 8 16)), (64, 0x00000008040045E3, .vmul (g64 0 2 4 0 0 0 0)),
   (16, 0x820C, .vmulC16 (c16 8 16)), (64, 0x00000008040047E3, .vmulh (g64 0 2 4 0 0 0 0)),
   (64, 0x00000C08040049E3, .vmad (g64 0 2 4 6 0 0 0)), (32, 0x000084A1, .vandK32 (k32 4 0)),
   (64, 0x0000000804004BE3, .vandG64 (g64 0 2 4 0 0 0 0)), (16, 0x8210, .vandC16 (c16 8 16)),
   (32, 0x000084C1, .vorK32 (k32 4 0)), (64, 0x0000000804004DE3, .vorG64 (g64 0 2 4 0 0 0 0)),
   (16, 0x8214, .vorC16 (c16 8 16)), (32, 0x000084E1, .vxorK32 (k32 4 0)),
   (64, 0x0000000804004FE3, .vxorG64 (g64 0 2 4 0 0 0 0)), (16, 0x8218, .vxorC16 (c16 8 16)),
   (64, 0x00000008040051E3, .vshl (g64 0 2 4 0 0 0 0)), (16, 0x821C, .vshlC16 (c16 8 16)),
   (64, 0x00000008040053E3, .vshr (g64 0 2 4 0 0 0 0)), (16, 0x8220, .vshrC16 (c16 8 16)),
   (64, 0x00000008040055E3, .vmin (g64 0 2 4 0 0 0 0)), (16, 0x8224, .vminC16 (c16 8 16))] = true := by decide +kernel

theorem test_decode_4 : decodesTo [
   (64, 0x00000008040057E3, .vmax (g64 0 2 4 0 0 0 0)), (16, 0x8228, .vmaxC16 (c16 8 16)),
   (64, 0x00000C08040059E3, .vbfx (g64 0 2 4 6 0 0 0)), (64, 0x0000000004005BE3, .vpopc (g64 0 2 0 0 0 0 0)),
   (64, 0x00000C0804005DE3, .vsel (g64 0 2 4 6 0 0 0)), (32, 0x000085E1, .vcmpiK32 (k32 4 0)),
   (64, 0x0000000804005FE3, .vcmpiG64 (g64 0 2 4 0 0 0 0)), (64, 0x00000008040061E3, .fadd (g64 0 2 4 0 0 0 0)),
   (16, 0x822C, .faddC16 (c16 8 16)), (64, 0x00000008040063E3, .fsub (g64 0 2 4 0 0 0 0)),
   (16, 0x8230, .fsubC16 (c16 8 16)), (64, 0x00000008040065E3, .fmul (g64 0 2 4 0 0 0 0)),
   (16, 0x8234, .fmulC16 (c16 8 16)), (64, 0x00000C08040067E3, .ffma (g64 0 2 4 6 0 0 0)),
   (64, 0x00000008040069E3, .fmin (g64 0 2 4 0 0 0 0)), (16, 0x8238, .fminC16 (c16 8 16)),
   (64, 0x0000000804006BE3, .fmax (g64 0 2 4 0 0 0 0)), (16, 0x823C, .fmaxC16 (c16 8 16)),
   (64, 0x0000000804006DE3, .fcmp (g64 0 2 4 0 0 0 0)), (64, 0x0000000004006FE3, .fclass (g64 0 2 0 0 0 0 0)),
   (64, 0x00000000040071E3, .frnd (g64 0 2 0 0 0 0 0)), (64, 0x00000C08040073E3, .fmed3 (g64 0 2 4 6 0 0 0)),
   (64, 0x00000C08040075E3, .flerp (g64 0 2 4 6 0 0 0)), (64, 0x00000C08040077E3, .fdot2 (g64 0 2 4 6 0 0 0))] = true := by decide +kernel

theorem test_decode_5 : decodesTo [
   (64, 0x00000008040079E3, .fpk (g64 0 2 4 0 0 0 0)), (64, 0x0000000804007BE3, .hadd2 (g64 0 2 4 0 0 0 0)),
   (64, 0x0000000804007DE3, .hmul2 (g64 0 2 4 0 0 0 0)), (64, 0x00000C0804007FE3, .hfma2 (g64 0 2 4 6 0 0 0)),
   (64, 0x00400C08040081E3, .cvt (g64 0 2 4 6 0 4 0)), (64, 0x06000C08040083E3, .cvtq (g64 0 2 4 6 6 0 0)),
   (64, 0x00000000040085E3, .frcp (g64 0 2 0 0 0 0 0)), (64, 0x00000000040087E3, .frsq (g64 0 2 0 0 0 0 0)),
   (64, 0x00000000040089E3, .fsqrt (g64 0 2 0 0 0 0 0)), (64, 0x0000000004008BE3, .flog2 (g64 0 2 0 0 0 0 0)),
   (64, 0x0000000004008DE3, .fexp2 (g64 0 2 0 0 0 0 0)), (64, 0x0000000004008FE3, .fsin (g64 0 2 0 0 0 0 0)),
   (64, 0x00000000040091E3, .fcos (g64 0 2 0 0 0 0 0)), (64, 0x00000000040093E3, .ftanh (g64 0 2 0 0 0 0 0)),
   (64, 0x00000008040095E3, .fdiv (g64 0 2 4 0 0 0 0)), (64, 0x00000008040097E3, .idiv (g64 0 2 4 0 0 0 0)),
   (64, 0x00000008040099E3, .vrand (g64 0 2 4 0 0 0 0)), (64, 0x0000000804009BE3, .vsobol (g64 0 2 4 0 0 0 0)),
   (32, 0x000089C1, .vmoviK32 (k32 4 0)), (64, 0x0000000000089DE3, .vmoviL64 (l64 4 0 0)),
   (64, 0x0000000804009FE3, .vmov (g64 0 2 4 0 0 0 0)), (16, 0x8200, .vmovC16 (c16 8 16)),
   (64, 0x000000000400A1E3, .vmovx (g64 0 2 0 0 0 0 0)), (64, 0x000000000400A3E3, .xset (g64 0 2 0 0 0 0 0))] = true := by decide +kernel

theorem test_decode_6 : decodesTo [
   (64, 0x000008100002A5E3, .xbnd (l64 1 0 2064)), (64, 0x000000000400A7E3, .vtrn (g64 0 2 0 0 0 0 0)),
   (64, 0x000000080400A9E3, .vpack (g64 0 2 4 0 0 0 0)), (64, 0x000000000400ABE3, .vunpk (g64 0 2 0 0 0 0 0)),
   (64, 0x00000C080400ADE3, .vbyte (g64 0 2 4 6 0 0 0)), (64, 0x000400080400AFE3, .vext (g64 0 2 4 0 0 0 2)),
   (64, 0x000600080400B1E3, .vins (g64 0 2 4 0 0 0 3)), (64, 0x00000C080400B3E3, .vaddc (g64 0 2 4 6 0 0 0)),
   (64, 0x00000C080400B5E3, .vsubb (g64 0 2 4 6 0 0 0)), (64, 0x000000080400B7E3, .vmul64 (g64 0 2 4 0 0 0 0)),
   (64, 0x000000080400B9E3, .vshl64 (g64 0 2 4 0 0 0 0)), (64, 0x000000080400BBE3, .vshr64 (g64 0 2 4 0 0 0 0)),
   (64, 0x000000080400BDE3, .vcmp64 (g64 0 2 4 0 0 0 0)), (64, 0x000000080400BFE3, .vabsd (g64 0 2 4 0 0 0 0)),
   (64, 0x000000080400C1E3, .shfl (g64 0 2 4 0 0 0 0)), (64, 0x000000000400C3E3, .vote (g64 0 2 0 0 0 0 0)),
   (64, 0x000000000400C5E3, .ballot (g64 0 2 0 0 0 0 0)), (64, 0x000000000400C7E3, .matchLanes (g64 0 2 0 0 0 0 0)),
   (64, 0x000000000400C9E3, .red (g64 0 2 0 0 0 0 0)), (64, 0x000000000400CBE3, .scan (g64 0 2 0 0 0 0 0)),
   (64, 0x000000000400CDE3, .fred (g64 0 2 0 0 0 0 0)), (64, 0x000400080400CFE3, .bcast (g64 0 2 4 0 0 0 2)),
   (64, 0x00000C000400D1E3, .qswz (g64 0 2 0 6 0 0 0)), (64, 0x000000000400D3E3, .vcompact (g64 0 2 0 0 0 0 0))] = true := by decide +kernel

theorem test_decode_7 : decodesTo [
   (32, 0x00000D41, .laclr (k32 0 0)), (64, 0x000000000400D7E3, .laadd (g64 0 2 0 0 0 0 0)),
   (64, 0x000000080400D9E3, .lafma (g64 0 2 4 0 0 0 0)), (64, 0x000000000000DBE3, .lard (g64 0 0 0 0 0 0 0)),
   (64, 0x000000000000DDE3, .lasave (g64 0 0 0 0 0 0 0)), (64, 0x000000000400DFE3, .larst (g64 0 2 0 0 0 0 0)),
   (64, 0x000600080400E1E3, .fndef (g64 0 2 4 0 0 0 3)), (32, 0x00008E21, .fnfree (k32 4 0)),
   (64, 0x000000000400E5E3, .fnfit (g64 0 2 0 0 0 0 0)), (64, 0x000000000400E7E3, .fnld (g64 0 2 0 0 0 0 0)),
   (64, 0x000000000400E9E3, .fnst (g64 0 2 0 0 0 0 0)), (64, 0x000000080400EBE3, .fnadd (g64 0 2 4 0 0 0 0)),
   (64, 0x000000080400EDE3, .fnmul (g64 0 2 4 0 0 0 0)), (64, 0x00000C080400EFE3, .fnscl (g64 0 2 4 6 0 0 0)),
   (64, 0x000000080400F1E3, .fncomp (g64 0 2 4 0 0 0 0)), (64, 0x000000000400F3E3, .fnint (g64 0 2 0 0 0 0 0)),
   (64, 0x000000000400F5E3, .fnder (g64 0 2 0 0 0 0 0)), (64, 0x000000080400F7E3, .fneval (g64 0 2 4 0 0 0 0)),
   (64, 0x000000080400F9E3, .fnroot (g64 0 2 4 0 0 0 0)), (64, 0x000000000400FBE3, .fnext (g64 0 2 0 0 0 0 0)),
   (64, 0x000C0C080400FDE3, .fnrestr (g64 0 2 4 6 0 0 6)), (64, 0x000400080400FFE3, .fncoef (g64 0 2 4 0 0 0 2)),
   (64, 0x00000000040101E3, .ld (m64 0 2 0 0 0 0 0 0 0)), (64, 0x00000000040103E3, .st (m64 0 2 0 0 0 0 0 0 0))] = true := by decide +kernel

theorem test_decode_8 : decodesTo [
   (64, 0x00000000040105E3, .lds (m64 0 2 0 0 0 0 0 0 0)), (64, 0x00000000040107E3, .sts (m64 0 2 0 0 0 0 0 0 0)),
   (64, 0x00001010040109E3, .ldk (m64 0 2 0 2 0 0 0 0 1)), (64, 0x0000100004010BE3, .atom (m64 0 2 0 2 0 0 0 0 0)),
   (64, 0x0000100004010DE3, .atomn (m64 0 2 0 2 0 0 0 0 0)),
   (64, 0x0000100004010FE3, .atoms (m64 0 2 0 2 0 0 0 0 0)), (64, 0x00001000040111E3, .cas (m64 0 2 0 2 0 0 0 0 0)),
   (64, 0x00000100000113E3, .fence (m64 0 0 0 0 1 0 0 0 0)),
   (64, 0x00000010040115E3, .trans (m64 0 2 0 0 0 0 0 0 1)),
   (64, 0x00000000000117E3, .trinv (m64 0 0 0 0 0 0 0 0 0)), (64, 0x00000000040119E3, .pref (m64 0 2 0 0 0 0 0 0 0)),
   (64, 0x0000800004011BE3, .cache (m64 0 2 0 0 0 0 2 0 0)), (64, 0x0000000004011DE3, .cpa (m64 0 2 0 0 0 0 0 0 0)),
   (32, 0x800091E1, .cpcommit (k32 4 1024)), (64, 0x00000010000121E3, .cpb (m64 0 0 0 0 0 0 0 0 1)),
   (64, 0x00000010000123E3, .cpr (m64 0 0 0 0 0 0 0 0 1)), (64, 0x00000010040125E3, .cpsm (m64 0 2 0 0 0 0 0 0 1)),
   (32, 0x00009261, .cwprd (k32 4 0)), (64, 0x00000010040129E3, .binit (m64 0 2 0 0 0 0 0 0 1)),
   (64, 0x0000001004012BE3, .barr (m64 0 2 0 0 0 0 0 0 1)), (64, 0x0000001004012DE3, .bwait (m64 0 2 0 0 0 0 0 0 1)),
   (64, 0x0000001004012FE3, .bexp (m64 0 2 0 0 0 0 0 0 1)), (64, 0x00000010040131E3, .seal (m64 0 2 0 0 0 0 0 0 1)),
   (64, 0x00000010040133E3, .unseal (m64 0 2 0 0 0 0 0 0 1))] = true := by decide +kernel

theorem test_decode_9 : decodesTo [
   (64, 0x00000010040135E3, .worel (m64 0 2 0 0 0 0 0 0 1)), (64, 0x00000010040137E3, .smap (m64 0 2 0 0 0 0 0 0 1)),
   (64, 0x00000010040139E3, .sunmap (m64 0 2 0 0 0 0 0 0 1)), (64, 0x0000001004013BE3, .enq (m64 0 2 0 0 0 0 0 0 1)),
   (64, 0x0000001004013DE3, .deq (m64 0 2 0 0 0 0 0 0 1)), (32, 0x000093E1, .fetchw (k32 4 0)),
   (64, 0x00000C08040141E3, .tcfg (g64 0 2 4 6 0 0 0)), (64, 0x00060008040143E3, .tld (g64 0 2 4 0 0 0 3)),
   (64, 0x00060008040145E3, .tst (g64 0 2 4 0 0 0 3)), (64, 0x00000000000147E3, .tzero (g64 0 0 0 0 0 0 0)),
   (64, 0x00040008040149E3, .tmovv (g64 0 2 4 0 0 0 2)), (64, 0x0004000804014BE3, .vmovt (g64 0 2 4 0 0 0 2)),
   (64, 0x00080C0004014DE3, .mma (g64 0 2 0 6 0 0 4)), (64, 0x00080C0004014FE3, .mmas (g64 0 2 0 6 0 0 4)),
   (64, 0x00080C00040151E3, .mmat (g64 0 2 0 6 0 0 4)), (64, 0x00080C00040153E3, .mmax (g64 0 2 0 6 0 0 4)),
   (64, 0x000E0C08040155E3, .accld (g64 0 2 4 6 0 0 7)), (64, 0x000E0C08040157E3, .accst (g64 0 2 4 6 0 0 7)),
   (64, 0x000E0C08040159E3, .accq (g64 0 2 4 6 0 0 7)), (64, 0x0000000004015BE3, .ttrl (g64 0 2 0 0 0 0 0)),
   (64, 0x000E0C0804015DE3, .tscl (g64 0 2 4 6 0 0 7)), (64, 0x0000000004015FE3, .txp (g64 0 2 0 0 0 0 0)),
   (64, 0x00020000040161E3, .dice (g64 0 2 0 0 0 0 1)), (64, 0x00020000040163E3, .gridacq (g64 0 2 0 0 0 0 1))] = true := by decide +kernel

theorem test_decode_10 : decodesTo [
   (64, 0x00020000040165E3, .gridrel (g64 0 2 0 0 0 0 1)), (64, 0x00060008040167E3, .rast (g64 0 2 4 0 0 0 3)),
   (64, 0x00040008040169E3, .rayq (g64 0 2 4 0 0 0 2)), (64, 0x0000000000016BE3, .rayrd (g64 0 0 0 0 0 0 0)),
   (64, 0x0102000004016DE3, .bkt (g64 0 2 0 0 1 0 1)), (64, 0x0002000004016FE3, .spill (g64 0 2 0 0 0 0 1)),
   (32, 0x00887701, .rep { stc := 0, stb := 1, sta := 0, std := 1, cnt := 3, dist := 0 }),
   (32, 0x0A055721, .pblk { sense := true, cm := 2, pat := 5, cnt := 2, dist := 0 }),
   (32, 0x00001741, .trap (k32 0 0)), (32, 0x00001761, .rte (k32 0 0)), (32, 0x00009781, .prd (k32 4 0)),
   (32, 0x000097A1, .pwr (k32 4 0)), (32, 0x000017C1, .bkpt (k32 0 0)), (32, 0x000097E1, .logev (k32 4 0))] = true := by decide +kernel

/-! ### Decoding: words that the spec itself writes out, with what it says of them -/

theorem test_decode_spec_words_1 : decodesTo [
  (64, 0x00040004000241F3, .vaddG64 { g64 1 0 2 0 0 0 2 with dist := 4 }), (32, 0x00208061, .saddK32 (k32 4 1)),
  (32, 0x7D0825F1, .vcmpiK32 { k32 0x41 1000 with dist := 4 }),
  (32, 0x00887701, .rep { stc := 0, stb := 1, sta := 0, std := 1, cnt := 3, dist := 0 }), (16, 0x822C, .faddC16 (c16 8 16)),
  (16, 0x8606, .vaddC16 { c16 24 16 with d4 := true }), (64, 0x7F400000000805E3, .smoviL64 (l64 4 0 0x7F400000)),
  (64, 0xFFFFFFFD000A3BE3, .loop (l64 5 0 0xFFFFFFFD)), (64, 0x0000000200002DF3, .mlog { g64 0 0 1 0 0 0 0 with dist := 4 }),
  (32, 0x00300249, .brmB32 { b32 384 with dist := 2 }), (64, 0x01001002041101E3, .ld (m64 8 2 1 2 0 0 0 64 0)),
  (64, 0x00000010080115EB, .trans { m64 0 4 0 0 0 0 0 0 1 with dist := 2 }),
  (64, 0x1000280006071DF3, .cpa { m64 3 3 0 5 0 0 0 0x400 0 with dist := 4 }),
  (64, 0x00002800022105EB, .lds { m64 16 1 0 5 0 0 0 0 0 with dist := 2 }), (32, 0x000011E1, .cpcommit (k32 0 0)),
  (32, 0x00015261, .cwprd (k32 10 0)), (32, 0x0000D3E1, .fetchw (k32 6 0)), (64, 0x00003E1E060141E3, .tcfg (g64 0 3 15 31 0 0 0)),
  (64, 0x00020000140143EB, .tld { g64 0 10 0 0 0 0 1 with dist := 2 }), (64, 0x0018140200014DE3, .mma (g64 0 0 1 10 0 1 4)),
  (64, 0x00060014140B57E3, .accst (g64 5 10 10 0 0 0 3)), (64, 0x001000000A06C9E3, .red (g64 3 5 0 0 0 1 0))] = true := by
  decide +kernel

theorem test_decode_spec_words_2 : decodesTo [
  (64, 0x0107D9030000E1E3, .fndef (g64 0 128 129 0xEC 1 0 3)), (64, 0x000000000800E413, .fnfit { g64 0 4 0 0 0 0 0 with cf := 0, dist := 4 }),
  (64, 0x0000000E000CF603, .fneval { g64 6 0 7 0 0 0 0 with cf := 0 }), (64, 0x000000020004F1E3, .fncomp (g64 2 0 1 0 0 0 0)),
  (64, 0x000401020610F9E3, .fnroot (g64 8 3 129 0 0 0 2)), (64, 0x000C29000202FDE3, .fnrestr (g64 1 1 128 20 0 0 6)),
  (64, 0x00020000102961E3, .dice (g64 20 8 0 0 0 0 1)), (64, 0x0006002810016603, .rast { g64 0 8 20 0 0 0 3 with cf := 0 }),
  (64, 0x0114003C50016823, .rayq { g64 0 40 30 0 1 1 2 with cf := 1 }), (32, 0x00A01741, .trap (k32 0 5)),
  (32, 0x00001761, .rte (k32 0 0)), (32, 0x00809781, .prd (k32 4 4)), (32, 0x00E017C1, .bkpt (k32 0 7)),
  (32, 0x00004E21, .fnfree (k32 2 0)), (32, 0x00000D41, .laclr (k32 0 0)), (32, 0x01000381, .bart (k32 0 8)),
  (64, 0x0004010200024BF3, .vandG64 { g64 1 0 129 0 0 0 2 with dist := 4 }), (32, 0x000025F1, .vcmpiK32 { k32 1 0 with dist := 4 }),
  (64, 0x00200000000881F3, .cvt { g64 4 0 0 0 0 2 0 with dist := 4 }), (64, 0x02400C0E0A0C81E3, .cvt (g64 6 5 7 6 2 4 0)),
  (64, 0x000008100002A5E3, .xbnd (l64 1 0 0x810)), (64, 0x0000100004070DE3, .atomn (m64 3 2 0 2 0 0 0 0 0)),
  (64, 0x00000010504123E3, .cpr (m64 32 40 0 0 0 0 0 0 1)), (64, 0x00004010504523E3, .cpr (m64 34 40 0 0 0 0 1 0 1)),
  (64, 0x00000FFF000037E3, .wait (l64 0 0 0xFFF)), (64, 0x0001FFFF000037E3, .wait (l64 0 0 0x1FFFF))] = true := by
  decide +kernel

/-- Words that are no instruction: opcodes without the form of
their length (R82), fields out of range (R83), reserved bits of REP and PBLK (R79, R80), the word that the re-striping
program prints for CPR.end (log entry 129), and bytes that end too early. -/
theorem test_decode_refuses :
    ([(64, 0x00004010504423E3), (32, 0x00000001 + 0x16 * 32), (32, 0x1 + 0xC0 * 32), (64, 0x1E3 + 0x14 * 512), (64, 0x1E3 + 0xB8 * 512), (64, 0x1E3 + 0xFF * 512),
      (32, 0x00200001), (32, 0x08001701), (32, 0x10001721), (64, 0x00000000000003C3)] : List (Nat × Nat)).all
      (fun x => decodeTableWord x.1 x.2 == none) = true ∧
    decode [0x61, 0x80, 0x20] = .error .tooShort ∧ decode [] = .error .tooShort ∧ decode [0x03, 0, 0, 0, 0, 0, 0] = .error .tooShort := by
  decide +kernel

/-! ### Well-formedness: an ill-formed instruction for each check -/

/-- None of these is well-formed. -/
def illFormed (l : List Instr) : Bool := l.all fun i => !decide (WellFormed i)

/-- Scalar fields: a number from 64 to 127, an odd pair, a constant as a destination, a class bit where none stands (R68, R69, R104). -/
theorem test_wf_scalars : illFormed [
  .saddK32 (k32 64 0), .smov (g64 64 0 0 0 0 0 0), .smov (g64 128 0 0 0 0 0 0), .smov (g64 0 64 0 0 0 0 0), .smov (g64 0 127 0 0 0 0 0),
  .smov (g64 0 1 0 0 0 1 0), .smov (g64 1 0 0 0 0 1 0), .smov (g64 0 0 0 0 0 0 1), .ret (k32 3 0), .jmpi (k32 64 0), .scmpK32 (k32 1 64),
  .ldk (m64 1 0 0 3 0 0 0 0 1), .vext (g64 64 0 0 0 0 0 2), .vext (g64 0 0 0 0 0 0 0), .ballot (g64 1 0 0 0 0 0 0),
  .cpb (m64 0 4 0 0 0 0 0 0 1), .enq (m64 4 0 0 0 0 0 0 0 1)] = true := by decide +kernel

/-- Vector, mask, index, function, tile and descriptor fields out of range or not aligned (R68). -/
theorem test_wf_registers : illFormed [
  .ld (m64 255 0 0 3 0 0 0 0 0), .ld (m64 1 0 0 3 0 0 0 0 0), .vtrn (g64 255 0 0 0 0 0 0), .vshl64 (g64 255 0 0 0 0 0 0),
  .mlog (g64 9 0 0 0 0 0 0), .mlog (g64 0 9 0 0 0 0 0), .vsel (g64 0 0 0 9 0 0 0), .vaddc (g64 0 0 0 0 0 0 0), .brmB32 (b32 (9 * 4)),
  .brmL64 (l64 9 0 0), .vmovx (g64 0 8 0 0 0 0 0), .xset (g64 8 0 0 0 0 0 0), .xbnd (l64 8 0 0x100), .fnadd (g64 16 0 0 0 0 0 0),
  .fnfree (k32 16 0), .tzero (g64 16 0 0 0 0 0 0), .mma (g64 0 16 0 0 0 0 4)] = true := by decide +kernel

/-- SUB, MOD, CF, XE and XI, and fields that an instruction does not use (R70, R76, R81). -/
theorem test_wf_modifiers : illFormed [
  .smov (g64 0 0 0 0 1 0 0), .saddG64 (g64 0 0 0 0 3 0 0), .saddG64 (g64 0 0 0 0 0 2 0), .smulG64 (g64 0 0 0 0 0 1 0),
  .vaddG64 (g64 0 0 0 0 0 3 0), .vaddG64 (g64 0 0 0 0 3 0 0), .vaddG64 (g64 0 0 0 1 0 0 0), .vaddG64 { g64 0 0 0 0 0 0 0 with cf := 0 },
  .fsqrt { g64 0 0 0 0 0 0 0 with cf := 8 }, .vaddG64 { g64 0 0 0 0 0 0 0 with xi := 1 }, .vaddG64 { g64 0 1 0 0 0 0 0 with xe := true },
  .vaddG64 { g64 0 0 0 0 0 0 1 with xe := true }, .smov { g64 0 0 0 0 0 0 0 with xe := true }, .cvt (g64 0 0 0 7 0 0 0),
  .cvt (g64 0 0 0 8 0 1 0), .cvt (g64 0 0 0 0 13 0 0), .vsobol (g64 0 0 0 0 5 0 0), .fndef (g64 0 128 129 1 0 0 3),
  .tcfg (g64 0 0 0 0 0 2 0), .rayq (g64 0 0 0 0 0 4 2)] = true := by decide +kernel

/-- Immediates of the short and long forms (R73 to R75), and special and privileged register numbers (R118, R394). -/
theorem test_wf_immediates : illFormed [
  .nopK32 (k32 0 1), .nopL64 { l64 0 0 0 with cf := 0 }, .smoviL64 (l64 0 2 0), .smoviL64 (l64 1 1 0), .sshlK32 (k32 0 32), .sshrK32 (k32 0 64),
  .scmpK32 (k32 0 1024), .scmpL64 (l64 0 16 0), .braL64 (l64 1 0 0), .brcL64 (l64 0 2 0), .callL64 (l64 0 1 0), .wait (l64 0 0 0x1000000),
  .wait (l64 1 0 0), .bart (k32 0 16), .bart (k32 1 0), .loop (l64 64 0 0), .exit (k32 0 2), .yield (k32 0 1024), .xbnd (l64 0 0 0),
  .xbnd (l64 0 0 0x10100), .xbnd (l64 0 0 0x20000), .srd (k32 0 13), .srd (k32 0 1), .srd (k32 0 512), .srd (k32 1 0), .swr (k32 0 0),
  .swr (k32 1 12), .cpcommit (k32 0 1), .cwprd (k32 1 0), .fetchw (k32 0 1), .prd (k32 0 3), .pwr (k32 1 4), .rte (k32 0 1), .laclr (k32 1 0)] =
    true := by decide +kernel

/-- The fields of a memory instruction (R77, R254 to R263). -/
theorem test_wf_memory : illFormed [
  .ld (m64 0 0 0 6 0 0 0 0 0), .ld (m64 0 0 0 2 2 0 0 0 0), .ld (m64 0 0 0 2 0 1 0 0 0), .ld (m64 0 0 0 2 1 6 0 0 0), .ld (m64 0 0 0 2 0 0 3 0 0),
  .ld (m64 0 0 0 2 0 0 4 0 0), .ld (m64 0 0 0 2 0 0 8 0 0), .st (m64 0 0 0 2 1 0 0 0 0), .st (m64 0 0 0 2 0 0 1 0 0), .lds (m64 0 0 1 2 0 0 0 0 0),
  .ldk (m64 0 0 0 1 0 0 0 0 1), .ldk (m64 0 0 0 2 0 0 0 0 0), .atom (m64 0 0 0 1 0 0 0 0 0), .atom (m64 0 0 0 3 0 0 15 0 0),
  .cas (m64 2 0 0 3 0 0 0 0 0), .cas (m64 0 0 1 2 0 0 1 0 0), .fence (m64 0 0 0 0 0 0 0 0 0), .fence (m64 0 0 0 0 1 0 0 1 0),
  .trinv (m64 0 0 1 0 0 0 1 0 0), .cache (m64 0 0 1 0 0 0 0 0 0), .cpa (m64 0 0 0 0 0 0 1 0 0), .cpb (m64 0 0 0 0 0 0 4 0 1),
  .cpsm (m64 0 0 0 0 0 0 7 0 1), .binit (m64 1 0 0 0 0 0 1 0 1), .barr (m64 0 0 0 0 1 0 0 0 1), .sunmap (m64 1 0 0 0 0 0 0 0 1)] = true := by
  decide +kernel

/-- Steps of other agents have no words. -/
theorem test_event_has_no_words : ¬HasWords (.launchStart 0) ∧ encode (.vblank 0) = [] := by decide +kernel

/-! ### Ready instructions (R83) -/

/-- `Ready`, as a Bool. -/
def readyB (s : State) (i : Instr) : Bool :=
  s.wave.held.isNone && s.wave.hold == .none && s.check i == none && (!s.wave.pblk.isSome || s.wave.act != 0) &&
    !(s.wave.countersFull (classOf (insOp i)) (insCf i) || s.wave.commitFull i) && s.wave.vbad.isEmpty

theorem ready_iff {s : State} {i : Instr} : Claims.Ready i s ↔ readyB s i = true := by
  cases hp : s.wave.pblk.isSome <;> simp [Claims.Ready, readyB, hp, and_assoc]

theorem ready_of {s : State} {i : Instr} (h : readyB s i = true) : Claims.Ready i s := ready_iff.mpr h

theorem ready_all {s : State} {l : List Instr} (h : l.all (readyB s) = true) : ∀ i ∈ l, Claims.Ready i s :=
  fun i hi => ready_of (List.all_eq_true.mp h i hi)

/-- Instructions that the wave of `small` can execute. -/
def readyList1 : List Instr := [
   .nopK32 (k32 0 0), .nopL64 (l64 0 0 0), .smov (g64 0 2 0 0 0 0 0), .smoviK32 (k32 4 0), .smoviL64 (l64 4 0 0),
   .saddK32 (k32 4 0), .saddG64 (g64 0 2 4 0 0 0 0), .ssubK32 (k32 4 0), .ssubG64 (g64 0 2 4 0 0 0 0),
   .smulK32 (k32 4 0), .smulG64 (g64 0 2 4 0 0 0 0), .smulh (g64 0 2 4 0 0 0 0), .sandK32 (k32 4 0),
   .sandG64 (g64 0 2 4 0 0 0 0), .sorK32 (k32 4 0), .sorG64 (g64 0 2 4 0 0 0 0), .sxorK32 (k32 4 0),
   .sxorG64 (g64 0 2 4 0 0 0 0), .sshlK32 (k32 4 0), .sshlG64 (g64 0 2 4 0 0 0 0), .sshrK32 (k32 4 0),
   .sshrG64 (g64 0 2 4 0 0 0 0), .scmpK32 (k32 4 0), .scmpL64 (l64 4 0 0), .ssel (g64 0 2 4 0 0 0 0),
   .sminmax (g64 0 2 4 0 0 0 0), .sbfx (g64 0 2 4 6 0 0 0), .braB32 (b32 8), .braL64 (l64 0 0 0), .brcB32 (b32 8),
   .brcL64 (l64 0 0 0), .brmB32 (b32 384), .brmL64 (l64 4 0 0), .callB32 (b32 8), .callL64 (l64 0 0 0),
   .ret (k32 4 0), .jmpi (k32 4 0), .mlog (g64 0 2 4 0 0 0 0), .mmov (g64 0 2 0 0 0 0 0), .mcnt (g64 0 2 0 0 0 0 0)]

theorem test_ready_1 : ∀ i ∈ readyList1, Claims.Ready i small := ready_all (by decide +kernel)

/-- Instructions that the wave of `small` can execute. -/
def readyList2 : List Instr := [
   .srd (k32 4 0), .swr (k32 4 8), .wait (l64 0 0 0), .bart (k32 0 0), .loop (l64 4 0 0), .exit (k32 0 0),
   .yield (k32 0 0), .vaddK32 (k32 4 0), .vaddG64 (g64 0 2 4 0 0 0 0), .vaddC16 (c16 8 16), .vsubK32 (k32 4 0),
   .vsubG64 (g64 0 2 4 0 0 0 0), .vsubC16 (c16 8 16), .vmul (g64 0 2 4 0 0 0 0), .vmulC16 (c16 8 16),
   .vmulh (g64 0 2 4 0 0 0 0), .vmad (g64 0 2 4 6 0 0 0), .vandK32 (k32 4 0), .vandG64 (g64 0 2 4 0 0 0 0),
   .vandC16 (c16 8 16), .vorK32 (k32 4 0), .vorG64 (g64 0 2 4 0 0 0 0), .vorC16 (c16 8 16), .vxorK32 (k32 4 0),
   .vxorG64 (g64 0 2 4 0 0 0 0), .vxorC16 (c16 8 16), .vshl (g64 0 2 4 0 0 0 0), .vshlC16 (c16 8 16),
   .vshr (g64 0 2 4 0 0 0 0), .vshrC16 (c16 8 16), .vmin (g64 0 2 4 0 0 0 0), .vminC16 (c16 8 16),
   .vmax (g64 0 2 4 0 0 0 0), .vmaxC16 (c16 8 16), .vbfx (g64 0 2 4 6 0 0 0), .vpopc (g64 0 2 0 0 0 0 0),
   .vsel (g64 0 2 4 6 0 0 0), .vcmpiK32 (k32 4 0), .vcmpiG64 (g64 0 2 4 0 0 0 0), .fadd (g64 0 2 4 0 0 0 0)]

theorem test_ready_2 : ∀ i ∈ readyList2, Claims.Ready i small := ready_all (by decide +kernel)

/-- Instructions that the wave of `small` can execute. -/
def readyList3 : List Instr := [
   .faddC16 (c16 8 16), .fsub (g64 0 2 4 0 0 0 0), .fsubC16 (c16 8 16), .fmul (g64 0 2 4 0 0 0 0),
   .fmulC16 (c16 8 16), .ffma (g64 0 2 4 6 0 0 0), .fmin (g64 0 2 4 0 0 0 0), .fminC16 (c16 8 16),
   .fmax (g64 0 2 4 0 0 0 0), .fmaxC16 (c16 8 16), .fcmp (g64 0 2 4 0 0 0 0), .fclass (g64 0 2 0 0 0 0 0),
   .frnd (g64 0 2 0 0 0 0 0), .fmed3 (g64 0 2 4 6 0 0 0), .flerp (g64 0 2 4 6 0 0 0), .fdot2 (g64 0 2 4 6 0 0 0),
   .fpk (g64 0 2 4 0 0 0 0), .hadd2 (g64 0 2 4 0 0 0 0), .hmul2 (g64 0 2 4 0 0 0 0), .hfma2 (g64 0 2 4 6 0 0 0),
   .cvt (g64 0 2 4 6 0 4 0), .cvtq (g64 0 2 4 6 6 0 0), .frcp (g64 0 2 0 0 0 0 0), .frsq (g64 0 2 0 0 0 0 0),
   .fsqrt (g64 0 2 0 0 0 0 0), .flog2 (g64 0 2 0 0 0 0 0), .fexp2 (g64 0 2 0 0 0 0 0), .fsin (g64 0 2 0 0 0 0 0),
   .fcos (g64 0 2 0 0 0 0 0), .ftanh (g64 0 2 0 0 0 0 0), .fdiv (g64 0 2 4 0 0 0 0), .idiv (g64 0 2 4 0 0 0 0),
   .vrand (g64 0 2 4 0 0 0 0), .vsobol (g64 0 2 4 0 0 0 0), .vmoviK32 (k32 4 0), .vmoviL64 (l64 4 0 0),
   .vmov (g64 0 2 4 0 0 0 0), .vmovC16 (c16 8 16), .vmovx (g64 0 2 0 0 0 0 0), .xset (g64 0 2 0 0 0 0 0)]

theorem test_ready_3 : ∀ i ∈ readyList3, Claims.Ready i small := ready_all (by decide +kernel)

/-- Instructions that the wave of `small` can execute. -/
def readyList4 : List Instr := [
   .xbnd (l64 1 0 2064), .vtrn (g64 0 2 0 0 0 0 0), .vpack (g64 0 2 4 0 0 0 0), .vunpk (g64 0 2 0 0 0 0 0),
   .vbyte (g64 0 2 4 6 0 0 0), .vext (g64 0 2 4 0 0 0 2), .vins (g64 0 2 4 0 0 0 3), .vaddc (g64 0 2 4 6 0 0 0),
   .vsubb (g64 0 2 4 6 0 0 0), .vmul64 (g64 0 2 4 0 0 0 0), .vshl64 (g64 0 2 4 0 0 0 0), .vshr64 (g64 0 2 4 0 0 0 0),
   .vcmp64 (g64 0 2 4 0 0 0 0), .vabsd (g64 0 2 4 0 0 0 0), .shfl (g64 0 2 4 0 0 0 0), .vote (g64 0 2 0 0 0 0 0),
   .ballot (g64 0 2 0 0 0 0 0), .matchLanes (g64 0 2 0 0 0 0 0), .red (g64 0 2 0 0 0 0 0), .scan (g64 0 2 0 0 0 0 0),
   .fred (g64 0 2 0 0 0 0 0), .bcast (g64 0 2 4 0 0 0 2), .qswz (g64 0 2 0 6 0 0 0), .vcompact (g64 0 2 0 0 0 0 0),
   .laclr (k32 0 0), .laadd (g64 0 2 0 0 0 0 0), .lafma (g64 0 2 4 0 0 0 0), .lard (g64 0 0 0 0 0 0 0),
   .lasave (g64 0 0 0 0 0 0 0), .larst (g64 0 2 0 0 0 0 0), .fndef (g64 0 2 4 0 0 0 3), .fnfree (k32 4 0),
   .fnfit (g64 0 2 0 0 0 0 0), .fnld (g64 0 2 0 0 0 0 0), .fnst (g64 0 2 0 0 0 0 0), .fnadd (g64 0 2 4 0 0 0 0),
   .fnmul (g64 0 2 4 0 0 0 0), .fnscl (g64 0 2 4 6 0 0 0), .fncomp (g64 0 2 4 0 0 0 0), .fnint (g64 0 2 0 0 0 0 0)]

theorem test_ready_4 : ∀ i ∈ readyList4, Claims.Ready i small := ready_all (by decide +kernel)

/-- Instructions that the wave of `small` can execute. -/
def readyList5 : List Instr := [
   .fnder (g64 0 2 0 0 0 0 0), .fneval (g64 0 2 4 0 0 0 0), .fnroot (g64 0 2 4 0 0 0 0), .fnext (g64 0 2 0 0 0 0 0),
   .fnrestr (g64 0 2 4 6 0 0 6), .fncoef (g64 0 2 4 0 0 0 2), .ld (m64 0 2 0 0 0 0 0 0 0),
   .st (m64 0 2 0 0 0 0 0 0 0), .lds (m64 0 2 0 0 0 0 0 0 0), .sts (m64 0 2 0 0 0 0 0 0 0),
   .ldk (m64 0 2 0 2 0 0 0 0 1), .atom (m64 0 2 0 2 0 0 0 0 0), .atomn (m64 0 2 0 2 0 0 0 0 0),
   .atoms (m64 0 2 0 2 0 0 0 0 0), .cas (m64 0 2 0 2 0 0 0 0 0), .fence (m64 0 0 0 0 1 0 0 0 0),
   .trans (m64 0 2 0 0 0 0 0 0 1), .trinv (m64 0 0 0 0 0 0 0 0 0), .pref (m64 0 2 0 0 0 0 0 0 0),
   .cache (m64 0 2 0 0 0 0 2 0 0), .cpa (m64 0 2 0 0 0 0 0 0 0), .cpcommit (k32 4 1024),
   .cpb (m64 0 0 0 0 0 0 0 0 1), .cpsm (m64 0 2 0 0 0 0 0 0 1), .cwprd (k32 4 0), .binit (m64 0 2 0 0 0 0 0 0 1),
   .barr (m64 0 2 0 0 0 0 0 0 1), .bwait (m64 0 2 0 0 0 0 0 0 1), .bexp (m64 0 2 0 0 0 0 0 0 1),
   .seal (m64 0 2 0 0 0 0 0 0 1), .unseal (m64 0 2 0 0 0 0 0 0 1), .worel (m64 0 2 0 0 0 0 0 0 1),
   .smap (m64 0 2 0 0 0 0 0 0 1), .sunmap (m64 0 2 0 0 0 0 0 0 1), .enq (m64 0 2 0 0 0 0 0 0 1),
   .deq (m64 0 2 0 0 0 0 0 0 1), .fetchw (k32 4 0), .tcfg (g64 0 2 4 6 0 0 0), .tld (g64 0 2 4 0 0 0 3),
   .tst (g64 0 2 4 0 0 0 3)]

theorem test_ready_5 : ∀ i ∈ readyList5, Claims.Ready i small := ready_all (by decide +kernel)

/-- Instructions that the wave of `small` can execute. -/
def readyList6 : List Instr := [
   .tzero (g64 0 0 0 0 0 0 0), .tmovv (g64 0 2 4 0 0 0 2), .vmovt (g64 0 2 4 0 0 0 2), .mma (g64 0 2 0 6 0 0 4),
   .mmas (g64 0 2 0 6 0 0 4), .mmat (g64 0 2 0 6 0 0 4), .mmax (g64 0 2 0 6 0 0 4), .accld (g64 0 2 4 6 0 0 7),
   .accst (g64 0 2 4 6 0 0 7), .accq (g64 0 2 4 6 0 0 7), .ttrl (g64 0 2 0 0 0 0 0), .tscl (g64 0 2 4 6 0 0 7),
   .txp (g64 0 2 0 0 0 0 0), .dice (g64 0 2 0 0 0 0 1), .gridacq (g64 0 2 0 0 0 0 1), .gridrel (g64 0 2 0 0 0 0 1),
   .rast (g64 0 2 4 0 0 0 3), .rayq (g64 0 2 4 0 0 0 2), .rayrd (g64 0 0 0 0 0 0 0), .bkt (g64 0 2 0 0 1 0 1),
   .spill (g64 0 2 0 0 0 0 1), .rep { stc := 0, stb := 1, sta := 0, std := 1, cnt := 3, dist := 0 }, .trap (k32 0 0),
   .bkpt (k32 0 0), .logev (k32 4 0)]

theorem test_ready_6 : ∀ i ∈ readyList6, Claims.Ready i small := ready_all (by decide +kernel)

theorem test_ready_agent : ∀ i ∈ ([.cpr (m64 0 0 0 0 0 0 0 0 1), .pblk { sense := true, cm := 2, pat := 5, cnt := 2, dist := 0 }, .prd (k32 4 0), .pwr (k32 4 0)] : List Instr), Claims.Ready i agent :=
  ready_all (by decide +kernel)

theorem test_ready_handler : Claims.Ready (.rte (k32 0 0)) inHandler := ready_of (by decide +kernel)

/-! ### States and operands that meet the hypotheses of the statements -/

open Sys2Proof.Claims

/-- `small` with scalars from a number on. -/
def withS (n : Nat) (xs : List Word) : State := withWave fun w => { w with s := csetList w.s n xs }

/-- `small` with lane `L` of vector register `r` holding `xs[L]`. -/
def withV (r : Nat) (xs : List Word) : State := withWave fun w => { w with v := csetList w.v (64 * r) xs }

/-- Scalar immediates at the ends of their ranges, and the two NOPs and the long SMOVI. -/
theorem witness_ScalarMovesAndImmediates : ∀ i ∈ ([.smoviK32 (k32 63 0x7FF), .saddK32 (k32 63 0x400), .ssubK32 (k32 0 0x3FF), .smulK32 (k32 63 0x7FF),
    .sandK32 (k32 63 0), .sorK32 (k32 63 0x7FF), .sxorK32 (k32 63 0x7FF), .sshlK32 (k32 63 31), .sshrK32 (k32 63 31), .sshrK32 (k32 63 63),
    .nopK32 (k32 0 0), .nopL64 (l64 0 0 0xFFFFFFFF), .smoviL64 (l64 63 0 0xFFFFFFFF), .smoviL64 (l64 62 1 0x80000000)] : List Instr), Ready i small :=
  ready_all (by decide +kernel)

/-- Every SUB and both widths of the scalar path. -/
theorem witness_ScalarArithmetic : ∀ i ∈ ([.saddG64 (g64 63 255 0 0 0 0 0), .saddG64 (g64 62 62 254 0 1 1 0), .saddG64 (g64 62 0 2 0 2 1 0),
    .ssubG64 (g64 0 63 63 0 0 0 0), .ssubG64 (g64 0 0 2 0 1 1 0), .ssubG64 (g64 0 1 3 0 2 0 0), .smov (g64 62 62 0 0 0 1 0), .sandG64 (g64 0 0 2 0 0 1 0),
    .sorG64 (g64 0 1 2 0 0 0 0), .sxorG64 (g64 0 0 2 0 0 1 0), .smulG64 (g64 0 1 2 0 0 0 0), .sshlG64 (g64 0 0 255 0 0 1 0), .sshrG64 (g64 0 0 192 0 1 1 0),
    .sshrG64 (g64 0 1 160 0 0 0 0), .ssel (g64 0 0 2 0 0 1 0), .sminmax (g64 0 0 2 0 3 1 0), .sminmax (g64 0 1 2 0 0 0 0), .smulh (g64 0 1 2 0 0 0 0),
    .smulh (g64 0 1 2 0 1 0 0), .sbfx (g64 0 1 159 192 0 0 0), .sbfx (g64 0 1 128 128 1 0 0)] : List Instr), Ready i small :=
  ready_all (by decide +kernel)

theorem witness_ScalarCompares : ∀ i ∈ ([.scmpK32 (k32 63 0x3BF), .scmpK32 (k32 62 0x3FE), .scmpK32 (k32 255 0), .scmpL64 (l64 63 7 0xFFFFFFFF),
    .scmpL64 (l64 62 15 0x80000000)] : List Instr), Ready i small := ready_all (by decide +kernel)

/-- The first and last constants and registers. -/
theorem witness_OperandForms : (∀ f ∈ ([128, 255] : List (BitVec 8)), 128 ≤ f.toNat) ∧ (∀ f ∈ ([0, 63, 127] : List (BitVec 8)), f.toNat < 128) ∧
    (let f := g64 0 255 128 0 0 15 3
     f.xe = false ∧ f.sa = true ∧ 128 ≤ f.a.toNat ∧ f.sb = true ∧ 128 ≤ f.b.toNat) ∧
    (let f := g64 0 255 255 0 0 0 0
     f.xe = false ∧ f.sa = false ∧ f.sb = false) := by decide +kernel

/-- `small` with `scc` set and a link to 0x2000 in s4:s5. -/
def jumping : State := withWave fun w => { w with scc := true, m := cset w.m 0 0xFFFF, s := csetList w.s 4 [0x2000, 0] }

/-- Every branch of `jumping` is ready, taken and in reach; with `scc` clear and em full, those with a condition are not taken. -/
theorem witness_ControlTransfers_taken :
    (∀ p ∈ branches jumping (b32 1) (l64 1 1 0x40) (k32 4 0), Ready p.1 jumping → p.2.1 = true → Reachable p.2.2) ∧
    (∃ p ∈ branches jumping (b32 0x40) (l64 0 0 0x40) (k32 4 0), p.1 = .braB32 (b32 0x40) ∧ Ready p.1 jumping ∧ p.2.1 = true ∧ Reachable p.2.2) ∧
    (∃ p ∈ branches jumping (b32 0x41) (l64 0 1 0x40) (k32 4 0), p.1 = .brcB32 (b32 0x41) ∧ Ready p.1 jumping ∧ p.2.1 = true ∧ Reachable p.2.2) ∧
    (∃ p ∈ branches jumping (b32 0x41) (l64 1 1 0x40) (k32 4 0), p.1 = .brmL64 (l64 1 1 0x40) ∧ Ready p.1 jumping ∧ p.2.1 = true ∧ Reachable p.2.2) ∧
    (∃ p ∈ branches jumping (b32 0x41) (l64 1 1 0x40) (k32 4 0), p.1 = .ret (k32 4 0) ∧ Ready p.1 jumping ∧ p.2.1 = true ∧ Reachable p.2.2) ∧
    (∃ p ∈ branches jumping (b32 0x40) (l64 0 0 0x40) (k32 4 0), p.1 = .brcB32 (b32 0x40) ∧ Ready p.1 jumping ∧ p.2.1 = false) ∧
    (∃ p ∈ branches jumping (b32 0x43) (l64 0 0 0x40) (k32 4 0), p.1 = .brmB32 (b32 0x43) ∧ Ready p.1 jumping ∧ p.2.1 = false) := by
  simp only [ready_iff, Reachable]; decide +kernel

/-- An odd target, and one of 2^52 or above. -/
theorem witness_ControlTransfers_traps :
    (∃ p ∈ branches jumping (b32 0) (l64 0 0 0) (k32 4 0x7FF), Ready p.1 jumping) ∧
    (let s := withS 4 [0x2001, 0]
     ∃ p ∈ branches s (b32 0) (l64 0 0 0) (k32 4 0), Ready p.1 s ∧ p.2.1 = true ∧ p.2.2.getLsbD 0 = true) ∧
    (let s := withS 4 [0, 0x100000]
     ∃ p ∈ branches s (b32 0) (l64 0 0 0) (k32 4 0), Ready p.1 s ∧ p.2.1 = true ∧ p.2.2.getLsbD 0 = false ∧ 2 ^ 52 ≤ p.2.2.toNat) ∧
    Ready (.callB32 (b32 0x3FFFF)) small ∧ Reachable (small.wave.pc + 2 * (b32 0x3FFFF).off.signExtend 64) ∧
    Ready (.callL64 (l64 0 0 0xFFFFFF80)) small ∧ Reachable (small.wave.pc + 2 * (l64 0 0 0xFFFFFF80).imm.signExtend 64) := by
  simp only [ready_iff, Reachable]; decide +kernel

/-- A counter at 1 ends; one at 0 or 2 branches; a target below 0 is out of reach, and one from an odd PC is odd. -/
theorem witness_LoopCountsDown :
    (let s := withS 5 [1]
     Ready (.loop (l64 5 0 0)) s ∧ s.wave.sreg 5 - 1 = 0) ∧
    (let s := withS 5 [0]
     let f := l64 5 0 0xFFFFFF80
     Ready (.loop f) s ∧ s.wave.sreg 5 - 1 ≠ 0 ∧ Reachable (s.wave.pc + 2 * f.imm.signExtend 64)) ∧
    (let s := withS 5 [2]
     let f := l64 5 0 0xFFFFFF7F
     Ready (.loop f) s ∧ s.wave.sreg 5 - 1 ≠ 0 ∧ (s.wave.pc + 2 * f.imm.signExtend 64).getLsbD 0 = false ∧
       2 ^ 52 ≤ (s.wave.pc + 2 * f.imm.signExtend 64).toNat) ∧
    (let s : State := withWave fun w => { w with pc := 0x101 }
     let f := l64 5 0 1
     Ready (.loop f) s ∧ s.wave.sreg 5 - 1 ≠ 0 ∧ (s.wave.pc + 2 * f.imm.signExtend 64).getLsbD 0 = true) := by
  simp only [ready_iff, Reachable]; decide +kernel

/-- Every SUB of MLOG, MMOV and MCNT, and special registers at both ends of their values. -/
theorem witness_MasksAndSpecialRegisters :
    (∀ n ∈ List.range 8, Ready (.mlog (g64 8 (if n < 6 then 8 else 0) (if n < 5 then 1 else 0) 0 n 0 0)) small) ∧
    (∀ n ∈ List.range 5, Ready (.mmov (g64 2 2 0 0 n 0 0)) small) ∧ (∀ n ∈ List.range 3, Ready (.mcnt (g64 2 1 0 0 n 0 0)) small) ∧
    small.wave.mask 8 = 0 ∧ jumping.wave.mask 1 ≠ 0 ∧ (∀ n ∈ ([0, 2, 3, 4, 5, 6, 7, 8, 9, 10, 11, 12] : List Nat), Ready (.srd (k32 2 n)) small) ∧
    Ready (.srd (k32 2 257)) small ∧ Ready (.srd (k32 2 262)) small ∧ Ready (.srd (k32 2 256)) small ∧
    (∀ n ∈ ([8, 9, 11, 12] : List Nat), Ready (.swr (k32 2 n)) small) ∧
    Ready (.swr (k32 2 8)) (withS 2 [5]) ∧ Ready (.swr (k32 2 8)) (withS 2 [0x200]) ∧ Ready (.swr (k32 2 8)) (withS 2 [0x104]) := by
  simp only [ready_iff]; decide +kernel

theorem witness_WaitHoldsUntilCounters :
    (let s : State := withWave fun w => { w with k := csetList w.k 0 [14, 0, 63, 0, 1] }
     Ready (.wait (l64 0 0 0xFEFFFE)) s ∧ Ready (.wait (l64 0 0 0xFFFD)) s ∧ Ready (.wait (l64 0 0 0x1FFFF)) s ∧ Ready (.wait (l64 0 0 0)) s) ∧
    (let f := l64 0 0 0x1000000
     ¬(f.imm.extractLsb' 24 8 = 0 ∧ f.sub7 = 0 ∧ f.d = 0 ∧ f.cf = 15)) ∧
    (let z : BitVec 64 := 0x0001FFFF000037E3
     z.extractLsb' 0 2 = 3 ∧ z.extractLsb' 9 8 = 0x1B) := by
  simp only [ready_iff]; decide +kernel

/-- `small` with a second wave of the launch in slot 1. -/
def two : State := { small with waves := [{ wave with slot := 1, uid := 401 }] }

theorem witness_BarrierRouteTags :
    (Ready (.bart (k32 0 7)) { small with launches := [(0, { theLaunch with btags := 0x7F })] } ∧ theLaunch.btags.getLsbD 7 = true) ∧
    (Ready (.bart (k32 0 15)) two ∧ two.wave.priv = false ∧ two.accessesDone two.fresh = true ∧
      ∃ v ∈ two.waves, v.alive two.wave.launch = true ∧ v.arrived ≠ some 7) ∧
    (Ready (.bart (k32 0 0)) small ∧ small.wave.idle = false ∧ small.wave.ended = false ∧ (∀ v ∈ small.waves, v.alive small.wave.launch = false) ∧
      small.suspended = [] ∧ (∀ c ∈ theLaunch.cmask, c / 96 = small.wave.core / 96)) ∧
    (let s : State := { withWave fun w => { w with outst := [⟨0, some 3, none, 0, 0, false, false, .writes [], .ready, []⟩] } with fresh := 1 }
     Ready (.bart (k32 0 15)) s ∧ s.wave.priv = false ∧ s.accessesDone s.fresh = false) := by
  simp only [ready_iff]; decide +kernel

theorem witness_ExitAndYield :
    (let s : State := withWave fun w => { w with priv := true }
     Ready (.exit (k32 0 1)) s ∧ s.wave.priv = true) ∧
    (let s : State := withWave fun w => { w with em := 1 }
     Ready (.exit (k32 0 1)) s ∧ s.wave.priv = false ∧ s.wave.live &&& ~~~s.wave.em ≠ 0) ∧
    (Ready (.exit (k32 0 0)) small ∧ small.wave.priv = false) ∧ (Ready (.exit (k32 0 1)) small ∧ small.wave.live &&& ~~~small.wave.em = 0) ∧
    Ready (.yield (k32 0 1023)) small ∧ Ready (.yield (k32 0 0)) small := by
  simp only [ready_iff]; decide +kernel

/-- `small` with bounds on index registers 0 and 1; lane 3 of index register 1 is at its bound. -/
def indexed : State := withWave fun w =>
  { w with bound := [(0, { xb := 1, xl := 63 }), (1, { xb := 0, xl := 2 })], x := cset (cset w.x 2 62) 67 2 }

/-- An instruction whose operand A goes through index register `xi`. -/
def through (xi sub mod : Nat) : G64 := { g64 1 0 2 0 sub mod 0 with xe := true, xi := BitVec.ofNat 3 xi }

theorem witness_VectorImmediateAndCompactResults :
    ∀ i ∈ ([.vaddK32 (k32 63 0x400), .vsubK32 (k32 63 0x3FF), .vandK32 (k32 0 0x7FF), .vorK32 (k32 1 0), .vxorK32 (k32 1 1), .vmoviK32 (k32 1 0x7FF),
      .vmovC16 (c16 31 0), .vaddC16 (c16 31 31), .vsubC16 (c16 0 31), .vmulC16 (c16 0 0), .vandC16 (c16 1 1), .vorC16 (c16 1 2), .vxorC16 (c16 1 2),
      .vshlC16 (c16 1 2), .vshrC16 (c16 1 2), .vminC16 (c16 1 2), .vmaxC16 (c16 1 2), .vmoviL64 (l64 63 0 0xFFFFFFFF)] : List Instr), Ready i small :=
  ready_all (by decide +kernel)

/-- Operands in vectors, scalars, constants and through an index register within its bound. -/
theorem witness_VectorArithmetic :
    (∀ i ∈ ([.vmul (through 0 0 0), .vmulh (through 0 1 0), .vandG64 (through 0 0 0), .vorG64 (g64 1 0 255 0 0 0 2), .vxorG64 (g64 1 255 0 0 0 0 1),
      .vshl (g64 1 0 160 0 0 0 2), .vshr (g64 1 0 192 0 1 0 2), .vmad (g64 63 63 63 63 0 0 0), .vbfx (g64 1 0 2 3 1 0 0), .vsel (g64 1 0 2 8 0 0 0),
      .vmov (g64 1 255 2 0 0 0 0), .bcast (g64 1 0 255 0 0 0 2), .qswz (g64 1 0 0 255 0 0 0), .vaddG64 (through 0 2 2), .vsubG64 (g64 1 0 2 0 1 1 0),
      .vmin (g64 1 0 2 0 1 2 0), .vmax (through 0 0 1), .vabsd (g64 1 0 2 0 1 0 0)] : List Instr), Ready i indexed) ∧
    IndexOk indexed.wave (through 0 2 2) ∧ indexed.wave.xlane 0 2 = 62 ∧ IndexOk indexed.wave (g64 1 0 2 0 0 0 0) :=
  ⟨ready_all (by decide +kernel), fun _ => by decide +kernel, by decide +kernel, fun h => by cases h⟩

theorem witness_VectorBitsAndSequences :
    (([.vpopc { through 0 3 0 with b := 0 }, .vpack (g64 1 0 2 0 2 0 0), .vunpk (g64 1 0 0 0 11 0 0), .vbyte (g64 1 0 2 3 0 0 0), .vrand (g64 1 0 2 0 1 0 0),
      .vsobol (g64 1 0 2 0 4 3 0), .vsobol (g64 1 0 2 0 0 0 0)] : List Instr).all (readyB indexed) = true) ∧ IndexOk indexed.wave (through 0 3 0) :=
  ⟨by decide +kernel, fun _ => by decide +kernel⟩

theorem witness_IndexedMoves :
    Ready (.vmovx (g64 1 0 0 0 0 0 0)) indexed ∧ indexed.wave.xFail 0 = none ∧ Ready (.vmovx (g64 0 0 2 0 1 0 0)) indexed ∧
    Ready (.xset (g64 7 0 0 0 0 0 0)) indexed ∧ Ready (.xbnd (l64 0 0 0x2020)) indexed ∧ Ready (.xbnd (l64 0 0 0x2120)) indexed ∧
    Ready (.vext (g64 0 0 143 0 0 0 2)) indexed ∧ Ready (.vins (g64 1 0 128 0 0 0 3)) indexed ∧
    (Ready (.vtrn (g64 0 16 0 0 0 3 0)) indexed ∧ 2 ^ (3 + 1) ≤ indexed.wave.width) ∧
    (Ready (.vtrn (g64 0 32 0 0 0 4 0)) indexed ∧ indexed.wave.width < 2 ^ (4 + 1)) ∧
    indexed.wave.xFail 1 = some 3 ∧ (through 1 0 0).xe = true ∧ Ready (.vaddG64 (through 1 0 0)) indexed ∧ Ready (.frcp { through 1 0 0 with b := 0 }) indexed := by
  simp only [ready_iff]; decide +kernel

/-- `small` with NANTRAP, +∞ in lane 3 of v0 and of v1, −1 in lane 5 of v2 and 1024 in lane 3 of v3. -/
def trapping : State := withWave fun w =>
  { w with fpctl := 0x100, v := csetList w.v 0 [] |> fun v => cset (cset (cset (cset v 3 0x7F800000) 67 0x7F800000) 133 0xBF800000) 195 0x44800000 }

/-- Of +∞ − +∞ in lane 3 a NaN is made, and of no other lane. -/
theorem witness_FloatArithmetic :
    (([.fadd (g64 2 0 1 0 5 15 0), .fsub (g64 2 0 1 0 0 0 0), .fmul (g64 2 0 255 0 1 0 2), .ffma (g64 2 0 1 2 3 0 0), .flerp (g64 2 0 1 2 0 0 0),
      .fdot2 (g64 2 0 1 2 0 1 0), .faddC16 (c16 0 1), .fsubC16 (c16 31 31), .fmulC16 (c16 2 3)] : List Instr).all (readyB trapping) = true) ∧
    small.wave.fpctl.getLsbD 8 = false ∧ trapping.wave.fpctl.getLsbD 8 = true ∧
    LowestLane trapping.wave (fun L => (FV.sum false [fval (trapping.wave.fa (g64 2 0 1 0 0 0 0) L), (fval (trapping.wave.fb (g64 2 0 1 0 0 0 0) L)).negate]).isNan &&
      !(([fval (trapping.wave.fa (g64 2 0 1 0 0 0 0) L), fval (trapping.wave.fb (g64 2 0 1 0 0 0 0) L)] : List FV).any FV.isNan)) 3 ∧
    (fval 0x00000001).isNan = false ∧ (fval 0x7F800001).isNan = true := by
  unfold LowestLane; decide +kernel

theorem witness_PairedHalvesAndCompares :
    (([.hadd2 (g64 2 0 1 0 0 0 0), .hmul2 (g64 2 0 1 0 5 1 0), .hfma2 (g64 2 0 1 2 0 0 0), .fmin (g64 2 0 1 0 0 15 0), .fmax (through 0 0 0),
      .fmed3 (g64 2 0 1 2 0 0 0), .fcmp (g64 8 0 1 0 7 0 0), .fclass (g64 2 0 0 0 0 0 0), .frnd (g64 2 0 0 0 5 0 0), .fpk (g64 2 0 1 0 0 1 0),
      .fminC16 (c16 0 1), .fmaxC16 (c16 0 1)] : List Instr).all (readyB indexed) = true) ∧
    IndexOk indexed.wave (through 0 0 0) ∧ indexed.wave.fpctl.getLsbD 8 = false :=
  ⟨by decide +kernel, fun _ => by decide +kernel, by decide +kernel⟩

/-- 1024 in lane 3 becomes a NaN of FP8 E4M3 where the conversion does not saturate. -/
theorem witness_Conversions :
    Ready (.cvt (g64 4 0 0 0 2 12 0)) small ∧ small.wave.fpctl.getLsbD 8 = false ∧ Ready (.cvt (g64 4 3 0 8 2 5 0)) trapping ∧
    IndexOk trapping.wave (g64 4 3 0 8 2 5 0) ∧
    LowestLane trapping.wave (fun L => (numType 5).isNan ((numType 5).convert 0 0 false ((numType 2).val false 0 (trapping.wave.opA (g64 4 3 0 8 2 5 0) L).toNat)) &&
      !((numType 2).val false 0 (trapping.wave.opA (g64 4 3 0 8 2 5 0) L).toNat).isNan) 3 ∧
    Ready (.cvtq (g64 4 0 1 0 0 4 0)) small ∧ Ready (.cvtq (g64 4 0 1 2 6 5 0)) small := by
  simp only [ready_iff, LowestLane, IndexOk]; decide +kernel

/-- The square root of −1 in lane 5 is a NaN made; the words at the ends of the finite range. -/
theorem witness_SpecialFunctions :
    (([.frcp (g64 3 2 0 0 0 0 0), .frsq { g64 3 2 0 0 0 0 0 with cf := 7 }, .fsqrt { g64 3 2 0 0 0 0 0 with cf := 0 }, .flog2 (g64 3 2 0 0 0 0 0),
      .fexp2 (g64 3 2 0 0 0 0 0), .fsin (g64 3 2 0 0 0 1 0), .fcos (g64 3 2 0 0 0 0 0), .ftanh (g64 3 2 0 0 0 0 0), .fdiv (g64 3 2 1 0 0 0 0),
      .idiv (g64 3 2 128 0 3 0 2)] : List Instr).all (readyB trapping) = true) ∧
    LowestLane trapping.wave (fun L => (fval (sfuOp 0x44 0 0 (trapping.wave.fa0 (g64 3 2 0 0 0 0 0) L))).isNan &&
      !(fval (trapping.wave.fa0 (g64 3 2 0 0 0 0 0) L)).isNan) 5 ∧
    ((1 : Word).toNat < 0x7F800000 ∧ (1 : Word) ≠ 0) ∧ ((0x7F7FFFFF : Word).toNat < 0x7F800000 ∧ (0x7F7FFFFF : Word) ≠ 0) := by
  unfold LowestLane; decide +kernel

theorem witness_VectorCompareCarryAndWideResults :
    (([.vcmpiK32 (k32 255 0x400), .vcmpiG64 (g64 8 0 1 0 7 0 0), .vcmp64 (g64 0 2 4 0 0 0 0), .vaddc (g64 2 0 1 8 0 0 0), .vsubb (g64 2 0 1 1 0 0 0),
      .vmul64 (g64 2 0 1 0 0 0 0), .vmul64 (g64 2 0 4 0 2 0 0), .vshl64 (g64 2 0 192 0 0 0 2), .vshr64 (g64 62 2 191 0 1 0 2)] : List Instr).all (readyB small) = true) ∧
    IndexOk small.wave (g64 2 0 1 0 0 0 0) := ⟨by decide +kernel, fun h => by cases h⟩

theorem witness_LaneExchangeResults :
    (Ready (.shfl (g64 2 0 1 0 3 4 0)) small ∧ 2 ^ 4 ≤ small.wave.width) ∧ (Ready (.shfl (g64 2 0 1 0 0 0 0)) small) ∧
    (Ready (.shfl (g64 2 0 1 0 0 5 0)) small ∧ small.wave.width < 2 ^ 5) ∧ Ready (.vote (g64 8 0 0 0 3 0 0)) small ∧ Ready (.ballot (g64 62 0 0 0 0 0 0)) small ∧
    Ready (.matchLanes (g64 2 0 0 0 0 1 0)) small ∧ Ready (.matchLanes (g64 2 1 0 0 2 0 0)) small := by
  simp only [ready_iff]; decide +kernel

theorem witness_Reductions :
    (([.red (g64 63 0 0 0 7 1 0), .red (g64 2 0 0 0 1 0 0), .scan (g64 2 0 0 0 7 1 0), .fred (g64 2 0 0 0 2 0 0), .vcompact (g64 2 0 0 0 0 0 0),
      .vcompact (g64 2 0 0 0 1 0 0), .laadd (g64 0 0 0 0 2 1 0), .lafma (g64 0 0 255 0 0 1 2), .lasave (g64 62 0 0 0 0 0 0), .larst (g64 0 0 0 0 0 0 0),
      .laclr (k32 0 0)] : List Instr).all (readyB small) = true) ∧
    small.wave.fpctl.getLsbD 8 = false ∧ (∀ L ∈ small.wave.actList, (fval (small.wave.fa0 (g64 0 0 0 0 0 0 0) L)).finite = true) ∧
    (let s : State := withWave fun w => { w with lacc := -1 }
     Ready (.lard (g64 0 0 0 0 5 1 0)) s ∧ s.wave.laccFlags = 0 ∧ s.wave.lacc.toInt ≠ 0) ∧
    (let s := withV 1 [0, 0, 0, 0, 7]
     Ready (.larst (g64 0 0 0 0 0 0 0)) s ∧ (s.wave.vlane (0 + 20 / 16) (20 % 16)).toNat < 8) ∧
    (let s := withV 1 [0, 0, 0, 0, 8]
     Ready (.larst (g64 0 0 0 0 0 0 0)) s ∧ 8 ≤ (s.wave.vlane (0 + 20 / 16) (20 % 16)).toNat) := by
  simp only [ready_iff]; decide +kernel

/-- `small` with function 0 of degree 1 on [−1, 1] at pool words 0 and 1, function 1 the constant 1/2 on [−1, 1] at word 2, and function
2 the constant 2 on [0, 1] at word 3. -/
def functions : State := withWave fun w => { w with
  fn := csetList w.fn 0 [0xBF800000, 0x3F800000, headWord false 0 2 0, 0xBF800000, 0x3F800000, headWord true 2 1 0, 0, 0x3F800000, headWord false 3 1 0],
  pool := csetList (csetList (csetList w.pool 64 (List.replicate 16 0x3F000000)) 128 (List.replicate 16 0x3F000000)) 192 (List.replicate 16 0x40000000) }

/-- `small` with FNCTL.STRICT. -/
def strict : State := withWave fun w => { w with fnctl := 1 }

/-- One coefficient for every lane. -/
def constant : FnResult := { lo := 0, hi := 0x3F800000, te := 0, lossy := false, n := 1, coef := fun _ => [FV.ofInt 1], nan := fun _ => false }

theorem witness_FunctionRegisters_definition :
    (let f := g64 0 128 129 0xFF 7 0 3
     Ready (.fndef f) small ∧ ((fval (small.wave.fscalar f.a)).finite = true ∧ (fval (small.wave.fscalar f.b)).finite = true ∧
       (fval (small.wave.fscalar f.a)).cmp (fval (small.wave.fscalar f.b)) < 0) ∧ (small.wave.place 0 8).toOption = some (0, 8, false)) ∧
    (Ready (.fndef (g64 0 128 129 0 8 0 3)) strict ∧ (strict.wave.place 0 9).toOption = none) ∧
    (let f := g64 0 129 129 0 8 0 3
     Ready (.fndef f) small ∧ ¬((fval (small.wave.fscalar f.a)).cmp (fval (small.wave.fscalar f.b)) < 0)) ∧
    Ready (.fnfree (k32 15 0)) small ∧ Ready (.fnfree (k32 0 1)) small ∧ (∀ p ∈ small.wave.pend, p.2.isFn = false) ∧
    functions.wave.pend = [] ∧ (functions.wave.place 4 1).toOption = some (4, 1, false) ∧ (functions.wave.place 4 5).toOption = some (4, 4, true) ∧
    strict.wave.pend = [] := by
  simp only [ready_iff]; decide +kernel

theorem witness_FunctionRegisters_traps :
    (([.fnadd (g64 0 2 4 0 0 0 0), .fnmul (g64 0 2 4 0 0 0 0), .fnscl (g64 0 2 4 6 0 0 0), .fncomp (g64 0 2 4 0 0 0 0), .fnint (g64 0 2 0 0 0 0 0),
      .fnder (g64 0 2 0 0 0 0 0), .fneval (g64 0 2 4 0 0 0 0), .fnroot (g64 0 2 4 0 0 0 0), .fnext (g64 0 2 0 0 0 0 0),
      .fnrestr (g64 0 2 4 6 0 0 6)] : List Instr).all (readyB small) = true ∧ (small.wave.fnHead 2).defd = false) ∧
    (Ready (.fnadd (g64 3 0 2 0 0 0 0)) functions ∧ Ready (.fnmul (g64 3 0 2 0 0 0 0)) functions ∧ (functions.wave.fnHead 0).defd = true ∧
      (functions.wave.fnHead 2).defd = true ∧ (functions.wave.fnHead 0).lo ≠ (functions.wave.fnHead 2).lo) ∧
    (Ready (.fncomp (g64 3 0 2 0 0 0 0)) functions ∧ (∃ L ∈ functions.wave.actList,
      let r := rangeBound (functions.wave.fnVals (functions.wave.fnHead 2) L)
      fpred 2 r.1 (fval (functions.wave.fnHead 0).lo) = true ∨ fpred 4 r.2 (fval (functions.wave.fnHead 0).hi) = true)) ∧
    (Ready (.fnrestr (g64 3 0 129 129 0 0 6)) functions ∧ 0 ≤ (fval (functions.wave.fscalar 129)).cmp (fval (functions.wave.fscalar 129))) := by
  simp only [ready_iff]; decide +kernel

theorem witness_FunctionRegisters_finish :
    (let s : State := withWave fun w => { w with em := 0 }
     s.wave.act = 0) ∧
    small.wave.act ≠ 0 ∧ small.wave.fpctl.getLsbD 8 = false ∧ constant.n ≤ 32 ∧ constant.te < 256 ∧
    (small.wave.place 0 (fnTrim constant.te (small.wave.actList.map fun L =>
      ((if L < small.wave.width then (constant.coef L).map fun x => fval (fround 0 x) else []),
        rowMax ((if L < small.wave.width then (constant.coef L).map fun x => fval (fround 0 x) else []).take constant.n))) constant.n)).toOption =
      some (0, 1, false) := by decide +kernel

theorem witness_FunctionOperationResults :
    (Ready (.fnfit (g64 0 62 0 0 0 0 0)) functions ∧ (functions.wave.fnHead 0).defd = true ∧ 62 + (functions.wave.fnHead 0).len ≤ functions.wave.vregs) ∧
    (([.fnadd (g64 3 0 1 0 1 0 0), .fnmul (g64 0 0 1 0 0 0 0), .fnscl (g64 15 0 128 255 0 0 6), .fnint (g64 3 0 0 0 0 0 0), .fnder (g64 3 0 0 0 0 0 0),
      .fncomp (g64 3 0 1 0 0 0 0), .fnrestr (g64 3 2 128 129 0 0 6)] : List Instr).all (readyB functions) = true) ∧
    ((functions.wave.fnHead 0).defd = true ∧ (functions.wave.fnHead 1).defd = true ∧ (functions.wave.fnHead 0).lo = (functions.wave.fnHead 1).lo ∧
      (functions.wave.fnHead 0).hi = (functions.wave.fnHead 1).hi) ∧
    (∀ L ∈ functions.wave.actList, let r := rangeBound (functions.wave.fnVals (functions.wave.fnHead 1) L)
      fpred 2 r.1 (fval (functions.wave.fnHead 0).lo) = false ∧ fpred 4 r.2 (fval (functions.wave.fnHead 0).hi) = false) ∧
    (let p := fval (functions.wave.fscalar 128)
     let q := fval (functions.wave.fscalar 129)
     let a := functions.wave.fnHead 2
     a.defd = true ∧ p.finite = true ∧ q.finite = true ∧ p.cmp q < 0 ∧ 0 ≤ p.cmp (fval a.lo) ∧ q.cmp (fval a.hi) ≤ 0) := by
  simp only [ready_iff]; decide +kernel

/-- `functions` with a stored function of two coefficients in v8 to v10. -/
def stored : State := { functions with wave := { functions.wave with v := csetList functions.wave.v 512 [0, 0x3F800000, headWord false 9 2 129] } }

theorem witness_FunctionReadAndLoadResults :
    functions.wave.fpctl.getLsbD 8 = false ∧
    (([.fneval (g64 63 0 63 0 0 0 0), .fnroot (g64 4 0 255 0 0 0 2), .fnext (g64 4 0 0 0 3 0 0), .fncoef (g64 4 0 129 0 0 0 2), .fncoef (g64 0 4 129 0 1 0 2),
      .fncoef (g64 63 15 0 0 2 0 0), .fnst (g64 61 0 0 0 0 0 0), .fnld (g64 3 4 0 0 0 0 0)] : List Instr).all (readyB functions) = true) ∧
    (functions.wave.fnHead 0).defd = true ∧ (functions.wave.sop 129).toNat < (functions.wave.fnHead 0).len ∧ functions.wave.act ≠ 0 ∧
    61 + 1 + (functions.wave.fnHead 0).len ≤ functions.wave.vregs ∧
    (functions.wave.vlane 4 0 = 0 ∧ functions.wave.vlane 4 1 = 0 ∧ functions.wave.vlane 4 2 = 0 ∧ functions.wave.pend = []) ∧
    (let g : FnHead := { lo := stored.wave.vlane 8 0, hi := stored.wave.vlane 8 1, w2 := stored.wave.vlane 8 2 }
     Ready (.fnld (g64 3 8 0 0 0 0 0)) stored ∧ g.defd = true ∧ g.w2.toNat < 2 ^ 24 ∧ 1 ≤ g.len ∧ g.len ≤ 32 ∧ (g.te = 0 ∨ 129 ≤ g.te) ∧
       (fval g.lo).finite = true ∧ (fval g.hi).finite = true ∧ (fval g.lo).cmp (fval g.hi) < 0 ∧ 8 + 1 + g.len ≤ stored.wave.vregs ∧
       (stored.wave.place 3 g.len).toOption = some (4, 2, false)) := by
  simp only [ready_iff]; decide +kernel

/-- Offsets within the page, at its last word, and beyond it; each kind of order. -/
theorem witness_MemoryIssue :
    (([.ld (m64 32 0 1 5 1 5 2 64 1), .st (m64 0 0 0 0 2 1 0 0x2000 1), .atom (m64 2 0 2 3 3 4 0 8 0), .atomn (m64 2 0 2 2 4 5 15 4 0),
      .cas (m64 4 0 0 3 0 0 0 0 1)] : List Instr).all (readyB small) = true) ∧
    (MemOk small.wave (m64 32 0 1 5 1 5 2 64 1) 32 .load ∧ MemOk small.wave (m64 4 0 0 3 0 0 0 0 1) 8 .atomic ∧
      small.logRoom small.wave.core = true ∧ (∀ L ∈ small.wave.actList, Direct page (offset small.wave (m64 4 0 0 3 0 0 0 0 1) L)) ∧
      (∀ la ∈ (small.wave.capture (m64 4 0 0 3 0 0 0 0 1) 8 fun _ => []).lanes, small.rcLane (small.wave.capture (m64 4 0 0 3 0 0 0 0 1) 8 fun _ => []) la = false)) ∧
    (let s := withS 0 [0x0FFFFFFC]
     MemOk s.wave (m64 0 0 0 2 0 0 0 0 1) 4 .store ∧ ∀ L ∈ s.wave.actList, Direct page (offset s.wave (m64 0 0 0 2 0 0 0 0 1) L)) ∧
    (let s := withS 0 [0x10000000]
     MemOk s.wave (m64 0 0 0 2 0 0 0 0 1) 4 .store ∧ ∀ L ∈ s.wave.actList, ¬Direct page (offset s.wave (m64 0 0 0 2 0 0 0 0 1) L)) := by
  simp only [MemOk, Direct]; decide +kernel

theorem witness_MemoryIssueTraps :
    (Ready (.ld (m64 0 0 7 2 0 0 0 0 1)) small ∧ (small.wave.treg 7).valid = false) ∧
    (let s := withV 0 [0, 0, 0, 2]
     let f := m64 0 0 0 2 0 0 0 0 0
     Ready (.st f) s ∧ (s.wave.treg 0).valid = true ∧ LowestLane s.wave (fun L => address (s.wave.treg 0) (offset s.wave f L) % 4 != 0) 3) ∧
    (let f := m64 0 0 0 2 0 0 0 0x3FFC 1
     Ready (.atom f) small ∧ (∀ L ∈ small.wave.actList, address (small.wave.treg 0) (offset small.wave f L) % 4 = 0) ∧
       LowestLane small.wave (fun L => decide (2 ^ 52 ≤ address (small.wave.treg 0) (offset small.wave f L))) 0) := by
  simp only [ready_iff, LowestLane]; decide +kernel

theorem witness_FrameAccessReadsAndWrites :
    cellsWf small.mem = true ∧ Free small page 0xFFFFFF0 16 true ∧ Free small page 0 1 false ∧
    ((fun _ => List.replicate 16 1 : List Byte → List Byte) []).length = 16 := by
  simp only [Free]
  repeat' apply And.intro
  all_goals decide +kernel

/-- The last word of the group's scratchpad; a compare-and-swap there. -/
theorem witness_ScratchpadAccess :
    (let s := withS 0 [0xFFFC]
     let f := m64 0 0 0 2 0 0 0 0 1
     (([.lds f, .sts f, .atoms f] : List Instr).all (readyB s) = true) ∧ Ready (.cas { f with aop := 1 }) s ∧
       (∀ L ∈ s.wave.actList, address TransReg.reset (offset s.wave f L) % 4 = 0 ∧ 0 ≤ offset s.wave f L ∧ offset s.wave f L + 4 ≤ (s.myGroup.spadLen : Int) ∧
         s.objIn s.wave.core s.wave.gslot (offset s.wave f L).toNat 4 = none ∧
         s.poisoned (spadPa s.wave.core (s.myGroup.spadBase + (offset s.wave f L).toNat)) 4 = false) ∧ s.myGroup.spadLen < 2 ^ 33) ∧
    (let c := small.wave.captureOn (m64 0 0 0 2 0 0 0 0 0) 8 small.spadReg 4 []
     let la : LaneAcc := { lane := 0, off := 0xFFFC, data := [] }
     let base := small.myGroup.spadBase + la.off.toNat
     c.tr = small.spadReg ∧ c.nbytes = 4 ∧ small.wave.core < 384 ∧ small.myGroup.spadBase + small.myGroup.spadLen ≤ 0x80000 ∧
       la.off + 4 ≤ (small.myGroup.spadLen : Int) ∧ cellsWf (small.core small.wave.core).spad = true ∧
       small.poisoned (spadPa small.wave.core base) 4 = false ∧ small.objAtPhys small.wave.core base 4 = none ∧
       small.spadHeld small.wave.core base = none ∧ ((fun _ => List.replicate 4 7 : List Byte → List Byte) []).length = 4) := by
  simp only [ready_iff]; decide +kernel

theorem witness_AtomicAndLoadedValues :
    (let la : LaneAcc := { lane := 63, off := 0, data := List.replicate 32 5 }
     let lb : LaneAcc := { lane := 0, off := 0, data := [1] }
     cellsWf small.wave.v = true ∧ 32 ∈ [1, 2, 4, 8, 16, 32] ∧ la.lane < 64 ∧ 7 < max 1 (32 / 4) ∧ la ∈ [la, lb] ∧ la.data.length = 32 ∧
       ∀ x ∈ [la, lb], x.lane = 63 → x = la) ∧
    ([1, 2, 3, 4] : List Byte).length = ([5, 6, 7, 8] : List Byte).length := by decide +kernel

/-- What a load of one lane captured. -/
def aCap : MemCap :=
  { trn := 0, tr := page, nbytes := 4, lanes := [{ lane := 0, off := 0, data := [] }], done := [], order := 0, scope := 0, rels := [] }

/-- An outstanding instruction with this number, counter and effect. -/
def anOutst (id : Nat) (cls : Option Nat) (e : Effect) : Outst :=
  { id := id, cls := cls, cf := none, pc := 0x80, issued := 0, holds := false, token := false, eff := e, wait := .ready, vc := [] }

/-- `small` with a load outstanding. -/
def busy : State := { withWave fun w => { w with outst := [anOutst 0 (some 0) (.load aCap 0 false true)], k := cset w.k 0 1 } with fresh := 1 }

theorem witness_ConstantTranslationAndCacheResults :
    (Ready (.ldk (m64 0 188 0 2 0 0 0 0 1)) small ∧ (60 : Int) + 4 ≤ (small.myLaunch.args.length : Int) ∧ address TransReg.reset 60 % 4 = 0) ∧
    (Ready (.ldk (m64 0 192 0 2 0 0 0 0 1)) small ∧ (small.myLaunch.args.length : Int) < 64 + 4) ∧
    (Ready (.ldk (m64 0 128 0 2 0 0 0 0x3FFC 1)) small ∧ ((small.wave.sop 128).toNat : Int) + (0x3FFC : BitVec 14).toInt < 0) ∧
    (Ready (.ldk (m64 0 128 2 5 0 0 1 0 1)) small ∧ (small.wave.treg 2).valid = true ∧ address (small.wave.treg 2) 0 % 32 = 0 ∧
      address (small.wave.treg 2) 0 < 2 ^ 52 ∧ permFail (small.wave.treg 2) .load = none ∧ geomFail (small.wave.treg 2) = none) ∧
    (([.trans (m64 0 255 7 0 0 0 0 0 1), .trinv (m64 0 0 7 0 0 0 0 0 0), .trinv (m64 0 0 0 0 0 0 1 0 0), .cache (m64 0 0 0 0 0 0 0 0 0),
      .cache (m64 0 0 0 0 0 0 1 0 0), .cache (m64 0 0 2 0 0 0 2 0 0), .cache (m64 0 0 0 0 0 0 3 0 0), .pref (m64 0 0 1 0 0 0 1 0 0),
      .fence (m64 0 0 0 0 1 0 0 0 0), .fence (m64 0 0 0 0 4 5 0 0 0)] : List Instr).all (readyB small) = true) ∧
    (Ready (.fence (m64 0 0 0 0 2 2 0 0 0)) busy ∧ busy.accessesDone busy.fresh = false ∧ busy.readsDone = false) ∧
    small.accessesDone small.fresh = true ∧ small.readsDone = true := by
  simp only [ready_iff]; decide +kernel

/-- An object at offset 64 of the group's scratchpad, for 2 arrivals. -/
def object : BarrierObj := newObj 0 64 2

/-- `small` with barrier objects in core 0, and offsets and numbers in s16 on. -/
def withObjs (os : List BarrierObj) : State :=
  { withS 16 [64, 0xFFF0, 0x10000, 72, 0, 1, 65535, 65536] with cores := [(0, { Core.reset with objs := os })] }

/-- Another wave of the group that waits in BWAIT on the object. -/
def waiting : State := { withObjs [object] with waves := [{ wave with slot := 1, uid := 401, hold := .bwait 64 0 none }] }

theorem witness_BarrierObjects_step :
    (withObjs [object]).findObj 0 object.gslot object.off = some object ∧ cellsWf ((withObjs [object]).core 0).spad = true ∧
    ({ object with arrcnt := 2 } : BarrierObj).arrcnt = object.expcnt ∧ object.arrcnt ≠ object.expcnt ∧
    Passed 1 0 ∧ Passed 0 0xFFFF ∧ Passed 32767 0 ∧ ¬Passed 0x8000 0 ∧ ¬Passed 0 0 := by decide +kernel

theorem witness_BarrierObjects_results :
    (let s := withObjs [object]
     Ready (.binit (m64 21 17 0 0 0 0 0 0 1)) s ∧ Ready (.binit (m64 22 17 0 0 0 0 0 0 1)) s ∧ uniform s.wave (m64 21 17 0 0 0 0 0 0 1) = 0xFFF0 ∧
       s.findObj 0 0 0xFFF0 = none ∧ (s.core 0).objs.length < 64 ∧ s.wave.barrWaits = false ∧ (0xFFF0 : Int) + 16 ≤ (s.myGroup.spadLen : Int)) ∧
    (let s := withObjs [object]
     Names s (m64 0 16 0 0 0 0 1 0 1) object ∧ Ready (.binit (m64 0 16 0 0 0 0 1 0 1)) s ∧ object.arrcnt = 0 ∧ object.arrbytes = 0 ∧ object.expbytes = 0 ∧
       object.users = 0) ∧
    (let s := withObjs [object]
     Names s (m64 130 16 0 0 0 0 0 0 1) object ∧ Ready (.barr (m64 130 16 0 0 0 0 0 0 1)) s ∧ Ready (.barr (m64 130 16 0 0 2 2 0 0 1)) s ∧
       s.accessesDone s.fresh = true ∧ object.arrcnt.toNat + (s.wave.sop 130).toNat ≤ object.expcnt.toNat ∧ Ready (.bexp (m64 130 16 0 0 0 0 0 0 1)) s ∧
       Ready (.bwait (m64 22 16 0 0 1 5 0 0 1)) s ∧ Passed object.phase (s.wave.sop 22) ∧ Ready (.bwait (m64 20 16 0 0 0 0 0 0 1)) s ∧
       ¬Passed object.phase (s.wave.sop 20)) ∧
    (let s : State := { busy with cores := [(0, { Core.reset with objs := [object] })], wave := { busy.wave with s := csetList [] 16 [64] } }
     Names s (m64 129 16 0 0 2 2 0 0 1) object ∧ Ready (.barr (m64 129 16 0 0 2 2 0 0 1)) s ∧ s.accessesDone s.fresh = false) := by
  simp only [ready_iff, Names]; decide +kernel

theorem witness_BarrierObjects_traps :
    (let s := withObjs [object]
     Ready (.barr (m64 129 19 0 0 0 0 0 0 1)) s ∧ uniform s.wave (m64 129 19 0 0 0 0 0 0 1) % 16 ≠ 0 ∧ Ready (.bwait (m64 129 18 0 0 0 0 0 0 1)) s ∧
       uniform s.wave (m64 129 18 0 0 0 0 0 0 1) % 16 = 0 ∧ (s.myGroup.spadLen : Int) < uniform s.wave (m64 129 18 0 0 0 0 0 0 1) + 16 ∧
       Ready (.bexp (m64 129 17 0 0 0 0 0 0 1)) s ∧ s.findObj 0 0 0xFFF0 = none ∧ Ready (.binit (m64 20 17 0 0 0 0 0 0 1)) s ∧ (s.wave.sop 20).toNat = 0 ∧
       Ready (.binit (m64 23 17 0 0 0 0 0 0 1)) s ∧ 65535 < (s.wave.sop 23).toNat ∧ Ready (.binit (m64 21 16 0 0 0 0 0 0 1)) s ∧ (s.findObj 0 0 64).isSome = true) ∧
    (let s := withObjs ((List.range 64).map fun i => newObj 0 (16 * i) 1)
     Ready (.binit (m64 21 17 0 0 0 0 0 0 1)) s ∧ 64 ≤ (s.core 0).objs.length ∧ s.findObj 0 0 0xFFF0 = none) ∧
    (let o := { object with users := 1 }
     Names (withObjs [o]) (m64 0 16 0 0 0 0 1 0 1) o ∧ Ready (.binit (m64 0 16 0 0 0 0 1 0 1)) (withObjs [o]) ∧ o.users ≠ 0) ∧
    (let s := withObjs [object]
     Names s (m64 131 16 0 0 0 0 0 0 1) object ∧ Ready (.barr (m64 131 16 0 0 0 0 0 0 1)) s ∧ s.wave.barrWaits = false ∧
       object.expcnt.toNat < object.arrcnt.toNat + (s.wave.sop 131).toNat ∧ Ready (.barr (m64 128 16 0 0 0 0 0 0 1)) s ∧ (s.wave.sop 128).toNat = 0) := by
  simp only [ready_iff, Names]; decide +kernel

/-- One copy of the lanes of a CPA. -/
def aCopy : CpaCopy := { trn := 0, tr := page, lanes := [{ lane := 0, dst := 0, src := 0, valid := 4, total := 16 }] }

/-- Lanes that copy 16 bytes each to offsets from 0x400 on. -/
def copying (n : Nat) (k2 : Nat) : State :=
  let v := csetList (csetList [] 0 ((List.range 16).map fun L => BitVec.ofNat 32 (0x400 + 16 * L))) 64 ((List.range 16).map fun L => BitVec.ofNat 32 (16 * L))
  withWave fun w => { w with v := v, batch := List.replicate n aCopy, k := cset w.k 2 (BitVec.ofNat 6 k2) }

theorem witness_CopiesAndMoves_copies :
    (∀ n ∈ ([0, 15, 16] : List Nat), readyB (copying n 0) (.cpa (m64 0 1 0 4 0 0 0 0 0)) = true ∧ ((copying n 0).wave.treg 0).valid = true ∧
      (copying n 0).wave.batch.length = n ∧ (copying n 0).wave.cnt 2 ≠ 63) ∧
    (∀ n ∈ ([0, 15, 16] : List Nat), ∀ c ∈ (copying n 0).wave.actList.map (copyLane (copying n 0).wave (m64 0 1 0 4 0 0 0 0 0)), CopyOk (copying n 0) page c) := by
  simp only [CopyOk, Direct]; decide +kernel

theorem witness_CopiesAndMoves_commits :
    ((copying 16 63).check (.cpa (m64 0 1 0 4 0 0 0 0 0)) = none ∧ (copying 16 63).wave.held = none ∧ (copying 16 63).wave.pblk = none ∧
      16 ≤ (copying 16 63).wave.batch.length ∧ (copying 16 63).wave.cnt 2 = 63) ∧ Ready (.cpcommit (k32 0 0)) (copying 3 0) ∧
    (let s := withObjs [object]
     Ready (.cpcommit (k32 16 1024)) s ∧ s.findObj 0 0 (cget s.wave.s 16).toNat = some object ∧ s.wave.barrWaits = false ∧
       Ready (.cpcommit (k32 17 1024)) s ∧ s.findObj 0 0 (cget s.wave.s 17).toNat = none) := by
  simp only [ready_iff]; decide +kernel

theorem witness_CopiesAndMoves_channels :
    (Ready (.cpsm (m64 128 128 0 0 0 0 6 0 1)) small ∧ (small.wave.treg 0).valid = true ∧ (0 : Int) + 256 * 2 ^ 6 ≤ 16384 ∧
      address page 0 % 256 = 0 ∧ permFail page .load = none ∧ geomFail page = none ∧ ∀ i : Nat, i < 128 → address page (0 + 128 * (i : Int)) < 2 ^ 52) ∧
    Ready (.cwprd (k32 62 (1024 + 127))) small ∧ Ready (.cwprd (k32 0 0)) small := by
  simp only [ready_iff]; decide +kernel

/-- A bulk copy of 8 elements of a one-byte format to scratchpad offset 0x100, counted by the object at 64. -/
theorem witness_CopiesAndMoves_bulk :
    let d : List Byte := [4, 2, 0, 0] ++ List.replicate 60 0
    let s : State := { withObjs [object] with
      launches := [(0, { theLaunch with desc := d })],
      wave := { small.wave with s := csetList small.wave.s 16 [64, 0, 0, 0, 0, 0, 0, 0, 0, 0x100, 0, 0, 0, 0, 0x00010010, 0x00010001] } }
    let b : Bulk :=
      { id := 0, slot := 0, launch := 0, gslot := 0, obj := 64, st := false, td := 0, spoff := 0x100, org := [0, 0, 0, 0], ext := [16, 1, 1, 1], bytes := 16,
        items := none, dropped := [], wait := .ready, vc := [] }
    Ready (.cpb (m64 16 24 0 0 0 0 0 0 1)) s ∧ (cget s.wave.s 25).toNat % 16 = 0 ∧ (cget s.wave.s 24).toNat < s.myLaunch.tdcount ∧
      b.bad (s.myLaunch.tensor 0) = false ∧ 0x100 + 1024 ≤ s.myGroup.spadLen ∧ s.objIn 0 0 0x100 1024 = none ∧ s.wave.barrWaits = false ∧
      s.myBulks.length < 16 ∧ s.findObj 0 0 64 = some object := by
  simp only [ready_iff]; decide +kernel

/-- The agent with move words in s40 on: from frame 0x100000 of die 0 to frame 0x200000 of die 1, pages of 4 KiB. -/
def moving (e0 e6 e7 : Word) (ms : Table Move) : State :=
  { agent with
    moves := ms, frames := cset [] ((2 ^ 36 + 0x200000) / 4096) (BitVec.ofNat 64 (2 ^ 50 + (tpw 1).toNat * 2 ^ 16)),
    wave := { agent.wave with s := csetList agent.wave.s 40 [e0, 0, 0x200000, 0x10, tpw 0, tpw 1, e6, e7] } }

/-- A move of that page that has copied `pp` lines. -/
def aMove (pp : Nat) : Move := { src := 0x100000, dst := 2 ^ 36 + 0x200000, psize := 0, oldPw := tpw 0, newPw := tpw 1, pp := pp, busy := false }

theorem witness_CopiesAndMoves_moves :
    (Ready (.cpr (m64 32 40 0 0 0 0 0 0 1)) (moving 0x100000 0 1 []) ∧ Ready (.cpr (m64 32 40 0 0 0 0 0 0 1)) (moving 0x100000 6 0 [])) ∧
    (let s := moving 0x100001 0 0 []
     Ready (.cpr (m64 32 40 0 0 0 0 0 0 1)) s ∧ s.moveRefused 0x100001 (2 ^ 36 + 0x200000) (tpw 0) (tpw 1) 0 = some 6) ∧
    (let s := moving 0x100000 0 0 []
     Ready (.cpr (m64 32 40 0 0 0 0 0 0 1)) s ∧ s.moveRefused 0x100000 (2 ^ 36 + 0x200000) (tpw 0) (tpw 1) 0 = none ∧ tfind s.moves 0 = none) ∧
    (Ready (.cpr (m64 32 40 0 0 0 0 1 0 1)) (moving 63 0 0 []) ∧ Ready (.cpr (m64 32 40 0 0 0 0 2 0 1)) (moving 63 0 0 [])) ∧
    (tfind (moving 0 0 0 [(0, aMove 31)]).moves 0 = some (aMove 31) ∧ (aMove 31).pp ≠ pageBytes 0 / 128 ∧ (aMove 32).pp = pageBytes 0 / 128 ∧
      cellsWf (moving 0 0 0 [(0, aMove 32)]).frames = true ∧ (aMove 32).src % 4096 = 0) := by
  simp only [ready_iff]; decide +kernel

/-- A write-once page in tr3. -/
def onceReg : TransReg := { page with kind := 1 }

/-- `small` with that register, and scalars from s16 on. -/
def once (xs : List Word) : State := withWave fun w => { w with tr := tset w.tr 3 onceReg, s := csetList w.s 16 xs }

/-- What a range of units holds, as a test. -/
def unitsOk (s : State) (t : TransReg) (off : Int) (n : Nat) (p : State → List (TransReg × Nat) → Bool) : Bool :=
  match s.units t off 1 2 n with
  | .ok (u, l) => p u l
  | .error _ => false

/-- The accesses are done, and no line of the units waits. -/
def quietB (u : State) (l : List (TransReg × Nat)) : Bool :=
  u.accessesDone u.fresh && l.all fun x => (u.unitLines x).all fun i => !u.waitWrites.contains i

/-- No line of a sealed unit is counted. -/
def freeB (u : State) (l : List (TransReg × Nat)) : Bool :=
  ((l.filter fun x => cget u.seals ((x.1.ppage + x.2) / 4096) == 1).flatMap u.unitLines).all fun i => u.copyCount i == 0

/-- The first unit sealed, and its first line counted by core 0 or by none. -/
def sealed (counted : List Nat) : State :=
  { once [] with seals := cset [] 0 1, cores := [(0, { Core.reset with counted := counted })] }

theorem witness_WriteOnceAndBindingResults_seals :
    (let f := m64 129 128 3 0 0 0 0 0 1
     let s := once []
     Ready (.seal f) s ∧ Ready (.unseal f) s ∧ Ready (.worel f) s ∧ (s.wave.treg 3).valid = true ∧ address (s.wave.treg 3) (uniform s.wave f) % 4096 = 0 ∧
       address (s.wave.treg 3) (uniform s.wave f) < 2 ^ 52 ∧ (s.wave.sop f.d).toNat = 1 ∧ unitsOk s (s.wave.treg 3) (uniform s.wave f) 1 quietB = true ∧
       onceReg.kind = 1 ∧ onceReg.perm.getLsbD 0 = true ∧ geomFail onceReg = none ∧ cellsWf s.seals = true) ∧
    (let f := m64 16 128 3 0 0 0 0 0 1
     let s : State := { once [2] with waitWrites := [1] }
     Ready (.seal f) s ∧ unitsOk s (s.wave.treg 3) 0 2 (fun u l => !quietB u l) = true) ∧
    (let f := m64 129 128 3 0 0 0 0 0 1
     Ready (.unseal f) (sealed []) ∧ unitsOk (sealed []) onceReg 0 1 freeB = true ∧ cellsWf (sealed []).seals = true ∧
       unitsOk (sealed [0]) onceReg 0 1 (fun u l => !freeB u l || u.unitLines (onceReg, 0) != []) = true) := by
  simp only [ready_iff]; decide +kernel

/-- The chain of SMAP's steps, as a test. -/
def smapOk (s : State) (t : TransReg) (off : Int) (sp len : Nat) : Bool :=
  let w := s.wave
  let va := address t off
  match s.unitPage t off (fun x => if x.perm.getLsbD 0 && x.perm.getLsbD 1 then none else some (8, 2)) with
  | .page u x o =>
    !u.bindRefused x o len && (u.objIn w.core w.gslot sp len).isNone &&
      match u.bindRecs x (o / 4096 * 4096) ((o % 4096 + len + 4095) / 4096) with
      | .ok v =>
        let b : Binding := { vbase := BitVec.ofNat 64 va, len := len / 256, spoff := sp / 1024, grp := w.gslot, tr := x.moveTo va, dirty := [] }
        match v.tryBind w.core b with
        | .ok _ => true
        | .error _ => false
      | .error _ => false
  | .act _ => false

/-- A binding of 256 bytes at address 0 of which the second line was written. -/
def bound : Binding := { vbase := 0, len := 1, spoff := 0, grp := 0, tr := page, dirty := [1] }

/-- `small` with that binding. -/
def bounded : State := { small with cores := [(0, { Core.reset with smap := [bound] })] }

theorem witness_WriteOnceAndBindingResults_bindings :
    (let f := m64 16 128 0 0 0 0 0 0 1
     let s := once [1024, 512]
     Ready (.smap f) s ∧ (s.wave.treg 0).valid = true ∧ ((s.wave.sop64 f.d).setWidth 32).toNat = 1024 ∧ (s.wave.sop64 f.d >>> 32).toNat = 512 ∧
       1024 + 512 ≤ s.myGroup.spadLen ∧ smapOk s page 0 1024 512 = true) ∧
    (let f := m64 0 128 0 0 0 0 0 0 1
     Ready (.sunmap f) bounded ∧ bounded.myCore.smap.find? (fun b => b.grp == bounded.wave.gslot && b.vbase == BitVec.ofNat 64 (address page 0)) = some bound ∧
       (∀ i ∈ bound.dirty, (bounded.bindLine bound i).isSome = true) ∧ cellsWf bounded.mem = true ∧ Ready (.sunmap f) small ∧
       small.myCore.smap.find? (fun b => b.grp == small.wave.gslot && b.vbase == BitVec.ofNat 64 (address page 0)) = none) := by
  simp only [ready_iff]; decide +kernel

/-- A state whose page tables map the first 256 MiB to frames of die 0, for loads, stores and fetches. -/
def mapped (s : State) : State :=
  let s := s.withFetchWord 64 0
  { s with mem := csetList s.mem (store (2 ^ 36 + 0x2000) (tpw 1) 0).key [0x73] }

/-- Bytes within a line at an address that `mapped` maps. -/
def putBytes (s : State) (va : Nat) (bs : List Byte) : State := { s with mem := csetList s.mem (store 0 0xFF01 va).key bs }

/-- The page of `mapped` as a TLB keeps it after an access at 0x1000. -/
def cached : TransReg := { page with limit := 0xFFFF000, perm := 7, pbase := 0x1000, vbase := 0x1000 }

/-- `mapped`, once an access at 0x1000 has been translated. -/
def warm (s : State) : State :=
  { mapped s with
    cores := [(0, { s.core 0 with tlb := [cached] })]
    dies := [(0, { s.die 0 with tlb := [cached], walk := [(3, 0, 2 ^ 36 + 0x1000), (2, 0, 2 ^ 36 + 0x2000)] })]
    frames := csetList [] 1 [0x00250000FF010000] ++ csetList [] 0x1000001 [0x00050010FF020000, 0x00050010FF020000] }

/-- A queue at 0x1000 with entries at 0x2000: QCTL, QERR, and HEAD, TAIL, RSVMASK of shard 0, in `warm small`; its entry 8 and
reserved slot 3 hold entries of kind 2. -/
def queue (ctl err head tail mask : Nat) : State :=
  let s := warm { small with wave := { small.wave with s := csetList [] 16 [0x00050002, 1, 2, 3, 4, 5, 6, 7, 0x1000, 0x01000002] } }
  let s := putBytes s 0x1000 (toBytes ctl 8 ++ toBytes 0x2000 8 ++ toBytes err 48)
  let s := putBytes s 0x1040 (toBytes head 8 ++ toBytes tail 8 ++ toBytes mask 48)
  let s := putBytes s 0x2040 (toBytes 0x3302 32)
  putBytes s 0x2100 (toBytes 0x0002 32)

/-- What the header reads as satisfies `p`, and the wave stays as it was. -/
def headOk (s : State) (p : QHead → Bool) : Bool :=
  match s.qhead s.wave.core 0x1000 with
  | .ok u h => u.wave == s.wave && p h
  | _ => false

/-- The outcome of a step on the queue, as a number: 1 stored, 2 waits, 3 closed, 4 and the number of words taken, 100 and the code. -/
def outcome (x : Try QOut) : Nat :=
  match x with
  | .ok _ .stored => 1
  | .ok _ .wait => 2
  | .ok _ .closed => 3
  | .ok _ (.took ws) => 4 + ws.length
  | .ok _ (.fail c) => 100 + c
  | _ => 0

/-- The words of the ENQ of `queue`. -/
def enqWords (s : State) : List Word := (List.range 8).map fun k => cget s.wave.s (16 + k)

/-- Can ENQ and DEQ reach the queue? -/
def opens (s : State) : Bool :=
  match s.unitPage (s.wave.treg 0) 0x1000 (fun x => if x.perm.getLsbD 0 && x.perm.getLsbD 1 then none else some (8, 2)) with
  | .page _ _ _ => (s.wave.treg 0).valid && decide (address (s.wave.treg 0) 0x1000 = 0x1000)
  | .act _ => false

/-- The ENQ and DEQ of `queue`, through tr0 with the address in s24. -/
def enqF : M64 := m64 16 24 0 0 0 0 0 0 1

theorem witness_TaskQueues_headers :
    headOk (queue 6 0x12 0 0 0) (fun h => h.qerr != 0) = true ∧ headOk (queue 5 0 0 0 0) (fun h => h.qerr == 0 && !h.valid) = true ∧
    headOk (queue 6 0 5 13 4) (fun h => h.qerr == 0 && h.valid && h.kind == 0 && decide (8 < 2 ^ (h.log2n - 2)) && h.count 0 == 8 && h.mask 0 == 4) = true := by
  decide +kernel

theorem witness_TaskQueues_counts : headOk (queue 6 0 5 12 0) (fun h => h.count 0 == 7) = true ∧
    headOk (queue 0x406 0 0 0 0) (fun h => h.valid && h.close && h.mask 0 == 0 && h.count 0 == 0) = true := by decide +kernel

theorem witness_TaskQueues_open :
    let s := queue 6 0 0 0 0
    opens s = true ∧ Ready (.enq enqF) s ∧ Ready (.deq enqF) s ∧ s.accessesDone s.fresh = true ∧ s.enqWaiters 0x1000 0 = [] ∧ s.deqWaiters 0x1000 0 = [] := by
  simp only [ready_iff]; decide +kernel

theorem witness_TaskQueues_full : outcome ((queue 6 0 0 8 1).enqStep 0x1000 (enqWords (queue 6 0 0 8 1))) = 2 := by decide +kernel

theorem witness_TaskQueues_took : outcome ((queue 6 0 0 1 0).deqStep 0x1000) = 12 := by decide +kernel

theorem witness_TaskQueues_reserved : outcome ((queue 6 0 0 1 4).deqStep 0x1000) = 12 := by decide +kernel

theorem witness_TaskQueues_closed : outcome ((queue 0x406 0 0 0 0).deqStep 0x1000) = 3 := by decide +kernel

theorem witness_TaskQueues_failed : outcome ((queue 6 0x12 0 0 0).deqStep 0x1000) = 120 := by decide +kernel

/-- The dispenser of the launch, and another wave of the die that waits in front. -/
theorem witness_TaskQueues_waits :
    (let la : Launch := { theLaunch with disp := some (0, 0), dispN := 6, dispNext := 5, widfmt := [16, 16], ext := [3, 2] }
     let s : State := { small with launches := [(0, la)] }
     Ready (.fetchw (k32 4 0)) s ∧ s.myLaunch.disp ≠ none ∧ s.myLaunch.dispNext < s.myLaunch.dispN) ∧
    (let la : Launch := { theLaunch with disp := some (0, 0), dispN := 6, dispNext := 6 }
     let s : State := { small with launches := [(0, la)] }
     Ready (.fetchw (k32 4 0)) s ∧ s.myLaunch.disp ≠ none ∧ s.myLaunch.dispN ≤ s.myLaunch.dispNext) ∧
    (Ready (.fetchw (k32 4 0)) small ∧ small.myLaunch.disp = none) ∧
    (let s := queue 6 0 0 0 0
     let t : State := { s with waves := [{ wave with slot := 1, uid := 401, hold := .enq 0x1000 0 [] }, { wave with slot := 2, uid := 402, hold := .deq 0x1000 1 0 }] }
     opens t = true ∧ Ready (.enq enqF) t ∧ Ready (.deq enqF) t ∧ t.enqWaiters 0x1000 0 ≠ [] ∧ t.deqWaiters 0x1000 0 ≠ []) ∧
    (let s := queue 6 0 0 0 0
     let t : State := { s with fresh := 1, wave := { s.wave with outst := [anOutst 0 (some 0) (.load aCap 0 false true)], k := cset [] 0 1 } }
     opens t = true ∧ Ready (.enq enqF) t ∧ t.accessesDone t.fresh = false) := by
  simp only [ready_iff]; decide +kernel

/-! ### Traps and privileged registers -/

theorem witness_SystemInstructionResults : Ready (.trap (k32 0 0x7FF)) small ∧ Ready (.bkpt (k32 0 0)) small ∧ Ready (.logev (k32 62 0x7FF)) small ∧
    Ready (.logev (k32 128 0)) small ∧ small.wave.rep = none ∧ small.wave.pblk = none := by simp only [ready_iff]; decide +kernel

/-- A frame whose fields RTE accepts, as a test. -/
def frameOkB (bs : List Byte) : Bool :=
  let n (i k : Nat) : Nat := ofBytes ((bs.drop i).take k)
  decide (n 0 8 % 2 = 0 ∧ n 0 8 < 2 ^ 52 ∧ n 28 4 < 2 ^ 12 ∧ n 48 4 % 8 ≤ 4 ∧ n 48 4 / 8 % 32 = 0 ∧ n 48 4 < 2 ^ 9 ∧
    ¬(nbit (n 28 4) 1 = true ∧ nbit (n 28 4) 8 = true))

theorem frameOkB_iff (bs : List Byte) : FrameOk bs ↔ frameOkB bs = true := by simp only [frameOkB, FrameOk, decide_eq_true_eq]

/-- `inHandler`, mapped, with the link pair at 0x1000, where a frame with this PC, flags and FPCTL stands. -/
def framed (pc flags fpctl : Nat) : State :=
  let s := mapped { inHandler with wave := { inHandler.wave with s := csetList [] 62 [0x1000, 0] } }
  putBytes s 0x1000 (toBytes pc 8 ++ toBytes (2 ^ 64 - 1) 8 ++ toBytes 7 8 ++ toBytes 0 4 ++ toBytes flags 4 ++ toBytes 0 8 ++ toBytes 0 8 ++ toBytes fpctl 16)

/-- The frame is read, and `p` holds of it. -/
def framedB (s : State) (p : List Byte → Bool) : Bool :=
  match s.xlate s.wave.core 0x1000 with
  | .at_ u t o =>
    u.ownReady s.wave u.fresh true false false ((t.ppage + o) / 128) &&
      match u.accessAt s.wave.core t o 64 0x1000 How.load id with
      | .ok _ bs none => bs.length == 64 && p bs
      | _ => false
  | _ => false

theorem witness_HandlersAndPrivilege_returns :
    (Ready (.rte (k32 0 0)) (framed 0x200 1 0x103) ∧ framedB (framed 0x200 1 0x103) frameOkB = true) ∧
    framedB (framed 0x200 0x17F 0x4) frameOkB = false ∧ framedB (framed 0x200 0xEFF 0x4) frameOkB = true ∧
    framedB (framed (2 ^ 52 - 2) 0x7D 0) frameOkB = true ∧ framedB (framed 0x201 0 0) (fun bs => !frameOkB bs) = true ∧
    framedB (framed 0x200 0 5) (fun bs => !frameOkB bs) = true ∧
    (let s : State := { inHandler with wave := { inHandler.wave with s := csetList [] 62 [0, 0x100000] } }
     Ready (.rte (k32 0 0)) s ∧ 2 ^ 52 ≤ (cget s.wave.s 63 ++ cget s.wave.s 62).toNat) ∧
    (let s : State := { inHandler with wave := { inHandler.wave with s := csetList [] 62 [0x1020, 0] } }
     Ready (.rte (k32 0 0)) s ∧ (cget s.wave.s 63 ++ cget s.wave.s 62).toNat < 2 ^ 52 ∧ (cget s.wave.s 63 ++ cget s.wave.s 62).toNat % 64 ≠ 0) := by
  simp only [ready_iff]; decide +kernel

/-- The agent with a value in s4:s5. -/
def agentWith (x y : Word) : State := { agent with wave := { agent.wave with s := csetList [] 4 [x, y] } }

/-- The numbers of the registers, a value that each takes, and one that each refuses. -/
def privValues : List (Nat × (Word × Word) × (Word × Word)) :=
  [(0, (0xFFFF, 0), (0x10000, 0)), (1, (0, 0), (0x10000, 0)), (2, (0x00000600, 0), (3, 0)), (4, (0x101, 0xFFFFF), (2, 0)), (6, (0x200000, 0), (0x100000, 0)),
    (0x20, (0x80000000 + 127 * 1024, 0), (0x80000000, 0)), (0x21, (0x3F800000, 0), (0, 0)), (0x22, (0x8000000, 0), (0x4000000, 0)),
    (0x24, (0x200FFF, 0), (0x1000, 0))]

theorem witness_HandlersAndPrivilege_registers :
    (privValues.all fun p => readyB (agentWith p.2.1.1 p.2.1.2) (.pwr (k32 4 p.1)) && readyB (agentWith p.2.2.1 p.2.2.2) (.pwr (k32 4 p.1))) = true ∧
    (([0, 1, 2, 4, 6, 8, 9, 10, 11, 0x20, 0x21, 0x22, 0x24] : List Nat).all fun n => readyB agent (.prd (k32 4 n))) = true ∧
    (∀ p ∈ (agent.die 0).geodes, p.2.open_ = none) := by decide +kernel

/-! ### The machine's own rules -/

/-- Reading covered instructions gives a body that satisfies `p`. -/
def coveredOk (s : State) (covers : Nat → Bool) (n : Nat) (p : List (DWord × Instr) → Bool) : Bool :=
  match s.readCovered covers s.wave.pc (s.wave.pc + 4) n with
  | .ok _ body _ => p body
  | _ => false

/-- A REP of four repeats before VADD v1, v0, s2, and a PBLK of one instruction before it. -/
def repeating : State := small.withFetchWord 96 (0x00887701 + 2 ^ 32 * 0x00040004000241F3)

theorem witness_PrefixesAndRetiring_starts :
    (let f : Rep := { stc := 0, stb := 0, sta := 3, std := 1, cnt := 3, dist := 0 }
     Ready (.rep f) repeating ∧ repeating.wave.resume = .none ∧ coveredOk repeating repCovers 1 (fun l => match l with
       | [(_, i)] => (opForm i).2 != .c16 && stepOk i 0 && stepOk i 1
       | _ => false) = true) ∧
    (let f : Pblk := { sense := true, cm := 7, pat := 0, cnt := 0, dist := 0 }
     let s : State := { repeating with wave := { repeating.wave with recovery := true } }
     Ready (.pblk f) s ∧ s.wave.resume = .none ∧ coveredOk s pblkCovers 1 (fun l => l.length == 1) = true) := by
  simp only [ready_iff]; decide +kernel

/-- A covered instruction. -/
def aRep (j : Nat) : RepState := { j := j, n := 4, std := 1, sta := 0, stb := 0, stc := 0, ins := .vaddG64 (g64 1 0 2 0 0 0 2), insAt := 0x104, after := 0x10C }

/-- A PBLK before `n` covered instructions. -/
def aPblk (n : Nat) : PblkState := { j := 0, cond := 0, pat := 1, body := List.replicate n (0x104, .vaddG64 (g64 1 0 2 0 0 0 2)), after := 0x10C }

theorem witness_PrefixesAndRetiring_advances : wave.rep = none ∧ wave.pblk = none ∧ (aRep 2).j + 1 < (aRep 2).n ∧ (aRep 3).n ≤ (aRep 3).j + 1 ∧
    (aPblk 2).body.length = 2 ∧ (aPblk 1).body.length = 1 := by decide +kernel

theorem witness_Checks :
    State.reset.check (.fnfree (k32 0 0)) = some (0x13, 2) ∧
    small.check (.prd (k32 4 0)) = some (3, 0) ∧ small.check (.rte (k32 0 0)) = some (3, 0) ∧
    small.check (.saddK32 (k32 64 0)) = some (2, 0) ∧ small.check (.saddK32 (k32 63 0)) = none ∧ HasWords (.saddK32 (k32 63 0)) ∧
    (let s := withWave fun w => { w with pblk := some (aPblk 1) }
     s.check (.vaddG64 (g64 1 0 2 0 0 0 2)) = none ∧ s.wave.pblk.isSome = true ∧ s.wave.act = 0) ∧
    (let s := withWave fun w => { w with k := cset [] 0 63 }
     s.check (.ld (m64 1 0 0 2 0 0 0 0 0)) = none ∧ s.wave.pblk = none ∧
       s.wave.countersFull (classOf (insOp (.ld (m64 1 0 0 2 0 0 0 0 0)))) (insCf (.ld (m64 1 0 0 2 0 0 0 0 0))) = true) ∧
    (let s := copying 16 63
     s.wave.held = none ∧ s.check (.cpa (m64 0 1 0 4 0 0 0 0 0)) = none ∧ s.wave.pblk = none ∧ s.wave.commitFull (.cpa (m64 0 1 0 4 0 0 0 0 0)) = true) ∧
    (let s := withWave fun w => { w with vbad := [17] }
     s.check (.vaddG64 (g64 1 1 2 0 0 0 2)) = none ∧ s.wave.badRead (.vaddG64 (g64 1 1 2 0 0 0 2)) = some 17 ∧
       s.wave.badRead (.vaddG64 (g64 1 0 2 0 0 0 2)) = none) ∧
    (let h : Held := { ins := .fence (m64 0 0 0 0 2 2 0 0 0), since := 0, em := 1, scc := false, m := [], s := [], v := [], tr := [] }
     (withWave fun w => { w with held := some h }).wave.held = some h) := by decide +kernel

/-- `mapped small` with handlers at 0x400 and frames from 0x200000 on. -/
def handled : State :=
  let s := mapped small
  { s with cores := [(0, { Core.reset with trapvec := 0x401, trapfrm := 0x200000 })] }

/-- A trap of code 0x14. -/
def aTrap : TrapReq := { code := 0x14, detail := 7, addr := 0x100, pc := 0x104, retired := true }

/-- What storing the frame of the trap meets: 0 stored, 1 not yet, 2 impossible. -/
def storesFrame (s : State) (t : TrapReq) (fa : DWord) : Nat :=
  let w := s.wave
  let d := s.die 0
  let v : State := { s with
    dies := tset s.dies 0 { d with tokens := d.tokens.filter fun r => !(r.core == w.core && r.slot == w.slot) },
    wave := { w with
      trap := some t, hold := .none, held := none, dropped := [], arrived := none, arrOrd := false, requested := false, waited := 0, promoted := false } }
  match v.frameIo fa .store (fun _ => w.frame t (s.dieClock 0).toNat) with
  | .ok _ _ => 0
  | .wait _ => 1
  | .fail => 2

theorem witness_TrapEntryAndFrame :
    handled.wave.drained = true ∧ handled.wave.pend = [] ∧ handled.wave.granted = false ∧ handled.wave.priv = false ∧ handled.wave.recovery = false ∧
      (handled.core 0).trapvec.getLsbD 0 = true ∧ storesFrame handled aTrap 0x200000 = 0 ∧ storesFrame handled aTrap 0x40000000 = 2 ∧
      storesFrame { handled with moves := [(0, { aMove 0 with src := 0x200000, busy := true })] } aTrap 0x200000 = 1 ∧ bits (handled.core 0).trapfrm 51 21 * 2 ^ 21 = 0x200000 := by decide +kernel

theorem witness_TrapWithoutHandler :
    (small.wave.granted = false ∧ small.wave.batch = [] ∧ small.wave.pend = [] ∧ small.wave.drained = true ∧ small.wave.priv = false ∧
      small.wave.recovery = false ∧ (small.core 0).trapvec.getLsbD 0 = false) ∧
    (inHandler.wave.drained = true ∧ inHandler.wave.recovery = true ∧ inHandler.wave.granted = false ∧ inHandler.wave.batch = [] ∧ inHandler.wave.pend = []) ∧
    (agent.wave.drained = true ∧ agent.wave.priv = true ∧ agent.mgmt.mvdone = true ∧ agent.wave.granted = false ∧ agent.wave.batch = [] ∧ agent.wave.pend = []) ∧
    (busy.wave.drained = false ∧ busy.wave.granted = false ∧ busy.wave.batch = [] ∧ busy.wave.pend = []) := by decide +kernel

theorem witness_ResultsLand :
    cellsWf wave.v = true ∧ cellsWf wave.s = true ∧ cellsWf wave.m = true ∧
    (let s := withWave fun w => { w with pend := [(0, .sreg 4 1), (1, .sreg 4 2)] }
     s.wave.pend = [(0, .sreg 4 1), (1, .sreg 4 2)] ∧ 0 ≤ s.clock ∧ s.clock < 1) ∧
    ([(2, .sreg 4 1), (2, .sreg 5 1), (5, .scc true)] : List (Nat × WaveWrite)).Pairwise (fun p q => p.1 ≤ q.1) := by decide +kernel

/-- A fetch gives bytes that `p` holds of, with the wave still in focus. -/
def fetchOk (s : State) (p : List Byte → Bool) : Bool :=
  match { s with chosen := false }.fetch s.wave.core s.wave.pc.toNat with
  | .ok t bs => t.wave.core == s.wave.core && t.wave.slot == s.wave.slot && p bs
  | _ => false

/-- A fetch that meets no translation, and one that traps. -/
def fetchEnds (s : State) : Nat :=
  match { s with chosen := false }.fetch s.wave.core s.wave.pc.toNat with
  | .ok _ _ => 0
  | .wait _ => 1
  | .absent _ => 2
  | .trap c _ _ => 100 + c

theorem witness_StepRunsTheInstruction :
    (let s := small.withFetchWord 64 0x00040004000241F3
     s.chosen = true ∧ s.rootReserved = false ∧ s.wave.pend = [] ∧ s.wave.reports = [] ∧ s.wave.rep = none ∧ s.wave.pblk = none ∧
       fetchOk s (fun bs => match decode bs with
         | .ok (i, _) => i == .vaddG64 { g64 1 0 2 0 0 0 2 with dist := 4 }
         | .error _ => false) = true) ∧
    fetchOk (small.withFetchWord 64 0x3FFE3) (fun bs => match decode bs with
         | .ok _ => false
         | .error e => (small.refusal (.error e)).isSome) = true ∧
    (let s := small.withFetchWord 64 0
     fetchEnds { s with wave := { s.wave with pc := 0x10000000 } } = 2 ∧ fetchEnds { s with wave := { s.wave with pc := 0x10000000000000 } } = 108 ∧
     fetchEnds { s with moves := [(0, { aMove 0 with src := 0, pp := 2, busy := true })] } = 1) ∧
    (let s : State := { withWave fun w => { w with reports := [{ code := 8, detail := 7, addr := 0 }] } with chosen := true }
     s.chosen = true ∧ s.rootReserved = false ∧ s.wave.pend = [] ∧ s.wave.reports ≠ [] ∧ s.wave.recovery = false) ∧
    (stepped (aRep 3).ins 1 0 0 0 3).isSome = true ∧ { small with chosen := true, mgmt := { small.mgmt with ptroot := 0x400000000000 } }.rootReserved = true ∧
    (small.chosen = false ∧ small.agenda = [] ∧ small.nextTurn = some 0) ∧ ({ small with turn := 1 }).nextTurn = none := by decide +kernel

/-- One step of that state runs the instruction; the memory keeps its form. -/
theorem witness_StepKeepsMemoryForm : Memory.wf (small.withFetchWord 64 0x00040004000241F3).mem = true ∧
    (match step (small.withFetchWord 64 0x00040004000241F3) with
      | .next t => t.wave.pc == 0x108
      | _ => false) = true := by decide +kernel

theorem witness_EncodingDecodes : HasWords (.vaddG64 (g64 1 0 2 0 0 0 2)) ∧ WellFormed (.vaddG64 (g64 1 0 2 0 0 0 2)) ∧
    (decode [0xE1, 0x00, 0x20, 0x00, 0xFF]).toOption.isSome = true := by decide +kernel

theorem test_reset_leaves : State.reset.boot.state = 1 ∧ Memory.wf State.reset.mem = true ∧ State.reset.pool = 320 ∧ (State.reset.die 3).grate = 0x3F800000 := by
  decide +kernel

/-! ### Tiles and matrices -/

/-- A row-major descriptor of rank 2 at 0x1000: format, CHK, extents, stride of a row in units of 16 bytes. -/
def tensor2 (f chk d0 d1 s1 : Nat) : List Byte :=
  toBytes f 1 ++ [2, 0] ++ toBytes chk 5 ++ toBytes 0x1000 16 ++ toBytes d0 4 ++ toBytes d1 4 ++ toBytes 1 4 ++ toBytes 1 4 ++ toBytes s1 12 ++
    toBytes 0x3F800000 12

/-- A configuration of tensor `t`. -/
def cfg (t rows cols : Nat) : Word := BitVec.ofNat 32 (2 ^ 31 + t * 2 ^ 16 + (cols - 1) * 2 ^ 7 + (rows - 1))

/-- Tensors 0 INT8 with CHK, 1 FP32, 2 T2, 3 MXFP8E4; tiles as given; a wave with a token, and scalars from s4 on. -/
def tiled (chk : Nat) (ts : List Word) (xs : List Word) : State :=
  { small with
    launches := [(0, { theLaunch with desc := tensor2 0x0B chk 8 4 1 ++ tensor2 1 0 4 4 1 ++ tensor2 0x0F 0 8 4 1 ++ tensor2 0x12 0 32 4 2, gang := true })],
    groups := [(0, { group with tcfg := csetList [] 0 ts })],
    cores := [(0, { Core.reset with side := csetList [] 0 (List.replicate 8 0x44) })],
    wave := { small.wave with granted := true, s := csetList [] 4 xs } }

/-- An A tile of 4 by 8, a B tile of 8 by 4, a ternary one, a B tile of 16 by 4. -/
def tiles : State := tiled 0 [cfg 0 4 8, cfg 0 8 4, cfg 2 4 8, cfg 0 16 4] [0, 0, 0x00080004, 0]

/-- The instructions on `tiles` that their checks let pass. -/
theorem witness_Tiles_ready :
    (([.tcfg (g64 0 0 3 7 0 0 0), .tcfg (g64 0 1 127 127 0 0 0), .tld (g64 0 4 0 0 0 0 1), .tst (g64 0 4 0 0 0 0 1), .tzero (g64 0 0 0 0 0 0 0),
      .tmovv (g64 0 63 131 0 0 0 2), .vmovt (g64 63 0 128 0 0 0 2), .txp (g64 1 0 0 0 0 0 0), .ttrl (g64 4 0 0 0 0 0 0)] : List Instr).all (readyB tiles)) = true ∧
    tiles.tileBad 0 = none ∧ tiles.tileBad 1 = none ∧
    cfgValid (tiles.tileSnap 0).cfg = true ∧ cfgRows (tiles.tileSnap 0).cfg = 4 ∧ cfgCols (tiles.tileSnap 0).cfg = 8 ∧ cfgRows (tiles.tileSnap 1).cfg = 8 ∧
    cfgCols (tiles.tileSnap 1).cfg = 4 ∧ 8 % fmtBlock (tiles.myLaunch.tensor 0).fmt = 0 ∧ tileSize (tiles.myLaunch.tensor 0).fmt 4 8 ≤ Config.tileBytes ∧
    originOk (tensorOf tiles 0).fmt (origins tiles.wave (g64 0 4 0 0 0 0 1)) = true ∧ (tensorOf tiles 0).trl = false ∧ ternaryFmt (tensorOf tiles 0).fmt = false ∧
    tiles.logRoom tiles.wave.core = true ∧ (tiles.wave.sop 131).toNat < 4 ∧ 63 + (tileRow (tensorOf tiles 0).fmt 8 + 63) / 64 ≤ tiles.wave.vregs ∧
    fmtScaled (tensorOf tiles 0).fmt = false ∧ (tensorOf tiles 1).fmt = (tensorOf tiles 0).fmt ∧ (tiles.myLaunch.tensor 0).trailerOk = true := by decide +kernel

/-- A read of a checked or ternary tile gives this code, 0 if none is wrong. -/
def tldCode (s : State) (f : G64) : Nat :=
  let t := s.tileSnap f.d.toNat
  let d := tensorOf s f.d.toNat
  match s.tldRead d f.d.toNat t.cfg (origins s.wave f) true with
  | .ok _ (_, none) => 0
  | .ok _ (_, some c) => c
  | _ => 99

theorem witness_Tiles_ternary :
    let s := warm (tiled 0 [cfg 2 1 8] [0, 0])
    let f := g64 0 4 0 0 0 0 1
    Ready (.tld f) s ∧ cfgValid (s.tileSnap 0).cfg = true ∧ originOk (tensorOf s 0).fmt (origins s.wave f) = true ∧ (tensorOf s 0).trl = false ∧
      ternaryFmt (tensorOf s 0).fmt = true ∧ s.wave.cnt 3 = 0 ∧
      s.addrsReady s.fresh false ((tensorOf s 0).tldAddrs (s.tileSnap 0).cfg (origins s.wave f)) = true ∧ tldCode s f = 0 := by
  simp only [ready_iff]; decide +kernel

theorem witness_Tiles_checked :
    let s := mapped (tiled 1 [cfg 0 1 8] [0, 0])
    let f := g64 0 4 0 0 0 0 1
    Ready (.tld f) s ∧ (tensorOf s 0).trl = true ∧ (∀ x ∈ origins s.wave f, x = 0) ∧ (tensorOf s 0).trailerOk = true ∧
      s.addrsReady s.fresh false ((tensorOf s 0).tldAddrs (s.tileSnap 0).cfg (origins s.wave f)) = true := by
  simp only [ready_iff]; decide +kernel

/-- A configuration that is not valid, rows and columns out of range, formats that do not fit. -/
theorem witness_Tiles_traps :
    (let s := tiled 0 [0, cfg 0 8 4, cfg 0 8 4, cfg 3 4 32] [0, 0, 0x00080004, 0x02010081]
     (([.tcfg (g64 0 3 3 7 0 0 0), .tcfg (g64 0 0 7 0 1 0 2), .tld (g64 0 4 0 0 0 0 1), .tst (g64 0 4 0 0 0 0 1), .tmovv (g64 0 0 128 0 0 0 2),
        .vmovt (g64 0 0 128 0 0 0 2), .txp (g64 1 0 0 0 0 0 0), .txp (g64 1 2 0 0 0 0 0), .mma (g64 0 0 1 128 0 0 4), .ttrl (g64 4 3 0 0 0 0 0)] : List Instr).all (readyB s)) = true ∧
       cfgValid (s.tileSnap 0).cfg = false ∧ 8 % fmtBlock (s.myLaunch.tensor 3).fmt ≠ 0 ∧ bits (s.wave.sop 7) 15 0 = 129 ∧
       cfgRows (s.tileSnap 1).cfg ≠ cfgCols (s.tileSnap 2).cfg ∧ (s.myLaunch.tensor 3).trailerOk = false) ∧
    (let s := tiled 1 [cfg 0 4 8, cfg 2 8 4, cfg 0 8 4, cfg 1 8 4] [1, 0, 0, 0]
     Ready (.tld (g64 0 4 0 0 0 0 1)) s ∧ (tensorOf s 0).trl = true ∧ (∃ x ∈ origins s.wave (g64 0 4 0 0 0 0 1), x ≠ 0) ∧
       Ready (.tld (g64 1 4 0 0 0 0 1)) s ∧ originOk (tensorOf s 1).fmt (origins s.wave (g64 1 4 0 0 0 0 1)) = false ∧
       Ready (.tmovv (g64 0 0 132 0 0 0 2)) s ∧ cfgRows (s.tileSnap 0).cfg ≤ (s.wave.sop 132).toNat ∧ Ready (.vmovt (g64 0 0 132 0 0 0 2)) s ∧
       Ready (.txp (g64 3 0 0 0 0 0 0)) s ∧ (tensorOf s 3).fmt ≠ (tensorOf s 0).fmt ∧ cfgRows (s.tileSnap 3).cfg = cfgCols (s.tileSnap 0).cfg) := by
  simp only [ready_iff]; decide +kernel

theorem witness_MatrixOperations :
    (([.mma (g64 0 0 1 128 0 1 4), .mmat (g64 0 2 1 128 0 0 4), .mmas (g64 0 0 3 4 0 0 4), .mmax (g64 0 0 1 128 0 0 4), .accld (g64 0 128 4 0 0 1 3),
      .accst (g64 0 128 4 0 0 1 3), .accq (g64 0 128 129 0 0 1 3), .tscl (g64 0 128 6 129 0 0 7)] : List Instr).all (readyB tiles)) = true ∧
    tiles.wave.granted = true ∧ (∀ i < 4, tiles.tileBad i = none) ∧ tiles.badIn (sidePa 0 0) 8 = none ∧ BlockOk tiles.myGroup 0 4 4 1 ∧ mmaPair (tensorOf tiles 0).fmt (tensorOf tiles 1).fmt = true ∧
    ternaryFmt (tensorOf tiles 2).fmt = true ∧ (tensorOf tiles 1).fmt = 0x0B ∧ (tiles.tileSnap 2).reserved (tensorOf tiles 2).fmt = false ∧
    cfgRows (tiles.tileSnap 3).cfg = 2 * cfgCols (tiles.tileSnap 0).cfg ∧ metaBad (cgetList (tiles.core 0).side 0 8) 4 8 = false ∧
    tiles.mmaxBadOp (g64 0 0 1 128 0 0 4) = none ∧ accldFmt 1 (tiles.myLaunch.tensor 0).fmt = true ∧ accstFmt (tiles.myLaunch.tensor 0).fmt = true ∧
    accqFmt (tiles.myLaunch.tensor 0).fmt = true ∧ BlockOk tiles.myGroup 0 4 8 1 ∧ BlockOk tiles.myGroup 0 4 8 0 ∧ (tiles.myLaunch.tensor 0).trailerOk = true ∧
    tiles.logRoom 0 = true ∧ ({ tiles with wave := { tiles.wave with granted := false } }).wave.granted = false := by
  simp only [BlockOk]; decide +kernel

/-- A block that runs past the group's memory, and one that runs past a row of accumulators. -/
theorem witness_Tiles_blocks : ¬BlockOk tiles.myGroup (16384 - 256 * 3) 4 8 1 ∧ BlockOk tiles.myGroup (16384 - 256 * 4) 4 8 1 ∧ ¬BlockOk tiles.myGroup 249 4 8 1 ∧
    BlockOk tiles.myGroup 248 4 8 1 ∧ ¬BlockOk tiles.myGroup 1 4 8 2 := by simp only [BlockOk]; decide +kernel

/-! ### The micropolygon pipeline and rays -/

/-- A grid of die 0 and Geode 0 in slot 0, by state. -/
def aGrid (st infl : Nat) : Grid :=
  { handle := 0, inSlot := true, state := st, refs := 1, infl := infl, patch := 0, prec := 0, nu := 1, nv := 1, mlen := 1, stride := 32, frame := 0xF00,
    home := 0, spaddr := 0, diced := 0, released := 0, spilled := 0, vc := [] }

/-- A module whose Geode 0 has the bucket of index 0 open, of a frame table at 0xF00, and that grid in its slot; bucket handle 0 in s4;
the driver has declined the pages of the list. -/
def geoded (g : Grid) (dropped : List Nat) : State :=
  let s := warm small
  { s with
    dies := [(0, { s.die 0 with
      gcfg := 0x80000000 + 127 * 1024, geodes := [(0, { Geode.reset with open_ := some (0xF00, 0), slots := [(0, { serial := 0, grid := some 0, vc := [] })] })],
      grids := [(0, g)] })],
    wave := { s.wave with dropped := dropped } }

/-- A bucket record whose list, at 0x2000, holds one entry, of grid 0. -/
def listed (g : Grid) (dropped : List Nat) : State :=
  putBytes (geoded g dropped) 0x1000 (toBytes 0 24 ++ toBytes 0x2000 8 ++ toBytes 1 4 ++ toBytes 1 4 ++ toBytes 1 24)

/-- An outcome that `p` holds of, in a state whose wave no instruction holds. -/
def tryP {α : Type} (x : Try α) (p : α → Bool) : Bool :=
  match x with
  | .ok s a => s.wave.held.isNone && p a
  | _ => false

theorem witness_PipelineInstructionResults_ready :
    (([.dice (g64 20 4 0 0 0 0 1), .gridacq (g64 20 4 0 0 0 0 1), .gridacq (g64 20 4 0 0 1 0 1), .gridrel (g64 20 4 0 0 0 0 1), .spill (g64 0 4 0 0 0 0 1),
      .bkt (g64 20 8 0 0 0 0 1), .bkt (g64 20 4 0 0 1 0 1), .bkt (g64 0 4 0 0 2 0 1), .rast (g64 0 4 5 0 0 0 3), .rayq (g64 0 40 30 0 1 1 2),
      .rayrd (g64 59 0 0 0 0 3 0)] : List Instr).all (readyB (geoded (aGrid 1 0) []))) = true ∧
    (geoded (aGrid 1 0) []).openBucket ((geoded (aGrid 1 0) []).wave.sop 4) true = some (0xF00, 0) ∧
    tfind ((geoded (aGrid 1 0) []).die 0).grids 0 = some (aGrid 1 0) ∧ (geoded (aGrid 1 0) []).slotGrids 0 0 = [(0, aGrid 1 0)] ∧
    (geoded (aGrid 3 1) []).slotGrids 0 0 = [(0, aGrid 3 1)] ∧ (aGrid 3 1).infl ≠ 0 ∧ (geoded (aGrid 2 0) []).accessesDone (geoded (aGrid 2 0) []).fresh = true ∧
    (∀ o ∈ (geoded (aGrid 1 0) []).wave.outst, o.eff.query ≠ some 3) := by decide +kernel

/-- A query of slot 3 is outstanding. -/
theorem witness_PipelineInstructionResults_queries :
    let s : State := { small with fresh := 1, wave := { small.wave with outst := [anOutst 0 none (.rayq 3 [] 0 false)] } }
    Ready (.rayrd (g64 59 0 0 0 0 3 0)) s ∧ ∃ o ∈ s.wave.outst, o.eff.query = some 3 := by simp only [ready_iff]; decide +kernel

/-- With the pages of the tables declined, all reads give zeros: DICE finds the bucket empty, GRIDREL registers the grid nowhere, and
BKT finds no entry; with no spill area there is no room for a spill. -/
theorem witness_PipelineInstructionResults_outcomes :
    tryP (dicing (geoded (aGrid 3 0) [0, 1]) 0xF00 0 0) (fun x => match x with
      | .empty => true
      | _ => false) = true ∧
    tryP ((geoded (aGrid 2 0) [0, 1]).releaseGrid (aGrid 2 0)) (fun n => n == 1) = true ∧ tryP ((geoded (aGrid 3 0) [0, 1]).spill (aGrid 3 0)) (fun b => !b) = true ∧
    tryP (((geoded (aGrid 3 0) [0, 1]).gframe 0xF00).andThen fun s fr => (s.gread (fr.rec_ 0) 64).andThen fun s x =>
      (s.gentries (ofBytes ((x.1.drop 24).take 8)) (ofBytes ((x.1.drop 36).take 4))).andThen fun s es => .ok s (es, ofBytes ((x.1.drop 40).take 4)))
      (fun y => y.1.isEmpty && !nbit y.2 8) = true := by decide +kernel

/-- Only the page of the frame header is declined: the bucket's list holds the grid. -/
theorem witness_PipelineInstructionResults_rast :
    tryP (((listed (aGrid 3 0) [0]).gframe 0xF00).andThen fun s fr => s.entryOf (fr.rec_ 0) 0) (fun y => match y with
      | some (fl, _) => !nbit fl 1
      | none => false) = true ∧
    Ready (.rast (g64 0 4 5 0 0 0 3)) (listed (aGrid 3 0) [0]) ∧ (listed (aGrid 3 0) [0]).openBucket 0 false = some (0xF00, 0) ∧
    (listed (aGrid 3 0) [0]).grid 0 = some (aGrid 3 0) := by simp only [ready_iff]; decide +kernel

/-! ### What happens beside the instructions -/

/-- `small` about to issue VADD v1, v0, s2 with DIST 4. -/
def issuing : State := { small.withFetchWord 64 0x00040004000241F3 with chosen := false }

/-- Its instruction. -/
def issued1 : Instr := .vaddG64 { g64 1 0 2 0 0 0 2 with dist := 4 }

/-- `two` with the second wave promoted, and with the first of greater Age, and with a privileged wave in slot 15. -/
theorem witness_IssueEvents_choice :
    two.choose 0 [0, 1] = some 0 ∧ ({ two with waves := [{ wave with slot := 1, promoted := true }] } : State).choose 0 [0, 1] = some 1 ∧
    ({ two with wave := { wave with age := 5 } } : State).choose 0 [0, 1] = some 1 ∧
    ({ two with waves := [{ wave with slot := 15, priv := true }] } : State).choose 0 [0, 15] = some 15 := by decide +kernel

theorem witness_IssueEvents_issue :
    (∀ v ∈ issuing.waves, v.core = issuing.wave.core → v.slot / 16 ≠ issuing.wave.slot / 16) ∧ issuing.wave.pend = [] ∧ issuing.nextIns = some issued1 ∧
    issuing.ready (some issued1) = true ∧ isMatrix (some issued1) = false ∧ tget 0 issuing.pipeFree (4 * issuing.wave.core + issuing.wave.slot / 16) ≤ issuing.clock ∧
    issuing.wave.notBefore ≤ issuing.clock ∧
    (let s : State := { issuing with clock := 3 }
     s.nextIns = some issued1 ∧ s.wave.lastIssue + max (insDist issued1) 1 ≤ s.clock + 1) := by decide +kernel

/-- A request of one token in the queue of the last die. -/
def asking : State := { withWave (fun w => { w with requested := true }) with dies := [(3, { Die.reset with tokens := [{ core := 0, slot := 0, need := 1 }] })] }

theorem witness_IssueEvents_token :
    let r : TokenReq := { core := 0, slot := 0, need := 1 }
    let u := (List.range 4).foldl (fun s d => s.purgeTokens d) asking
    (u.die 3).tokens = [r] ∧ (∀ e < 4, e ≠ 3 → (u.die e).tokens = []) ∧ r.need = 1 ∧ u.inuse < u.pool ∧
      u.tokenParty r.core r.slot = some [(u.wave.core, u.wave.slot)] := by decide +kernel

theorem witness_IssueEvents_promotion : (withWave fun w => { w with waited := 64 }).wave.waited = 64 ∧ small.wave.waited < 64 ∧
    small.wave.notBefore ≤ small.clock := by decide +kernel

/-- `small` with these outstanding. -/
def outstanding (os : List Outst) : State := { withWave fun w => { w with outst := os } with fresh := 9, clock := 2 }

/-- Results that have come: of one instruction, and of the younger of two of a class. -/
theorem witness_CompletionEvents_results :
    let o := anOutst 0 (some 4) (.writes [.sreg 4 1])
    let p := anOutst 1 (some 4) (.writes [.sreg 5 1])
    (let s := outstanding [o]
     s.wave.findOutst o.id = some o ∧ o.due s.clock = true ∧ o.cls ≠ some 2 ∧ (s.asEngine o fun t => t.progress { o with wait := .ready }).2.eff = .writes [.sreg 4 1] ∧
       (replaced s o).wave.oldest o = true ∧ s.wave.ended = false ∧ s.wave.heldAt o = false) ∧
    (let s := outstanding [o, p]
     s.wave.findOutst p.id = some p ∧ p.due s.clock = true ∧ (s.asEngine p fun t => t.progress { p with wait := .ready }).2.eff = .writes [.sreg 5 1] ∧
       (replaced s p).wave.oldest p = false) ∧
    (let o := anOutst 0 (some 4) (.fn true [] [.sreg 4 1])
     ((outstanding [o]).asEngine o fun t => t.progress { o with wait := .ready }).2.results 1 = none) := by decide +kernel

theorem witness_CompletionEvents_functions :
    let o := anOutst 0 (some 4) (.fn false [.fnHead 0 1 0 0] [])
    let p := anOutst 0 (some 4) (.fn false [.fnHead 0 1 0 0] [.sreg 4 1])
    (outstanding [o]).fnOps 0 = [(0, o)] ∧ (outstanding [p]).fnOps 0 = [(0, p)] ∧ o.eff = .fn false [.fnHead 0 1 0 0] [] ∧
      (landAll (outstanding [o]) [.fnHead 0 1 0 0]).wave.heldAt o = false ∧ ([.sreg 4 1] : List WaveWrite) ≠ [] := by decide +kernel

theorem witness_CompletionEvents_waits :
    let o : Outst := { anOutst 0 (some 0) (.load aCap 0 false true) with wait := .retry 3 }
    (outstanding [o]).wave.findOutst o.id = some o ∧ o.wait = .retry 3 ∧ (outstanding [o]).clock < 3 ∧ 3 ≤ ({ outstanding [o] with clock := 3 } : State).clock := by
  decide +kernel

/-- A phase of tag 7 to be released at clock 2. -/
theorem witness_CompletionEvents_barrier :
    let s : State := { outstanding [] with launches := [(0, { theLaunch with phase := [(7, 2), (0, 9)] })] }
    ∃ x ∈ (s.launch 0).phase, x.1 = 7 ∧ x.2 ≤ s.clock := by decide +kernel

theorem witness_CompletionEvents_matrix :
    let o := anOutst 0 (some 3) (.mma (tiles.tileSnap 0) (tiles.tileSnap 1) none 0 true)
    let s : State := { tiles with wave := { tiles.wave with outst := [o] }, fresh := 1 }
    s.engineOps s.wave.core = [(s.wave.core, s.wave.slot, o)] ∧ o.due s.clock = true ∧ s.wave.heldAt o = false := by decide +kernel

/-- A batch whose last copy has been made, and one that a translation fault stops. -/
theorem witness_CompletionEvents_batches :
    (let o := anOutst 0 (some 2) (.batch [] (some 64) 16 [])
     let s : State := { withObjs [object] with wave := { (withObjs [object]).wave with outst := [o] }, fresh := 1 }
     s.wave.outst.find? (fun x => x.cls == some 2) = some o ∧ o.due s.clock = true ∧
       let r := s.asEngine o fun t => t.doBatch { o with wait := .ready } [] (some 64) 16 []
       r.2.cls = some 2 ∧ r.2.eff = .batch [] (some 64) 16 []) ∧
    (let o := anOutst 0 (some 2) (.batch [{ aCopy with tr := { page with stale := true } }] none 0 [])
     (outstanding [o]).wave.outst.find? (fun x => x.cls == some 2) = some o ∧
       ((outstanding [o]).asEngine o fun t => t.doBatch { o with wait := .ready } [{ aCopy with tr := { page with stale := true } }] none 0 []).2.eff =
         .batch [{ aCopy with tr := { page with stale := true } }] none 0 []) := by decide +kernel

theorem witness_CompletionEvents_rast :
    (let o := anOutst 0 none (.rast 0 0 [0, 1] [] false)
     let s : State := { geoded (aGrid 3 1) [0, 1] with fresh := 1 }
     let t : State := { s with wave := { s.wave with outst := [o] } }
     t.wave.findOutst o.id = some o ∧ o.due t.clock = true ∧ t.firstRast 0 o.id = true ∧ tryP (State.doRast { t.engineOn 0 [] with wave := { (t.engineOn 0 []).wave with dropped := [0, 1] } } 0 0 [(engUid 0, 1)] false 0x80) (fun _ => true) = true) ∧
    (let o := anOutst 0 none (.rast 0 0 [] [] false)
     tryP (State.doRast ((outstanding [o]).engineOn 0 []) 0 0 [(engUid 0, 1)] false 0x80) (fun x => !x) = true) := by decide +kernel

theorem witness_CompletionEvents_rayq :
    let o := anOutst 0 none (.rayq 3 [] 0x1000 false)
    let s := outstanding [o]
    s.wave.findOutst o.id = some o ∧ o.due s.clock = true ∧ (∀ x ∈ s.wave.outst, x.eff.query = some 3 → o.id ≤ x.id) ∧ s.accessesDone o.id = true ∧
      tryP ((s.engineOn o.id o.vc).rayLanes (s.wave.qslot 3) 0x1000 false []) (fun l => l.isEmpty) = true := by decide +kernel

/-- The page that `mapped` maps at address 0, as TRANS finds it. -/
theorem witness_CompletionEvents_trans :
    let o := anOutst 0 (some 0) (.trans 1 0)
    let s : State := { mapped (outstanding [o]) with fresh := 1 }
    s.wave.findOutst o.id = some o ∧ (match (s.walkFill s.wave.core 0).2 with
      | .leaf t => t.valid
      | _ => false) = true := by decide +kernel

/-- A copy of one element that lies outside tensor 1, to offset 64 of the scratchpad. -/
def aBulk : Bulk :=
  { id := 0, slot := 0, launch := 0, gslot := 0, obj := 64, st := false, td := 1, spoff := 128, org := [-1, 0], ext := [1, 1], bytes := 16, items := none,
    dropped := [], wait := .ready, vc := [] }

theorem witness_CompletionEvents_bulk :
    let s : State := { tiles with cores := [(0, { Core.reset with bulks := [aBulk] })] }
    (s.core 0).bulks.find? (fun x => x.id == 0 && x.wait == .ready) = some aBulk ∧ aBulk.slot = s.wave.slot ∧ aBulk.st = false ∧
      tryP ((s.engineOn aBulk.id aBulk.vc).pullElems aBulk (s.myLaunch.tensor 1) aBulk.elems { got := [], errs := [], bad := [] }) (fun x => x.errs.isEmpty && x.bad.isEmpty) = true := by
  decide +kernel

/-- A page that the driver has been told of, with tag 7. -/
def reported : FaultReport := { page := 0, kind := 3, die := 0, core := 0, tag := 7, written := true }

/-- `outstanding` with that report open. -/
def faulted (os : List Outst) : State := { outstanding os with faults := [reported] }

theorem witness_FaultEvents_answers :
    (∃ r ∈ (faulted []).faults, r.tag = 7) ∧ (¬∃ r ∈ (outstanding []).faults, r.tag = 7) ∧
    (let s : State := { faulted [] with wave := { (faulted []).wave with hold := .fault 0x1000 7 2 } }
     s.wave.hold = .fault 0x1000 7 2 ∧ (2 : Nat) ≠ 8 ∧ s.wave.outst = [] ∧ s.wave.ended = false ∧ s.wave.trap = none) ∧
    (let o : Outst := { anOutst 0 (some 1) (.store aCap) with wait := .fault 0x1000 7 }
     let s := faulted [o]
     s.wave.hold = .none ∧ s.wave.outst = [o] ∧ o.wait = .fault 0x1000 7 ∧ o.eff = .store aCap ∧ s.wave.ended = false ∧ s.wave.reports = []) := by decide +kernel

/-- Four bytes of a side log that the driver has answered. -/
def anEntry : LogEntry :=
  { id := 0, slot := 0, launch := 0, va := 0, op := none, nbytes := 4, lanes := [(0, 0x1000, [1, 2, 3, 4])], acq := false, rels := [], tag := 7, answered := true,
    declined := false }

/-- What a lane gives satisfies `p`. -/
def laneOk (x : Res) (p : List Byte → Bool) : Bool :=
  match x with
  | .ok _ bs none => p bs
  | _ => false

theorem witness_FaultEvents_replay :
    let s : State := { mapped (outstanding []) with cores := [(0, { Core.reset with log := [anEntry] })] }
    let c : MemCap := { trn := 0, tr := TransReg.reset, nbytes := 4, lanes := [], done := [], order := 0, scope := 0, rels := [] }
    (s.core s.wave.core).log.find? (fun e => e.answered) = some anEntry ∧ anEntry.lanes = [(0, 0x1000, [1, 2, 3, 4])] ∧ s.wave.slot = anEntry.slot ∧
      s.wave.launch = anEntry.launch ∧
      laneOk (s.laneDo c { lane := 0, off := ((0x1000 : DWord).toNat : Int), data := [1, 2, 3, 4] }
        { acc := .store, rmw := false, pcieOp := false, helper := true } (writtenBytes none [1, 2, 3, 4])) (fun _ => true) = true := by decide +kernel

theorem witness_FaultEvents_delivery :
    (let s := withWave fun w => { w with reports := [{ code := 8, detail := 7, addr := 0 }] }
     s.wave.reports = [{ code := 8, detail := 7, addr := 0 }] ∧ s.wave.ended = false ∧ s.wave.recovery = false ∧ s.wave.trap = none ∧ s.wave.hold = .none) ∧
    (let s : State := { busy with wave := { busy.wave with trap := some aTrap } }
     s.wave.trap = some aTrap ∧ s.wave.drained = false) ∧
    (let s : State := { handled with wave := { handled.wave with trap := some aTrap } }
     s.wave.trap = some aTrap ∧ s.wave.drained = true ∧ s.wave.priv = false ∧ s.wave.recovery = false ∧ (s.core s.wave.core).trapvec.getLsbD 0 = true ∧
       s.wave.pend = [] ∧ (match s.withdrawWaits.frameIo s.withdrawWaits.frameAddr .store (fun _ => s.withdrawWaits.wave.frame aTrap (s.dieClock 0).toNat) with
         | .ok _ _ => true
         | _ => false) = true) ∧
    small.boot.state = 4 ∧ ({ small.boot with state := 3 } : Boot).state = 3 := by decide +kernel

/-- A packet of type `t` that the agent of core 0 has claimed from stream 0, with these bytes from 8 on. -/
def packet (t : Nat) (bs : List Byte) : Packet :=
  { stream := 0, ticket := 0, core := 0, bytes := toBytes t 8 ++ bs ++ List.replicate (56 - bs.length) 0, parked := false, launch := none, vc := [] }

/-- The agent of core 0 with that packet, in a space whose first 256 MiB are mapped. -/
def carrying (p : Packet) : State := { mapped agent with packets := [p] }

/-- Does the agent stand before the packet? -/
def inHandB (s : State) (p : Packet) : Bool :=
  s.packetAt p.stream p.ticket == some p && s.canEnd p && p.breach.isNone && (!p.ord || decide (p.ticket ≤ s.streamNum p.stream 32 8)) &&
    s.wave.core == p.core && s.wave.slot == 15

theorem inHand_of {s : State} {p : Packet} (h : inHandB s p = true) : InHand s p := by
  simp only [inHandB, Bool.and_eq_true, beq_iff_eq, Option.isNone_iff_eq_none, Bool.or_eq_true, Bool.not_eq_true', decide_eq_true_eq] at h
  obtain ⟨⟨⟨⟨⟨a, b⟩, c⟩, d⟩, e⟩, f⟩ := h
  exact ⟨a, b, c, fun hp => d.elim (fun x => by rw [hp] at x; cases x) id, e, f⟩

/-- A NOP with ORD, a WAITV that is satisfied and one that is not, a SIGNAL that stores and one that adds, a SHOOTDOWN. -/
theorem witness_PacketEvents_inHand :
    ∀ p ∈ ([packet 0 [], packet 0x100 [], packet 2 (toBytes 0x1000 8 ++ toBytes 0 8), packet 2 (toBytes 0x1000 8 ++ toBytes 5 8),
      packet 3 (toBytes 0x1000 8 ++ toBytes 5 8 ++ toBytes 0 1), packet 3 (toBytes 0x1000 8 ++ toBytes 5 8 ++ toBytes 1 1),
      packet 4 (toBytes 0x1000 8 ++ toBytes 4096 8 ++ toBytes 0x2000 8), packet 5 []] : List Packet), InHand (carrying p) p := by
  intro p hp
  have h : ([packet 0 [], packet 0x100 [], packet 2 (toBytes 0x1000 8 ++ toBytes 0 8), packet 2 (toBytes 0x1000 8 ++ toBytes 5 8),
      packet 3 (toBytes 0x1000 8 ++ toBytes 5 8 ++ toBytes 0 1), packet 3 (toBytes 0x1000 8 ++ toBytes 5 8 ++ toBytes 1 1),
      packet 4 (toBytes 0x1000 8 ++ toBytes 4096 8 ++ toBytes 0x2000 8), packet 5 []] : List Packet).all (fun p => inHandB (carrying p) p) = true := by
    decide +kernel
  exact inHand_of (List.all_eq_true.mp h p hp)

/-- Refused for the bytes, and parked: ticket 1 of a stream whose RETIRE is 0. -/
theorem witness_PacketEvents_refused :
    (packet 6 []).breach = some 1 ∧ (packet 0 [1]).breach = some 2 ∧ (packet 2 [1]).breach = some 9 ∧ (carrying (packet 6 [])).canEnd (packet 6 []) = true ∧
    (let p : Packet := { packet 0x100 [] with ticket := 1 }
     (carrying p).packetAt 0 1 = some p ∧ (carrying p).canEnd p = true ∧ p.breach = none ∧ p.ord = true ∧ (carrying p).streamNum 0 32 8 < 1) := by decide +kernel

theorem witness_PacketEvents_words :
    (let p := packet 2 (toBytes 0x1000 8 ++ toBytes 0 8)
     tryP ((carrying p).vio 0 (p.num 8 8) 8 (fun _ => none) How.load id) (fun x => decide (p.num 16 8 ≤ ofBytes x.1)) = true) ∧
    (let p := packet 2 (toBytes 0x1000 8 ++ toBytes 5 8)
     tryP ((carrying p).vio 0 (p.num 8 8) 8 (fun _ => none) How.load id) (fun x => decide (ofBytes x.1 < p.num 16 8)) = true) := by decide +kernel

theorem witness_PacketEvents_signals :
    (let p := packet 3 (toBytes 0x1000 8 ++ toBytes 5 8 ++ toBytes 0 1)
     p.num 24 1 = 0 ∧ tryP ((carrying p).vio 0 (p.num 8 8) 8 (fun _ => none) How.store (fun _ => toBytes (p.num 16 8) 8)) (fun _ => true) = true) ∧
    (let p := packet 3 (toBytes 0x1000 8 ++ toBytes 5 8 ++ toBytes 1 1)
     p.num 24 1 = 1 ∧ tryP ((carrying p).vio 0 (p.num 8 8) 8 (fun x => if x.perm.getLsbD 0 then none else some 1)
        { acc := .store, rmw := true, pcieOp := true, helper := true } (atomicBytes 0 (toBytes (p.num 16 8) 8))) (fun _ => true) = true) := by decide +kernel

theorem witness_PacketEvents_harvest :
    let p := packet 4 (toBytes 0x1000 8 ++ toBytes 4096 8 ++ toBytes 0x2000 8)
    let s := carrying p
    p.num 16 8 = 4096 ∧ s.storable (p.num 24 8) = true ∧ p.num 8 8 < 2 ^ 52 ∧
      (match s.walk (p.num 8 8) with
        | .leaf x => x.kind != 3 && inFrame x.pbase.toNat &&
            tryP (({ s with frames := cset s.frames (x.pbase.toNat / 4096) (s.frameRec x.pbase.toNat &&& ~~~BitVec.ofNat 64 (2 ^ 49)) } : State).vwrite
              0 (p.num 24 8) [0] 1) (fun _ => true)
        | _ => false) = true := by decide +kernel

/-- A stream record at 0x20000, in a frame of die 0: a ring of 16 at 0x21000, TAIL 1; nothing retired. -/
theorem witness_PacketEvents_claim :
    let s : State := { agent with
      mgmt := { agent.mgmt with strtab := 0x20000 },
      mem := csetList [] (agent.physKey 0x20000) (toBytes 0x21000 8 ++ [4] ++ toBytes 0 7 ++ toBytes 1 8) }
    s.claimable 0 0 = true ∧ s.nextStream 0 = some 0 ∧ s.nextStream 1 ≠ some 1 ∧ s.devHeld (s.streamAt 0 + 24) = false ∧ s.streamNum 0 24 8 = 0 := by decide +kernel

theorem witness_PacketEvents_shot :
    (let len := 0
     len = 0 ∨ (page.vpage < 0 + len ∧ 0 < page.vpage + page.bytes)) ∧ (page.vpage < 0 + 1 ∧ 0 < page.vpage + page.bytes) ∧
    (∀ base ∈ ([page.vpage + page.bytes] : List Nat), ¬((4096 : Nat) = 0 ∨ (page.vpage < base + 4096 ∧ base < page.vpage + page.bytes))) ∧
    (packet 0 []).evt = false := by decide +kernel

/-- A LAUNCH whose header stands at 0x1000, with its entry at 0x100 and no argument. -/
def launching : Packet := packet 1 (toBytes 0x1000 8 ++ toBytes 0x100 8 ++ toBytes 0x2000 8 ++ toBytes 0 8 ++ toBytes 0 8)

/-- The agent with that packet, once an address has been translated; the header's version, fields and core mask. -/
def headed (word0 cores : Nat) : State :=
  let s := putBytes { warm agent with packets := [launching] } 0x1000 (toBytes word0 64)
  putBytes s 0x1060 (toBytes cores 32)

/-- Capture gives records that `p` holds of. -/
def capturedOk (s : State) (p : Captured → Bool) : Bool := tryP (s.capture launching) p

theorem headed_inHand : inHandB (headed 1 1) launching = true := by decide +kernel

/-- A header of version 1 for core 0, and one of version 0. -/
theorem witness_LaunchEvents_validation :
    capturedOk (headed 1 1) (fun c => (c.breach 0xFF).isNone && c.head.wsrc != 2) = true ∧ capturedOk (headed 0 1) (fun c => c.breach 0xFF == some 3) = true ∧
    InHand (headed 1 1) launching ∧ launching.type = 1 ∧ launching.launch = none :=
  ⟨by decide +kernel, by decide +kernel, inHand_of headed_inHand, by decide +kernel, by decide +kernel⟩

/-- `small` with a launch that has been captured. -/
def captured (l : Launch) (used : List Nat) : State := { small with launches := [(0, l)], tagsUsed := used, groups := [] }

theorem witness_LaunchEvents_tags :
    (let s := captured { theLaunch with btags := 0xFF } (List.range 56)
     (s.launch 0).wsrc ≠ 1 ∧ ((List.range 8).filter fun t => (s.launch 0).btags.getLsbD t).length ≤ ((List.range 64).filter fun t => !s.tagsUsed.contains t).length) ∧
    (let s := captured { theLaunch with btags := 0xFF } (List.range 57)
     ((List.range 64).filter fun t => !s.tagsUsed.contains t).length < ((List.range 8).filter fun t => (s.launch 0).btags.getLsbD t).length) := by decide +kernel

theorem witness_LaunchEvents_placement :
    (let s := captured { theLaunch with sequenced := true } []
     (s.launch 0).sequenced = true ∧ 0 ∈ (s.launch 0).cmask ∧ 0 ∉ (s.launch 0).requested ∧ 0 ∉ (s.core 0).requests) ∧
    (let s : State := { captured { theLaunch with sequenced := true, acc := 4 } [] with cores := [(0, { Core.reset with requests := [0] })] }
     s.nextRequest 0 = some 0 ∧ (s.launch 0).gang = false ∧ s.turnOf 0 0 = true ∧ ((s.room 0).fit (s.launch 0).need).isSome = true) := by decide +kernel

theorem witness_LaunchEvents_start :
    let s := captured { theLaunch with sequenced := true, started := false, granted := [0] } []
    (s.launch 0).sequenced = true ∧ (s.launch 0).started = false ∧ (s.launch 0).granted.length = (s.launch 0).cmask.length := by decide +kernel

/-- The agent of core 0, an ended wave in slot 0, a group without waves in slot 1, and the launch's packet. -/
def ending : State :=
  { agent with
    waves := [{ wave with ended := true }], groups := [(0, group), (1, { group with waves := 0 })],
    launches := [(0, { theLaunch with sequenced := true, freed := 1 })], packets := [{ packet 1 [] with launch := some 0 }] }

theorem witness_LaunchEvents_ends :
    (ending.wave.core = 0 ∧ ending.wave.slot = 15 ∧ ending.waves.find? (fun v => v.at_ 0 0) = some { wave with ended := true } ∧ wave.priv = false ∧
      wave.pend = [] ∧ wave.outst = [] ∧ (∀ x ∈ wave.k, x.2 = 0) ∧ (∀ b ∈ (ending.core 0).bulks, b.slot ≠ 0)) ∧
    (tfind ending.groups (16 * 0 + 1) = some { group with waves := 0 } ∧ (∀ b ∈ (ending.core 0).bulks, b.gslot ≠ 1) ∧ (∀ b ∈ (ending.core 0).smap, b.grp ≠ 1)) ∧
    (ending.packets.find? (fun p => p.launch == some 0) = some { packet 1 [] with launch := some 0 } ∧ (ending.launch 0).started = true ∧
      (ending.launch 0).freed = (ending.launch 0).cmask.length ∧ (∀ c ∈ ending.cores, ∀ e ∈ c.2.log, e.launch ≠ 0) ∧ (let s : State := { ending with waves := [] }
        ∀ v ∈ s.allWaves, v.priv = false → v.launch ≠ 0) ∧
      ending.canEnd { packet 1 [] with launch := some 0 } = true ∧ (ending.launch 0).done = 0 ∧ (ending.launch 0).core = ending.wave.core) ∧
    (ending.launch 0).disp = none := by decide +kernel

/-- A core without groups has room for a group of 15 waves, and for no more of the wide ones. -/
theorem witness_LaunchEvents_fit :
    (Room.empty.fit { waves := List.range 15, granules := 1, spad := 4096, acc := 8192, tiles := 16 }).isSome = true := by decide +kernel

/-! ### Preemption -/

/-- A gang for cluster 0 that needs all scratchpad and waits since clock 0, while the group of `small` is on core 0. -/
def aGang (draining : Option Nat) : Launch :=
  { theLaunch with
    gang := true, started := false, sequenced := true, spad := 512, acc := 0, cmask := [0, 1, 2, 3], requested := [0, 1, 2, 3], drain := some 0,
    draining := draining }

/-- `small` beside that gang. -/
def crowded (clock : Nat) (draining : Option Nat) : State :=
  { small with
    clock := clock, launches := [(0, theLaunch), (1, aGang draining)],
    cores := (List.range 4).map fun c => (c, { Core.reset with requests := [1] }) }

theorem witness_PreemptEvents_marks :
    ((crowded 0 none).launch 1).drain = some 0 ∧ ((crowded 0 none).launch 1).draining = none ∧ (crowded 5199999 none).clock < 0 + 5200000 ∧
    (let s := crowded 5200000 none
     0 + 5200000 ≤ s.clock ∧ (s.launch 1).openClusters.filter (fun k => s.leads 1 k) = [0]) := by decide +kernel

theorem witness_PreemptEvents_stops :
    (let s := crowded 26000000 (some 0)
     (s.launch 1).drain = some 0 ∧ (s.launch 1).draining = some 0 ∧ 0 + 26000000 ≤ s.clock ∧ s.gangFits (s.launch 1) 0 = false ∧
       s.clusterGroups 0 = [(0, 0, group)] ∧ s.stopping 0 0 = false ∧ (s.launch group.launch).gang = false ∧ s.preemptibleAll [(0, 0)] = true) ∧
    (crowded 25999999 (some 0)).clock < 0 + 26000000 ∧
    (let s : State := { crowded 26000000 (some 0) with launches := [(0, theLaunch), (1, { aGang (some 0) with spad := 0 })] }
     s.gangFits (s.launch 1) 0 = true) ∧
    (let s : State := { crowded 26000000 (some 0) with wave := { wave with recovery := true } }
     s.clusterGroups 0 = [(0, 0, group)] ∧ s.preemptibleAll [(0, 0)] = false) ∧
    (let s : State := { crowded 26260000 (some 0) with launches := [(0, theLaunch), (1, { aGang (some 0) with tried := some 26000000 })] }
     (s.launch 1).tried = some 26000000 ∧ 26000000 + 260000 ≤ s.clock ∧ s.gangFits (s.launch 1) 0 = false ∧ s.preemptibleAll [(0, 0)] = true) ∧
    small.wave.batch = [] ∧ small.wave.granted = false := by decide +kernel

/-- The group of `small` stopped, its wave changed, with a suspension area of 64 MiB at 2^51. -/
def stopped (f : Wave → Wave) : State :=
  { withWave (fun w => f { w with suspended := true }) with
    groups := [(0, { group with stopping := true })]
    mgmt := { Mgmt.reset with suspbase := BitVec.ofNat 64 (2 ^ 51), susplen := 0x4000000 } }

theorem witness_PreemptEvents_saves :
    (let s := stopped fun w => { w with recovery := true }
     s.stopping 0 0 = true ∧ (s.launch (s.group 0 0).launch).gang = false ∧ s.preemptibleAll [(0, 0)] = false) ∧
    (let s := stopped id
     s.stopping 0 0 = true ∧ s.preemptibleAll [(0, 0)] = true ∧ (∀ w ∈ s.groupWaves 0 0, w.outst = [] ∧ w.batch = []) ∧ (∀ b ∈ (s.core 0).bulks, b.gslot ≠ 0) ∧
       (∀ b ∈ (s.core 0).smap, b.grp ≠ 0) ∧ s.areaFor (s.saveSize 0 0) = some (2 ^ 51) ∧ (∀ y ∈ s.suspended, y.core = 0 → y.addr ≠ 2 ^ 51)) ∧
    wave.pend = [] ∧ wave.rep = none ∧ wave.pblk = none := by decide +kernel

/-- That group as the suspension area holds it. -/
def saved : Suspended :=
  { core := 0, addr := 2 ^ 51, len := 4096, group := group, waves := [wave.saved], unstarted := false, objs := [], binds := [] }

theorem witness_PreemptEvents_resumes :
    let s : State := { agent with groups := [], suspended := [saved], launches := [(0, { theLaunch with acc := 8, started := true, granted := [0] })] }
    s.resumeTurn 0 = some saved ∧ ((s.room 0).fit { (s.launch saved.group.launch).need with waves := saved.waves.map Wave.windex }).isSome = true ∧ saved.binds = [] := by
  decide +kernel

/-! ### The queue unit -/

/-- A queue whose wave waits in front of it. -/
def queued (ctl err head tail mask : Nat) (h : Hold) : State :=
  let s := queue ctl err head tail mask
  { s with wave := { s.wave with hold := h } }

/-- A DEQ for s32, and an ENQ of eight words, that wait. -/
def waitDeq : Hold := .deq 0x1000 0 32
def waitEnq : Hold := .enq 0x1000 0 [0x00050002, 1, 2, 3, 4, 5, 6, 7]

theorem witness_QueueUnitEvents_deq :
    (queued 6 0 0 1 0 waitDeq).wave.hold = .deq 0x1000 0 32 ∧ outcome ((queued 6 0 0 1 0 waitDeq).deqStep (0x1000 : DWord).toNat) = 12 ∧
    outcome ((queued 0x406 0 0 0 0 waitDeq).deqStep (0x1000 : DWord).toNat) = 3 ∧ outcome ((queued 6 0 0 0 0 waitDeq).deqStep (0x1000 : DWord).toNat) = 2 ∧
    outcome ((queued 6 0x12 0 0 0 waitDeq).deqStep (0x1000 : DWord).toNat) = 120 := by decide +kernel

theorem witness_QueueUnitEvents_enq :
    outcome ((queued 6 0 0 8 1 waitEnq).enqStep (0x1000 : DWord).toNat [0x00050002, 1, 2, 3, 4, 5, 6, 7]) = 2 ∧
    outcome ((queued 6 0x12 0 0 0 waitEnq).enqStep (0x1000 : DWord).toNat [0x00050002, 1, 2, 3, 4, 5, 6, 7]) = 120 := by decide +kernel

theorem witness_QueueUnitEvents_unit :
    ((queued 6 0 0 0 0 waitDeq).physOf ((0x1000 : DWord).toNat + 72 + 64 * (3 % 4))).isSome = true ∧
    headOk (queued 0x406 0 0 0 0 waitDeq) (fun h => h.close) = true ∧ headOk (queued 6 0 0 0 0 waitDeq) (fun h => !h.close && h.qerr == 0 && h.valid) = true ∧
    headOk (queued 6 0x12 0 0 0 waitDeq) (fun h => h.qerr != 0) = true ∧ headOk (queued 5 0 0 0 0 waitDeq) (fun h => !h.valid) = true ∧
    (queued 6 0 0 0 0 waitDeq).enqWaiters 0x1000 0 = [] ∧ (queued 6 0 0 0 0 waitDeq).deqWaiters 0x1000 0 = [(0, 0)] ∧
    (queued 6 0 0 0 0 waitEnq).enqWaiters 0x1000 0 = [(0, 0)] ∧ (queued 6 0 0 0 0 waitEnq).deqWaiters 0x1000 0 = [] := by decide +kernel

/-- An ENQ that fails is served and waits no longer. -/
theorem witness_QueueUnitEvents_served :
    let s := queued 6 0x12 0 0 0 waitEnq
    s.enqWaiters 0x1000 0 = [(0, 0)] ∧ (s.serve 0 0).stillWaits 0x1000 0 0 = false ∧ ((s.serve 0 0).unpark 0x1000).deqWaiters 0x1000 0 = [] := by decide +kernel

/-- Shard 1 holds `n` entries, the second of kind 2; die 0 is idle. -/
def stealing (n : Nat) : State :=
  putBytes (putBytes (queued 6 0 0 0 0 waitDeq) 0x1080 (toBytes 0 8 ++ toBytes n 8)) 0x2320 (toBytes 0x0002 32)

/-- The step on the victim's shard, as `outcome` numbers it. -/
def stolen (s : State) (v : Nat) : Nat :=
  match s.qhead s.wave.core 0x1000 with
  | .ok u h => outcome (u.stealFrom 0x1000 h v)
  | _ => 0

theorem witness_QueueUnitEvents_steals :
    (stealing 2).deqWaiters 0x1000 0 = [((stealing 2).wave.core, (stealing 2).wave.slot)] ∧
    headOk (stealing 2) (fun h => h.qerr == 0 && h.valid && h.empty 0 && victimOf ((List.range 4).map h.count) 0 0 == some 1) = true ∧
    0 ∉ ((stealing 2).qunit 0x1000).parked ∧ ((stealing 2).qunit 0x1000).locked.contains 0 = false ∧ ((stealing 2).qunit 0x1000).mirror = [] ∧
    headOk (stealing 1) (fun h => h.empty 0 && victimOf ((List.range 4).map h.count) 0 0 == none) = true ∧ small.deqWaiters 0x1000 0 = [] := by decide +kernel

theorem witness_QueueUnitEvents_stolen : stolen (stealing 2) 1 = 12 := by decide +kernel

theorem witness_QueueUnitEvents_locked :
    let s : State := { stealing 2 with queues := [(0x1000, { rotor := 0, locked := [0], parked := [], mirror := [] })] }
    (s.qunit 0x1000).locked.contains 0 = true ∧ 0 ∉ (s.qunit 0x1000).parked := by decide +kernel

theorem witness_QueueUnitEvents_victims : victimOf [0, 2, 3, 3] 0 0 = some 2 ∧ victimOf [0, 2, 3, 3] 0 3 = some 3 ∧ victimOf [9, 1, 1, 1] 0 0 = none := by decide +kernel

theorem witness_QueueUnitEvents_overflow :
    small.boot.state = 4 ∧ small.owed = [] ∧
    (let s : State := { small with owed := [7], mgmt := { small.mgmt with evsize := 6, evprod := 63 } }
     s.owed = [7] ∧ ringRoom s.mgmt.evsize s.mgmt.evprod 0 = true ∧ ringRoom s.mgmt.evsize 64 0 = false ∧ s.lostSettled 7 = true ∧ (s.lostCount 7).isSome = true) := by decide +kernel

/-! ### Lines between dies, and the host -/

/-- Line 0, whose home is die 0, in this entry; die 1 holds it in that state; messages on their way; its frame's record is set. -/
def lined (e : DirEntry) (c : LineState) (ms : List MsgKind) : State :=
  { small with
    dir := [(0, e)], copies := if c = .i then [] else [(2 ^ 40 + 0, { state := c, data := List.replicate 128 7 })],
    msgs := ms.map fun k => { die := 1, line := 0, kind := k }, frames := cset [] 0 (BitVec.ofNat 64 (2 ^ 50 + 0xFF01 * 2 ^ 16)) }

/-- An entry in this state with no transaction, and one with a transaction that awaits `n` answers. -/
def entry (st : DirState) : DirEntry := { dirReset with state := st }
def opened (st : DirState) (b : Nat × DirState) (n : Nat) : DirEntry := { dirReset with state := st, busy := some b, acks := n }

/-- The state in which no frame's record names the line. -/
def unset (s : State) : State := { s with frames := [] }

/-- May die 1 ask the home for line 0? -/
def farB (s : State) : Bool :=
  decide (1 ≠ (s.lineOwner 0).2) && !s.homeOnly 0 && (match s.makeRoom 0 (s.lineOwner 0).1 (s.lineOwner 0).2 with
    | .ok u => decide (u = s)
    | .error _ => false) && decide ((s.dir.map Prod.fst).Pairwise (· < ·))

theorem witness_LinesAndTheHost_reads :
    (∀ s ∈ ([lined (opened .u (1, .em 1) 1) .i [], lined (entry .u) .i [], unset (lined (entry .u) .i []), lined (entry (.s 4)) .i [], lined (entry (.em 2)) .i [],
      lined (entry (.o 2 8)) .i [], lined (entry (.s 12)) .i []] : List State), farB s = true ∧ s.copyAt 1 0 = .i) ∧
    ((lined (opened .u (1, .em 1) 1) .i []).dirAt 0).busy.isSome = true ∧ ((lined (entry .u) .i []).dirAt 0).busy = none ∧
    ((unset (lined (entry .u) .i [])).dirAt 0).state = .u ∧ (unset (lined (entry .u) .i [])).restricted 0 = true ∧ (lined (entry .u) .i []).restricted 0 = false ∧
    ((lined (entry (.s 4)) .i []).dirAt 0).state = .s 4 ∧ ((lined (entry (.em 2)) .i []).dirAt 0).state = .em 2 ∧
    ((lined (entry (.o 2 8)) .i []).dirAt 0).state = .o 2 8 := by decide +kernel

theorem witness_LinesAndTheHost_writes :
    (2 : Nat) ≠ 1 ∧ (lined (entry (.s 12)) .i []).restricted 0 = false ∧ maskDies 12 1 = 2 :: [3] ∧
    (∀ x ∈ ([.m, .e, .s, .o] : List LineState), (lined (entry (.em 1)) x []).copyAt 1 0 = x ∧ x ≠ .i) := by decide +kernel

/-- The only message is the one that arrives. -/
theorem witness_LinesAndTheHost_messages :
    (let m : MsgKind := .data .e (List.replicate 128 3)
     (lined (entry .u) .s [m]).msgs = { die := 1, line := 0, kind := m } :: [] ∧ LineState.e ≠ .i ∧ ((lined (entry .u) .s [m]).dirAt 0).busy = none ∧
       ((lined (opened .u (1, .em 1) 1) .s [m]).dirAt 0).busy = some (1, .em 1)) ∧
    (lined (entry .u) .s [.inv]).msgs = { die := 1, line := 0, kind := .inv } :: [] ∧
    (lined (entry .u) .m [.recall]).msgs = { die := 1, line := 0, kind := .recall } :: [] ∧ (lined (entry .u) .m [.recall]).leasedAt 1 0 = false ∧
    (lined (entry .u) .m [.recall]).copyAt 1 0 ≠ .i ∧ ({ lined (entry .u) .m [.recall] with leases := [(2 ^ 40, 1)] } : State).leasedAt 1 0 = true ∧
    (lined (opened .u (2, .em 2) 2) .s [.ack]).msgs = { die := 1, line := 0, kind := .ack } :: [] ∧
    1 < ((lined (opened .u (2, .em 2) 2) .s [.ack]).dirAt 0).acks ∧ ((lined (opened .u (2, .em 2) 2) .s [.ack]).dirAt 0).busy.isSome = true ∧
    (∀ b ∈ ([(2, .em 2), (4, .u)] : List (Nat × DirState)), ((lined (opened (.s 2) b 1) .s [.ack]).dirAt 0).acks = 1 ∧
      ((lined (opened (.s 2) b 1) .s [.ack]).dirAt 0).busy = some b ∧ ((lined (opened (.s 2) b 1) .s [.ack]).dirAt 0).queue = []) ∧
    (let s := lined (opened (.em 1) (2, .em 2) 1) .m [.forward 2 true]
     s.msgs = { die := 1, line := 0, kind := .forward 2 true } :: [] ∧ (s.dirAt 0).acks = 1 ∧ (s.dirAt 0).busy = some (2, .em 2) ∧ (s.dirAt 0).queue = [] ∧
       s.leasedAt 1 0 = false ∧ s.copyAt 1 0 ≠ .i) ∧
    (∀ c ∈ ([.m, .o, .e] : List LineState), let s := lined (opened (.em 1) (2, .o 1 4) 1) c [.forward 2 false]
     s.msgs = { die := 1, line := 0, kind := .forward 2 false } :: [] ∧ s.copyAt 1 0 = c ∧ (s.dirAt 0).acks = 1 ∧ (s.dirAt 0).queue = [] ∧
       (s.dirAt 0).busy = some (2, .o 1 4)) ∧
    (let s := lined (opened (.em 1) (2, .o 1 4) 1) .i [.forward 2 false, .wbdata [5]]
     s.copyAt 1 0 = .i ∧ s.writeBackOf 1 0 = some [5]) ∧
    (let s := lined (opened (.em 1) (2, .u) 1) .i [.wbdata [5]]
     s.msgs = { die := 1, line := 0, kind := .wbdata [5] } :: [] ∧ (s.dirAt 0).acks = 1 ∧ (s.dirAt 0).queue = [] ∧ (s.dirAt 0).busy = some (2, .u)) ∧
    (let s := lined (entry (.em 1)) .i [.wbdata [5]]
     (s.dirAt 0).busy = none ∧ (s.dirAt 0).acks = 0 ∧ (s.dirAt 0).state = .em 1) := by decide +kernel

/-- What a die gives up, and what the home takes back; an update of a replicated page. -/
theorem witness_LinesAndTheHost_evictions :
    (let s := lined (entry (.s 6)) .s []
     s.lineBusy 0 = false ∧ (s.dirAt 0).acks = 0 ∧ s.copyAt 1 0 = .s ∧ (s.dirAt 0).state = .s 6 ∧ maskDel 6 1 ≠ 0 ∧ maskDel 2 1 = 0) ∧
    (let s := lined (entry (.em 1)) .e []
     s.lineBusy 0 = false ∧ s.copyAt 1 0 = .e ∧ (s.dirAt 0).state = .em 1) ∧
    (let s := lined (entry (.em 1)) .m []
     s.msgs = [] ∧ (s.dirAt 0).busy = none ∧ s.leasedAt 1 0 = false ∧ s.leased 0 = false ∧ s.copyAt 1 0 = .m ∧ (s.dirAt 0).state = .em 1 ∧ s.lineBusy 0 = false ∧
       (s.dirAt 0).host = false ∧ s.devWrites = [] ∧ (s.dir.map Prod.fst).Pairwise (· < ·)) ∧
    (lined (opened .u (2, .em 2) 1) .i []).lineBusy 0 = true ∧ (lined { dirReset with host := true } .i []).lineBusy 0 = false ∧
    ((lined (entry .u) .i []).dirAt 0).state = .u ∧ ({ lined (entry .u) .i [] with leases := [(0, 1)] } : State).leased 0 = true ∧
    (let r : Replica := { hd := 0, owner := none, line := 0, bytes := [(0, 1)], toSend := [1], acks := [1] }
     ({ lined (entry .u) .i [] with replicas := [r] } : State).replicas = r :: [] ∧ r.line = 0 ∧ 1 ∈ r.toSend) ∧
    (let r : Replica := { hd := 0, owner := none, line := 0, bytes := [(0, 1)], toSend := [], acks := [1] }
     ({ lined (entry .u) .i [] with replicas := [r] } : State).replicas = r :: [] ∧ r.line = 0 ∧ 1 ∈ r.acks ∧ 1 ∉ r.toSend) := by decide +kernel

theorem witness_LinesAndTheHost_moves :
    let s := moving 0x100000 0 0 [(5, aMove 31)]
    tfind s.moves 5 = some (aMove 31) ∧ (aMove 31).pp < pageBytes (aMove 31).psize / 128 ∧ s.recallWaits ((aMove 31).srcKey 31 / 128) = false ∧
      s.recallWaits ((aMove 31).dstKey 31 / 128) = false ∧ tfind s.dir ((aMove 31).srcKey 31 / 128) = none ∧ tfind s.dir ((aMove 31).dstKey 31 / 128) = none ∧
      s.boundFor ((aMove 31).src + 128 * 31) = none := by decide +kernel

/-- The host's side: a request that is answered, halves asked back, an access by the host, the scrubber's places. -/
theorem witness_LinesAndTheHost_host :
    (let s : State := { small with bridge := [(1, { state := .i, req := some true })] }
     s.halfAt 1 = { state := .i, req := some true } ∧ (s.bridge.filter fun y => y.2.state != .i).length < 131072) ∧ (small.halfAt 1).req = none ∧
    (let s : State := { lined { dirReset with host := true } .i [] with bisnp := [(0, [0, 1])] }
     0 ∈ tget [] s.bisnp 0 ∧ (tget [] s.bisnp 0).filter (· != 0) ≠ [] ∧ 2 ∉ tget [] s.bisnp 0) ∧
    (let s : State := { lined { dirReset with host := true } .i [] with bisnp := [(0, [1])] }
     1 ∈ tget [] s.bisnp 0 ∧ (tget [] s.bisnp 0).filter (· != 1) = []) ∧
    State.reset.boot.state ≠ 3 ∧ State.reset.boot.state ≠ 4 ∧ small.boot.state = 4 ∧ inHost 0x1000000000 = false ∧ inFrame 0x1000000000 = true ∧
    0x1000000000 % 2 ^ 36 < Config.frameLimit ∧ small.devStands 0x1000000000 = false ∧ (lined (opened .u (2, .em 2) 1) .i []).devStands 0 = true ∧
    inHost (2 ^ 51) = true ∧ inHost (2 ^ 51 + 8) = true ∧ (∀ h ∈ halvesOf (2 ^ 51) 8, (small.halfAt h).state = .i) ∧
    (6 : Nat) ≤ 7 ∧ (7 : Nat) ≠ 6 ∧ (∀ e < 4, small.copyAt e (0x1000 / 8) ≠ .m ∧ small.copyAt e (0x1000 / 8) ≠ .o) := by decide +kernel

/-! ### The module towards the host, and display -/

/-- `agent` in a state of start-up. -/
def booted (n : Nat) : State := { agent with boot := { Boot.reset with state := n } }

/-- `booted` with the words of a move request. -/
def requestedMove (e0 e6 e7 : Word) (ms : Table Move) : State :=
  let s := moving e0 e6 e7 ms
  { s with boot := { Boot.reset with state := 4 }, mgmt := { s.mgmt with mvreq := cgetList s.wave.s 40 8, mvdone := true } }

/-- The request as the agent of core 0 takes it. -/
def taken (s : State) : State :=
  { s with wave := { s.wave with s := csetList s.wave.s 40 s.mgmt.mvreq }, mgmt := { s.mgmt with mvdone := false } }

theorem witness_ManagementEvents_states :
    (∀ n ∈ ([1, 3, 4, 5] : List Nat), (booted n).boot.state = n) ∧ inFrame ((booted 3).mgmt.fpaddr).toNat = true ∧
    (booted 3).boot.staged.len + 256 ≤ 2 ^ 22 ∧ (booted 3).boot.part = none ∧ (booted 3).boot.arg.toNat < 2 ∧
    16 ≤ ({ Boot.reset with arg := 16 } : Boot).arg.toNat ∧ (300 : Word).toNat ≤ 1800 ∧ 1800 < (1801 : Word).toNat ∧ (299 : Word).toNat < 300 ∧
    (booted 3).mgmt.plimit.toNat < (booted 3).mgmt.plimit.toNat + 1 ∧ 100 * 0 < 95 * (booted 3).mgmt.plimit.toNat ∧ (booted 3).pool ≤ (booted 3).poolSet := by
  decide +kernel

theorem witness_ManagementEvents_moves :
    (let s := requestedMove 0x100000 0 0 []
     s.boot.state = 4 ∧ s.mgmt.mvdone = true ∧ s.wave.core = 0 ∧ s.wave.slot = 15 ∧ cellsWf s.wave.s = true ∧
       s.mgmt.mvreq = [0x100000, 0, 0x200000, 0x10, tpw 0, tpw 1, 0, 0] ∧
       cellsWf ((taken s).moveStart 0x100000 (2 ^ 36 + 0x200000) (tpw 0) (tpw 1) 0).1.wave.s = true) ∧
    (requestedMove 0x100000 0 1 []).mgmt.mvreq = [0x100000, 0, 0x200000, 0x10, tpw 0, tpw 1, 0, 1] ∧
    (requestedMove 0x100000 6 0 []).mgmt.mvreq = [0x100000, 0, 0x200000, 0x10, tpw 0, tpw 1, 6, 0] := by decide +kernel

/-- A move that is complete ends, and one that is not does not. -/
theorem witness_ManagementEvents_ends :
    (let t := taken (requestedMove 0 0 0 [(0, aMove 32)])
     (t.moveQuery 0).2.2 = true ∧
       (let v : State := { t with wave := { t.wave with s := cset t.wave.s 33 (t.moveQuery 0).2.1, scc := true } }
        (v.moveEnd 0).2.2 = true ∧ cellsWf (v.moveEnd 0).1.wave.s = true)) ∧
    ((taken (requestedMove 0 0 0 [(0, aMove 31)])).moveQuery 0).2.2 = false := by decide +kernel

/-- Heads that show records at 0x1000 with poses at 0x2000, the record's SEQ and the pose's. -/
def headed0 (x : Head) (seq pseq : Nat) : State :=
  let s := mapped small
  let s := putBytes s 0x1000 (toBytes 0 16 ++ toBytes 1 2 ++ toBytes 1 2 ++ toBytes 0 12 ++ toBytes seq 8 ++ toBytes 0 24)
  let s := putBytes s 0x2000 (toBytes 0 40 ++ toBytes pseq 8)
  { s with heads := [(3, x)] }

/-- An enabled head. -/
def aHead : Head :=
  { hcfg := 1, timing := 0, timingNext := none, present := 0x1000, pose := 0x2000, scanseq := 0, relseqNext := none, pseq := 0, shows := 0, record := [],
    matrix := [] }

theorem witness_DisplayEvents_writes :
    (small.boot.state = 3 ∨ small.boot.state = 4) ∧ 3 < 4 ∧ ((headed0 aHead 1 0).head 3).hcfg.getLsbD 0 = true ∧
    ((headed0 { aHead with hcfg := 0 } 1 0).head 3).hcfg.getLsbD 0 = false ∧ ((headed0 aHead 1 0).head 3).timingNext = none ∧
    ((headed0 aHead 1 0).head 3).relseqNext = none ∧ ((headed0 { aHead with relseqNext := some 5 } 1 0).head 3).relseqNext = some 5 ∧
    ((headed0 { aHead with timingNext := some 9 } 1 0).head 3).timingNext = some 9 := by decide +kernel

/-- The record that stands at 0x1000, newer than SEQ 0 and not newer than SEQ 1. -/
theorem witness_DisplayEvents_records :
    (match (headed0 aHead 1 7).headRead 0x1000 64 with
      | some r => r.length == 64 && (BitVec.ofNat 64 (recNum r 32 8)).toNat == 1 && presentOk r
      | none => false) = true := by decide +kernel

/-- The pose that stands at 0x2000, of PSEQ 7. -/
theorem witness_DisplayEvents_poses :
    (match (headed0 aHead 1 7).headRead 0x2000 48 with
      | some p => p != [] && BitVec.ofNat 64 (recNum p 40 8) == 7
      | none => false) = true ∧ aHead.pseq ≠ 7 ∧ ({ aHead with pseq := 7, scanseq := 1 } : Head).pseq = 7 := by decide +kernel

/-- A raw block, a malformed one, CLEAR, and a packed block of width 0. -/
theorem witness_DisplayEvents_blocks : blockBad 1 (List.replicate 32 0) = false ∧ (0 : Nat) < 1 ∧ 1 < 8 ∧ 9 ≤ (9 : Nat) ∧ 63 < 64 := by decide +kernel
end Sys2Proof.Tests
end

section
/-! PROOF. What an agent does with the packets of its streams (R14, R25 to R29, R226, R235, R435, R437): one lemma per outcome of
an examination, one for what a packet of each type does when it is carried out, one for the claim; together they settle O19. -/

namespace Sys2Proof.Machine

open Sys2Proof.Claims

variable {s t : State} {p : Packet} {i : Instr}

/-! ### The outcomes of an examination (R27, R435, R437) -/

/-- A packet whose own bytes are in breach is refused with the code of the breach (R435). -/
theorem State.examine_of_breach {c : Nat} (carry : State → State) (hend : s.canEnd p = true) (h : p.breach = some c) :
    s.examine p carry = s.endPacket p c [] := by
  simp [State.examine, hend, h]

/-- A WAITV is refused at its claim when its word cannot be read (R437). -/
theorem State.examine_of_waitvRefused (carry : State → State) (hend : s.canEnd p = true) (hb : p.breach = none)
    (hp : p.parked = false) (hw : s.waitvRefused p = true) : s.examine p carry = s.endPacket p 0x0A [] := by
  simp [State.examine, hend, hb, hp, hw]

/-- The word of a WAITV is not examined again once the packet is parked. -/
theorem State.word_not_refused (h : p.parked = true ∨ s.waitvRefused p = false) : (!p.parked && s.waitvRefused p) = false := by
  rcases h with h | h <;> simp [h]

/-- A packet with ORD is parked while an earlier packet of its stream has not retired (R27). -/
theorem State.examine_of_early (carry : State → State) (hend : s.canEnd p = true) (hb : p.breach = none)
    (hw : p.parked = true ∨ s.waitvRefused p = false) (ho : p.ord = true) (hr : s.streamNum p.stream 32 8 < p.ticket) :
    s.examine p carry = s.park p := by
  simp [State.examine, hend, hb, State.word_not_refused hw, ho, hr]

/-- A packet in hand, whose word is not refused, is carried out by its agent. -/
theorem State.examine_of_inHand (carry : State → State) (h : InHand s p) (hw : s.waitvRefused p = false) :
    s.examine p carry = carry s := by
  obtain ⟨-, hend, hb, hord, hcore, hslot⟩ := h
  have hlate : (p.ord && decide (s.streamNum p.stream 32 8 < p.ticket)) = false := by
    cases ho : p.ord
    · rfl
    · simpa using hord ho
  have hfocus : s.focus p.core 15 = s := by rw [← hcore, ← hslot, State.focus_self]
  simp [State.examine, hend, hb, State.word_not_refused (Or.inr hw), hlate, hfocus]

/-- Only a WAITV has a word that can be refused. -/
theorem State.waitvRefused_of_type_ne (h : p.type ≠ 2) : s.waitvRefused p = false := by
  simp [State.waitvRefused, h]

/-- The word of a WAITV that can be read is not refused. -/
theorem State.waitvRefused_of_vio_ok {a : List Byte × Nat}
    (h : s.vio p.core (p.num 8 8) 8 (fun _ => none) How.load id = .ok t a) : s.waitvRefused p = false := by
  simp [State.waitvRefused, h]

/-- Parking sets `parked` in the packet of that ticket and leaves everything else. -/
theorem State.park_eq (s : State) (p : Packet) : s.park p = { s with
    packets := s.packets.map fun q => if q.stream = p.stream ∧ q.ticket = p.ticket then { p with parked := true } else q } := by
  simp [State.park, State.putPacket]

/-! ### The steps that examine a packet (R14, R27) -/

/-- What a packet of any type but LAUNCH does when it is carried out. -/
def Packet.effect (p : Packet) (s : State) : State :=
  if p.type = 2 then s.carryWaitv p
  else if p.type = 3 then s.carrySignal p
  else if p.type = 4 then s.carryHarvest p
  else if p.type = 5 then s.carryShootdown p
  else s.endPacket p 0 (s.startVec p)

/-- The steps of an agent that examine a packet `p` of any type but LAUNCH: that of its type, NOP_PACKET for a reserved type, and
once it is parked the two that examine it again. -/
def Packet.ExaminedBy (p : Packet) (i : Instr) : Prop :=
  (p.type, i) ∈ [(0, .nopPacket p.stream p.ticket), (2, .waitv p.stream p.ticket), (3, .signal p.stream p.ticket),
    (4, .harvest p.stream p.ticket), (5, .shootdown p.stream p.ticket)] ∨
  (5 < p.type ∧ i = .nopPacket p.stream p.ticket) ∨
  (i ∈ [.parkedPacketReexamine p.stream p.ticket, .parkRecheckTimer p.stream p.ticket] ∧ p.parked = true ∧ p.type ≠ 1)

theorem exec_packetClaim (core stream : Nat) (s : State) : exec (.packetClaim core stream) s = execPacketClaim core stream s := rfl
theorem exec_parkedPacketReexamine (stream ticket : Nat) (s : State) :
    exec (.parkedPacketReexamine stream ticket) s = execParkedPacketReexamine stream ticket s := rfl
theorem exec_parkRecheckTimer (stream ticket : Nat) (s : State) :
    exec (.parkRecheckTimer stream ticket) s = execParkRecheckTimer stream ticket s := rfl

/-- A step for packets of certain types examines the packet of its ticket when that is of such a type. -/
theorem State.packetStep_of_packetAt {is : Nat → Bool} (carry : State → Packet → State)
    (h : s.packetAt p.stream p.ticket = some p) (ht : is p.type = true) :
    s.packetStep p.stream p.ticket is carry = s.examine p fun u => carry u p := by
  simp [State.packetStep, h, ht]

/-- A parked packet that is not a LAUNCH is examined again as at its claim (R27). -/
theorem State.reexamine_of_parked (hp : p.parked = true) (ht : p.type ≠ 1) : s.reexamine p = s.examine p p.effect := by
  simp only [State.reexamine, hp, Bool.not_true, Bool.false_eq_true, if_false]
  congr 1
  funext u
  unfold Packet.effect
  split <;> simp_all

/-- Each of those steps is an examination of the packet, which is carried out by its type. -/
theorem exec_of_examinedBy (hi : p.ExaminedBy i) (h : s.packetAt p.stream p.ticket = some p) :
    exec i s = .next (s.examine p p.effect) := by
  have step (is : Nat → Bool) (carry : State → Packet → State) (ht : is p.type = true) (he : ∀ u, carry u p = p.effect u) :
      ok (s.packetStep p.stream p.ticket is carry) = .next (s.examine p p.effect) := by
    rw [State.packetStep_of_packetAt carry h ht, funext he, ok]
  rcases hi with hown | ⟨ht, rfl⟩ | ⟨hagain, hp, ht⟩
  · simp only [List.mem_cons, Prod.mk.injEq, List.not_mem_nil, or_false] at hown
    rcases hown with ⟨ht, rfl⟩ | ⟨ht, rfl⟩ | ⟨ht, rfl⟩ | ⟨ht, rfl⟩ | ⟨ht, rfl⟩ <;>
      exact step _ _ (by simp [ht]) fun u => by simp [Packet.effect, ht]
  · refine step _ _ (by simp [ht]) fun u => ?_
    have : p.type ≠ 2 ∧ p.type ≠ 3 ∧ p.type ≠ 4 ∧ p.type ≠ 5 := by omega
    simp [Packet.effect, this]
  · simp only [List.mem_cons, List.not_mem_nil, or_false] at hagain
    rcases hagain with rfl | rfl
    · simp [exec_parkedPacketReexamine, execParkedPacketReexamine, h, State.reexamine_of_parked hp ht, ok]
    · simp [exec_parkRecheckTimer, execParkRecheckTimer, h, State.reexamine_of_parked hp ht, ok]

/-- The steps that examine a packet in hand carry it out. -/
theorem exec_of_inHand (hi : p.ExaminedBy i) (h : InHand s p) (hw : s.waitvRefused p = false) :
    exec i s = .next (p.effect s) := by
  rw [exec_of_examinedBy hi h.1, State.examine_of_inHand _ h hw]

/-! ### What a packet of each type does (R14, R226, R235) -/

theorem Packet.effect_nop (ht : p.type = 0) : p.effect s = s.endPacket p 0 (s.startVec p) := by simp [Packet.effect, ht]

/-- A WAITV whose word is below its value is parked (R27). -/
theorem Packet.effect_waitv_below {bs : List Byte} {key : Nat} (ht : p.type = 2)
    (h : s.vio p.core (p.num 8 8) 8 (fun _ => none) How.load id = .ok t (bs, key)) (hlt : ofBytes bs < p.num 16 8) :
    p.effect s = t.park p := by
  simp [Packet.effect, ht, State.carryWaitv, h, hlt]

/-- A WAITV whose word has reached its value completes; the agent's wave is as before, what it has read from goes to the stream. -/
theorem Packet.effect_waitv_reached {bs : List Byte} {key : Nat} (ht : p.type = 2)
    (h : s.vio p.core (p.num 8 8) 8 (fun _ => none) How.load id = .ok t (bs, key)) (hle : p.num 16 8 ≤ ofBytes bs) :
    ∃ hb, p.effect s = t.endPacket p 0 hb := by
  refine ⟨(State.readRel { t with wave := { t.wave with hb := s.startVec p } } key 8 1 5).wave.hb, ?_⟩
  simp only [Packet.effect, ht, if_true, State.carryWaitv, h, if_neg (Nat.not_lt.mpr hle)]
  rfl

/-- A SIGNAL of operation 0 stores its value with release order (R14). -/
theorem Packet.effect_signal_store {a : List Byte × Nat} (ht : p.type = 3) (hop : p.num 24 1 = 0)
    (h : s.vio p.core (p.num 8 8) 8 (fun _ => none) How.store (fun _ => toBytes (p.num 16 8) 8) = .ok t a) :
    p.effect s = (t.writeRel a.2 8 false [(5, s.startVec p)]).endPacket p 0 (s.startVec p) := by
  simp [Packet.effect, ht, State.carrySignal, hop, h]

/-- A SIGNAL of operation 1 adds its value with release order, to a word that may be read too (R14). -/
theorem Packet.effect_signal_add {a : List Byte × Nat} (ht : p.type = 3) (hop : p.num 24 1 = 1)
    (h : s.vio p.core (p.num 8 8) 8 (fun x => if x.perm.getLsbD 0 then none else some 1)
      { acc := .store, rmw := true, pcieOp := true, helper := true } (atomicBytes 0 (toBytes (p.num 16 8) 8)) = .ok t a) :
    p.effect s = (t.writeRel a.2 8 true [(5, s.startVec p)]).endPacket p 0 (s.startVec p) := by
  have hneed : (fun x : TransReg => if x.perm.getLsbD 0 then none else some 1) =
      fun x => if (true && !x.perm.getLsbD 0) = true then some 1 else none := by
    funext x
    cases x.perm.getLsbD 0 <;> rfl
  rw [hneed] at h
  simp only [Packet.effect, ht, State.carrySignal, hop, beq_self_eq_true, if_true]
  rw [h]
  rfl

/-- The sum that a SIGNAL leaves is that of the 64-bit words. -/
theorem atomicBytes_add {old : List Byte} {v : Nat} (hold : old.length = 8) (hv : v < 2 ^ 64) :
    atomicBytes 0 (toBytes v 8) old = toBytes ((ofBytes old + v) % 2 ^ 64) 8 := by
  have hword : ofBytes (toBytes v 8) = v := by rw [ofBytes_toBytes, Nat.mod_eq_of_lt (by simpa using hv)]
  simp [atomicBytes, atomicOp, hold, hword]

/-- The state in which the DIRTY bit of the frame at a physical address is cleared (R222). -/
def State.clearDirty (s : State) (pa : Nat) : State :=
  { s with frames := cset s.frames (pa / 4096) (s.frameRec pa &&& ~~~BitVec.ofNat 64 (2 ^ 49)) }

/-- The DIRTY bit of one page of frame space is cleared as it is read (R235). -/
theorem State.harvestAll_page {va : Nat} {x : TransReg} (hwalk : s.walk va = .leaf x) (hkind : x.kind ≠ 3)
    (hframe : inFrame x.pbase.toNat = true) (hva : va < 2 ^ 52) :
    s.harvestAll va 1 = (s.clearDirty x.pbase.toNat, [(s.frameRec x.pbase.toNat).getLsbD 49]) := by
  have hone : (x.kind == 3 || !inFrame x.pbase.toNat || decide (2 ^ 52 ≤ va)) = false := by
    simp only [hframe, beq_eq_false_iff_ne.mpr hkind, Bool.not_true, Bool.or_self, Bool.false_or, decide_eq_false_iff_not]
    omega
  simp only [State.harvestAll, State.harvestOne, State.clearDirty, hwalk, hone, Bool.false_eq_true, if_false]

/-- One bit as the byte of a bitmap. -/
theorem toBytes_packBits_one (b : Bool) : toBytes (packBits [b]) 1 = [if b then 1 else 0] := by cases b <;> rfl

/-- A HARVEST of one page of frame space stores the DIRTY bit that it clears (R235). -/
theorem Packet.effect_harvest_page {x : TransReg} {b : Bool} (ht : p.type = 4) (hlen : p.num 16 8 = 4096)
    (hmap : s.storable (p.num 24 8) = true) (hwalk : s.walk (p.num 8 8) = .leaf x) (hkind : x.kind ≠ 3)
    (hframe : inFrame x.pbase.toNat = true) (hva : p.num 8 8 < 2 ^ 52)
    (h : (s.clearDirty x.pbase.toNat).vwrite p.core (p.num 24 8) [if (s.frameRec x.pbase.toNat).getLsbD 49 then 1 else 0] 1 = .ok t b) :
    p.effect s = t.endPacket p 0 (s.startVec p) := by
  rw [← toBytes_packBits_one] at h
  simp [Packet.effect, ht, State.carryHarvest, hlen, hmap, State.harvestAll_page hwalk hkind hframe hva, h, -BitVec.getLsbD_eq_getElem]

/-- A translation turns STALE where its page overlaps the range of a SHOOTDOWN, and length 0 is everything (R226). -/
theorem TransReg.inRange_iff (r : TransReg) (base len : Nat) :
    r.inRange base len = true ↔ len = 0 ∨ (r.vpage < base + len ∧ base < r.vpage + r.bytes) := by
  simp [TransReg.inRange, meets]

/-- SHOOTDOWN makes every translation of the range that the waves hold STALE and drops it from every TLB and walk cache (R226). -/
theorem Packet.effect_shootdown (ht : p.type = 5) :
    p.effect s = State.endPacket { s with
      wave := s.wave.shot (p.num 8 8) (p.num 16 8), waves := s.waves.map fun w => w.shot (p.num 8 8) (p.num 16 8),
      cores := s.cores.map fun c => (c.1, { c.2 with tlb := c.2.tlb.filter fun r => !r.inRange (p.num 8 8) (p.num 16 8) }),
      dies := s.dies.map fun d => (d.1, { d.2 with
        tlb := d.2.tlb.filter fun r => !r.inRange (p.num 8 8) (p.num 16 8),
        walk := d.2.walk.filter fun e => !walkInRange (p.num 8 8) (p.num 16 8) e }) } p 0 (s.startVec p) := by
  simp only [Packet.effect, ht, State.carryShootdown, State.mapWaves]
  rfl

/-! ### The end of a packet and the claim (R25, R26, R29) -/

/-- A packet that completes without an event writes its status word and RETIRE, and leaves the stream what it has done. -/
theorem State.endPacket_complete (s : State) (vc : Vec) (hevt : p.evt = false) :
    let st := s.statusAt p.stream p.ticket
    let u := (s.physWrite st (toBytes (p.ticket + 1) 8)).writeRel (s.devAt st).2 8 false [(5, vc)]
    let r := u.retireFrom p.stream (u.streamNum p.stream 32 8) 65536
    let t := (u.touch (u.statusAt p.stream r) 8).physWrite (s.streamAt p.stream + 32) (toBytes r 8)
    s.endPacket p 0 vc = { t with
      packets := t.packets.filter fun q => !(q.stream == p.stream && q.ticket == p.ticket),
      hbStream := tset t.hbStream p.stream (vecJoin (tget [] t.hbStream p.stream) vc) } := by
  simp only [State.endPacket, hevt, bne_self_eq_false, Bool.false_and, Bool.false_eq_true, if_false]

/-- An agent does not claim from a stream that is not its next. -/
theorem exec_packetClaim_other {core st : Nat} (h : s.nextStream core ≠ some st) : exec (.packetClaim core st) s = .next s := by
  simp [exec_packetClaim, execPacketClaim, h, ok]

/-- The stream that an agent claims from next is one that it may claim from. -/
theorem State.claimable_of_nextStream {core st : Nat} (h : s.nextStream core = some st) : s.claimable core st = true :=
  List.find?_some h

/-- A claim moves TICKET on and gives the agent the packet of that ticket (R25). -/
theorem exec_packetClaim_next {core st : Nat} (h : s.nextStream core = some st) (hd : s.devHeld (s.streamAt st + 24) = false) :
    let t := s.streamNum st 24 8
    let entry := s.streamNum st 0 8 + 64 * (t % 2 ^ s.streamNum st 8 1)
    let u := ((s.touch (s.streamAt st) 64).touch entry 64).physWrite (s.streamAt st + 24) (toBytes (t + 1) 8)
    exec (.packetClaim core st) s = .next { u with
      lastStream := tset u.lastStream core st,
      packets := u.packets ++ [{
        stream := st, ticket := t, core := core, parked := false, launch := none, bytes := s.devRead entry 64,
        vc := u.agentSees core (u.streamAt st + 16) 8 }] } := by
  simp only [exec_packetClaim, execPacketClaim, h, bne_self_eq_false, hd, Bool.false_eq_true, if_false, State.ringLen, ok]

/-! ### The statement -/

/-- Settles O19: an examination's outcomes, the effect of each type, the end and the claim, one lemma each. -/
theorem packetEvents : Obligations.PacketEvents := by
  intro s p vc parked own again runs
  refine ⟨fun i hi hat hend => ⟨fun c hc => ?_, fun hb hp hw => ?_, fun hb hw ho hr => ?_⟩,
    fun i hi hin => ⟨fun ht => ?_, fun ht t bs key h => ⟨fun hlt => ?_, fun hle => ?_⟩, fun ht hop t a h => ?_,
      fun ht hop t a h => ?_, fun ht hlen hmap x hwalk hkind hframe hva t b h => ?_, fun ht => ?_⟩,
    fun old v hold hv => atomicBytes_add hold hv, fun t base len => ⟨fun hhit => ?_, fun hmiss => ?_⟩,
    s.endPacket_complete vc, fun core st h => exec_packetClaim_other h,
    fun core st h hd => ⟨State.claimable_of_nextStream h, exec_packetClaim_next h hd⟩⟩
  · rw [exec_of_examinedBy hi hat, State.examine_of_breach _ hend hc]
  · rw [exec_of_examinedBy hi hat, State.examine_of_waitvRefused _ hend hb hp hw]
  · rw [exec_of_examinedBy hi hat, State.examine_of_early _ hend hb hw ho hr, State.park_eq]
  · rw [exec_of_inHand hi hin (State.waitvRefused_of_type_ne (by simp [ht])), Packet.effect_nop ht]
  · rw [exec_of_inHand hi hin (State.waitvRefused_of_vio_ok h), Packet.effect_waitv_below ht h hlt]
  · obtain ⟨hb, heffect⟩ := Packet.effect_waitv_reached ht h hle
    exact ⟨hb, by rw [exec_of_inHand hi hin (State.waitvRefused_of_vio_ok h), heffect]⟩
  · rw [exec_of_inHand hi hin (State.waitvRefused_of_type_ne (by simp [ht])), Packet.effect_signal_store ht hop h]
  · rw [exec_of_inHand hi hin (State.waitvRefused_of_type_ne (by simp [ht])), Packet.effect_signal_add ht hop h]
  · rw [exec_of_inHand hi hin (State.waitvRefused_of_type_ne (by simp [ht])),
      Packet.effect_harvest_page ht hlen hmap hwalk hkind hframe hva h]
  · rw [exec_of_inHand hi hin (State.waitvRefused_of_type_ne (by simp [ht])), Packet.effect_shootdown ht]
  · simp [TransReg.shot, (TransReg.inRange_iff t base len).mpr hhit]
  · simp [TransReg.shot, Bool.eq_false_iff.mpr (mt (TransReg.inRange_iff t base len).mp hmiss)]

end Sys2Proof.Machine
end

section
/-! PROOF. The life of a launch (R30, R32, R33, R51, R52, R405 to R407): validation, tags, the room that a group fits into, placement,
start, and the ends of waves, groups and the launch, one lemma each; together they settle O20. -/

namespace Sys2Proof.Machine

open Sys2Proof.Claims

variable {s t : State} {p : Packet} {n core : Nat}

/-! ### Validation and tags (R30, R33, R51) -/

theorem exec_launch (stream ticket : Nat) (s : State) : exec (.launch stream ticket) s = execLaunch stream ticket s := rfl
theorem exec_placementRequest (core launch : Nat) (s : State) :
    exec (.placementRequest core launch) s = execPlacementRequest core launch s := rfl
theorem exec_placementGrant (core : Nat) (s : State) : exec (.placementGrant core) s = execPlacementGrant core s := rfl
theorem exec_launchStart (launch : Nat) (s : State) : exec (.launchStart launch) s = execLaunchStart launch s := rfl
theorem exec_waveSlotReturn (core slot : Nat) (s : State) : exec (.waveSlotReturn core slot) s = execWaveSlotReturn core slot s := rfl
theorem exec_groupFree (core gslot : Nat) (s : State) : exec (.groupFree core gslot) s = execGroupFree core gslot s := rfl
theorem exec_launchCompletion (launch : Nat) (s : State) : exec (.launchCompletion launch) s = execLaunchCompletion launch s := rfl

/-- A LAUNCH in hand that has no number yet is carried out. -/
theorem exec_launch_inHand (h : InHand s p) (ht : p.type = 1) (hl : p.launch = none) :
    exec (.launch p.stream p.ticket) s = .next (s.carryLaunch p) := by
  have hcarry := State.examine_of_inHand (fun s => s.carryLaunch p) h (State.waitvRefused_of_type_ne (by simp [ht]))
  simp only [exec_launch, execLaunch, h.1, ht, bne_self_eq_false, Bool.false_eq_true, if_false, hl, hcarry, ok]

/-- Records in breach end the packet with the code of the breach (R435). -/
theorem State.carryLaunch_breach {c : Captured} {code : Nat} (hc : s.capture p = .ok t c)
    (hb : c.breach s.mgmt.featacc = some code) : s.carryLaunch p = t.endPacket p code [] := by
  simp only [State.carryLaunch, hc, hb]

/-- Records in order make a launch of the next number, which takes its tags (R30). -/
theorem State.carryLaunch_valid {c : Captured} (hc : s.capture p = .ok t c) (hb : c.breach s.mgmt.featacc = none)
    (hw : c.head.wsrc ≠ 2) : s.carryLaunch p = State.sequence { t with
      fresh := t.fresh + 1, launches := tset t.launches t.fresh (c.launch p (s.startVec p)),
      packets := t.packets.map fun q =>
        if q.stream = p.stream ∧ q.ticket = p.ticket then { p with parked := false, launch := some t.fresh } else q } t.fresh := by
  simp only [State.carryLaunch, hc, hb, beq_eq_false_iff_ne.mpr hw, Bool.false_eq_true, if_false, State.putPacket, State.setLaunch,
    State.bump, Bool.and_eq_true, beq_iff_eq]

/-- A launch without a dispenser takes the lowest free tags and the next PSEQ, once enough tags are free (R30, R51). -/
theorem State.sequence_tags (hw : (s.launch n).wsrc ≠ 1) :
    let l := s.launch n
    let want := (List.range 8).filter fun t => l.btags.getLsbD t
    let free := (List.range 64).filter fun t => !s.tagsUsed.contains t
    (want.length ≤ free.length → s.sequence n = { s with
      launches := tset s.launches n { l with sequenced := true, pseq := s.nextPseq, tags := want.zip free, disp := none },
      nextPseq := s.nextPseq + 1, tagsUsed := s.tagsUsed ++ free.take want.length }) ∧
    (free.length < want.length → s.sequence n = s) := by
  intro l want free
  have hdisp : ((s.launch n).wsrc == 1) = false := beq_eq_false_iff_ne.mpr hw
  have hseq : s.sequence n = if free.length < want.length then s else
      { s.setLaunch n { l with sequenced := true, pseq := s.nextPseq, tags := want.zip free, disp := none } with
        nextPseq := s.nextPseq + 1, tagsUsed := s.tagsUsed ++ free.take want.length } := by
    simp only [State.sequence, hdisp, Bool.false_and, Bool.or_false, Bool.false_eq_true, if_false, decide_eq_true_eq]
    rfl
  exact ⟨fun hle => hseq.trans (if_neg (Nat.not_lt.mpr hle)), fun hlt => hseq.trans (if_pos hlt)⟩

/-! ### Requests and grants (R30, R52) -/

/-- A core of the launch receives its request once (R30). -/
theorem exec_placementRequest_new (hs : (s.launch n).sequenced = true) (hc : core ∈ (s.launch n).cmask)
    (hr : core ∉ (s.launch n).requested) (hq : n ∉ (s.core core).requests) :
    exec (.placementRequest core n) s = .next { s with
      launches := tset s.launches n { s.launch n with requested := (s.launch n).requested ++ [core] },
      cores := tset s.cores core { s.core core with requests := (s.core core).requests ++ [n] } } := by
  have hput {l : List Nat} {x : Nat} (h : x ∉ l) : sput l x = l ++ [x] := by simp [sput, h]
  simp only [exec_placementRequest, execPlacementRequest, hs, List.contains_eq_mem, hc, hr, decide_true, decide_false, Bool.not_true,
    Bool.or_self, Bool.false_eq_true, if_false, State.setLaunch_core, hput hr, hput hq, ok]
  rfl

/-- A core whose turn it is grants its earliest request where the group fits (R30, R52). -/
theorem exec_placementGrant_fits {f : Fit} (hn : s.nextRequest core = some n) (hg : (s.launch n).gang = false)
    (ht : s.turnOf core n = true) (hf : (s.room core).fit (s.launch n).need = some f) :
    exec (.placementGrant core) s = .next (s.place core n f) := by
  simp [exec_placementGrant, execPlacementGrant, hn, Launch.party, hg, ht, hf, ok]

/-- A group that is placed stands in its slot, its waves with the others, and its core among those that have granted (R51, R52). -/
theorem State.place_waves (s : State) (core n : Nat) (f : Fit) : (s.place core n f).waves = s.waves ++
    f.slots.zipIdx.map fun x => (s.launch n).wave n core f.gslot x.1 x.2 (Config.cores + s.fresh + x.2) := rfl

theorem State.place_group (s : State) (core n : Nat) (f : Fit) : (s.place core n f).group core f.gslot = { noGroup with
    launch := n, gindex := indexIn (s.launch n).cmask core, spadBase := f.spadBase, spadLen := 1024 * (s.launch n).spad,
    accBase := f.accBase, accLen := 8192 * (s.launch n).acc, tiles := f.tiles, waves := (s.launch n).nwave, since := s.clock } :=
  State.setGroup_group_self (s.setCore core _) core f.gslot _

theorem State.place_granted {f : Fit} (h : core ∉ (s.launch n).granted) :
    ((s.place core n f).launch n).granted = (s.launch n).granted ++ [core] := by
  simp [State.place, sput, h]

/-! ### Room for a group (R51, R52) -/

theorem mem_insertBy {α : Type} {key : α → Nat} {x y : α} {l : List α} (h : x ∈ insertBy key y l) : x = y ∨ x ∈ l := by
  induction l with
  | nil => simpa [insertBy] using h
  | cons z l ih =>
    unfold insertBy at h
    split at h
    · simpa using h
    · rcases List.mem_cons.mp h with rfl | h
      · simp
      · exact (ih h).imp_right (List.mem_cons_of_mem z)

/-- Putting a list in order adds nothing to it. -/
theorem mem_of_mem_sortBy {α : Type} {key : α → Nat} {x : α} {l : List α} (h : x ∈ sortBy key l) : x ∈ l := by
  have go (l : List α) : ∀ a, x ∈ l.foldl (fun a x => insertBy key x a) a → x ∈ a ∨ x ∈ l := by
    induction l with
    | nil => exact fun a h => .inl h
    | cons y l ih =>
      intro a h
      rcases ih _ h with h | h
      · exact (mem_insertBy h).elim (fun e => .inr (by simp [e])) .inl
      · exact .inr (List.mem_cons_of_mem y h)
  simpa using go l [] h

/-- The first wave of a list is seated in a free slot of its pipe, the others around it (R52). -/
theorem Room.seat_cons {r : Room} {p0 gran w : Nat} {ws ss : List Nat} (h : r.seat p0 gran (w :: ws) = some ss) :
    ∃ sl ss', ss = sl :: ss' ∧ sl / 16 = (p0 + w) % 4 ∧ (∀ x ∈ r.waves, x.1 ≠ sl) ∧
      Room.seat { r with waves := r.waves ++ [(sl, gran)] } p0 gran ws = some ss' := by
  unfold Room.seat at h
  dsimp only at h
  split at h
  · cases h
  · rename_i sl hfind
    split at h
    · cases h
    · obtain ⟨ss', hss, rfl⟩ := Option.map_eq_some_iff.mp h
      have hfree := List.find?_some hfind
      have hmem := List.mem_of_find?_eq_some hfind
      simp only [List.mem_map, List.mem_range] at hmem
      obtain ⟨k, hk, rfl⟩ := hmem
      refine ⟨_, ss', rfl, by omega, fun x hx he => ?_, hss⟩
      simp only [Bool.not_eq_true', List.any_eq_false, beq_iff_eq] at hfree
      exact hfree x hx he

/-- The slots that waves are given: one each, in its pipe from the starting pipe on, no two alike, none in use (R52). -/
theorem Room.seat_some {p0 gran : Nat} {ws : List Nat} : ∀ {r : Room} {ss : List Nat}, r.seat p0 gran ws = some ss →
    ss.length = ws.length ∧ (∀ i < ws.length, ss.getD i 0 / 16 = (p0 + ws.getD i 0) % 4) ∧ ss.Nodup ∧
      ∀ sl ∈ ss, sl < 64 ∧ ∀ w ∈ r.waves, w.1 ≠ sl := by
  induction ws with
  | nil =>
    intro r ss h
    obtain rfl : [] = ss := Option.some.inj h
    simp
  | cons w ws ih =>
    intro r ss h
    obtain ⟨sl, ss', rfl, hpipe, hfree, hrest⟩ := Room.seat_cons h
    obtain ⟨hlen, hpipes, hnodup, hslots⟩ := ih hrest
    refine ⟨by simp [hlen], fun i hi => ?_, List.nodup_cons.mpr ⟨fun hm => ?_, hnodup⟩, fun x hx => ?_⟩
    · cases i with
      | zero => exact hpipe
      | succ i => exact hpipes i (Nat.lt_of_succ_lt_succ hi)
    · exact (hslots sl hm).2 (sl, gran) (by simp) rfl
    · rcases List.mem_cons.mp hx with rfl | hx
      · exact ⟨by omega, hfree⟩
      · exact ⟨(hslots x hx).1, fun w hw => (hslots x hx).2 w (by simp [hw])⟩

/-- What a fit is made of: the lowest free group slot, slots for the waves from one of the pipes on, and the lowest free tile
registers (R51, R52). -/
theorem Room.fit_some {r : Room} {x : Need} {f : Fit} (h : r.fit x = some f) :
    (List.range 8).find? (fun g => !r.gslots.contains g) = some f.gslot ∧
      (∃ p < 4, r.seat p x.granules x.waves = some f.slots) ∧
      (let free := (List.range Config.tileRegs).filter fun t => !r.tiles.contains t
       x.tiles ≤ free.length ∧ f.tiles = free.take x.tiles) := by
  unfold Room.fit at h
  extract_lets free at h
  split at h
  · rename_i g sp ac sl hg hsp hac hsl
    split at h
    · cases h
    · rename_i hlen
      obtain rfl := Option.some.inj h
      obtain ⟨p, hp, hseat⟩ := List.exists_of_findSome?_eq_some hsl
      exact ⟨hg, ⟨p, List.mem_range.mp (mem_of_mem_sortBy hp), hseat⟩, Nat.not_lt.mp hlen, rfl⟩
  · cases h

/-! ### The start (R19, R31, R100) -/

/-- A change of the records of several cores, one after the other. -/
theorem State.foldl_setCore (f : Core → Core) (l : List Nat) : ∀ s : State,
    l.foldl (fun t c => t.setCore c (f (t.core c))) s =
      { s with cores := l.foldl (fun t c => tset t c (f (tget Core.reset t c))) s.cores } := by
  induction l with
  | nil => exact fun _ => rfl
  | cons c l ih => exact fun s => ih (s.setCore c (f (s.core c)))

/-- A wave of launch `n` as its start leaves it: it goes on, with its Age and its work identifier (R19, R100). -/
def State.startWave (s : State) (n : Nat) (w : Wave) : Wave :=
  if w.priv = true ∨ w.launch ≠ n then w
  else { w with
    suspended := false, age := (s.core w.core).nextAge + w.windex,
    wid := (s.launch n).widbase + BitVec.ofNat 64 ((s.group w.core w.gslot).gindex * (s.launch n).nwave + w.windex) }

/-- Once all its cores have granted, the waves of a launch start (R30, R31). -/
theorem exec_launchStart_granted (hs : (s.launch n).sequenced = true) (hst : (s.launch n).started = false)
    (hg : (s.launch n).granted.length = (s.launch n).cmask.length) :
    exec (.launchStart n) s = .next { s with
      wave := s.startWave n s.wave, waves := s.waves.map (s.startWave n),
      cores := (s.launch n).cmask.foldl
        (fun t c => tset t c { tget Core.reset t c with nextAge := (tget Core.reset t c).nextAge + (s.launch n).nwave }) s.cores,
      launches := tset s.launches n { s.launch n with started := true, drain := none, draining := none } } := by
  have hgo : (fun w : Wave => if w.priv || w.launch != n then w else { w with
      suspended := false, age := (s.core w.core).nextAge + w.windex,
      wid := (s.launch n).widbase + bv ((s.group w.core w.gslot).gindex * (s.launch n).nwave + w.windex) }) = s.startWave n := by
    funext w
    simp only [State.startWave, Bool.or_eq_true, bne_iff_ne, bv]
  have hages := State.foldl_setCore (fun c => { c with nextAge := c.nextAge + (s.launch n).nwave }) (s.launch n).cmask
    (s.mapWaves (s.startWave n))
  simp only [exec_launchStart, execLaunchStart, hs, hst, hg, Bool.not_true, bne_self_eq_false, Bool.or_self, Bool.false_eq_true,
    if_false, hgo, hages, ok]
  rfl

/-! ### The ends (R32, R405 to R407) -/

/-- A wave that has ended, with nothing outstanding, returns its slot (R405). -/
theorem exec_waveSlotReturn_quiet {slot : Nat} {w : Wave} (hcore : s.wave.core = core) (hagent : s.wave.slot = 15) (hne : slot ≠ 15)
    (hfind : s.waves.find? (fun v => v.at_ core slot) = some w) (hpriv : w.priv = false) (hend : w.ended = true) (hlt : slot < 64)
    (hpend : w.pend = []) (hout : w.outst = []) (hk : ∀ x ∈ w.k, x.2 = 0) (hbulk : ∀ b ∈ (s.core core).bulks, b.slot ≠ slot) :
    exec (.waveSlotReturn core slot) s = .next { s with
      groups := tset s.groups (16 * core + w.gslot)
        { s.group core w.gslot with waves := (s.group core w.gslot).waves - 1 },
      waves := s.waves.filter fun v => !v.at_ core slot } := by
  have hat : s.wave.at_ core slot = false := by simp [Wave.at_, hagent, hne.symm]
  have hfound : s.findWave core slot = some w := by simp [State.findWave, hat, hfind]
  have hreturns : w.returns = true := by
    simp only [Wave.returns, hpriv, hend, hpend, hout]
    simp only [Bool.not_false, List.isEmpty_nil, Bool.and_self, Bool.true_and, List.all_nil, Bool.and_true, List.all_eq_true]
    exact fun x hx => by simp [hk x hx]
  have hbusy : (!w.outst.isEmpty || (s.core core).bulks.any fun b => b.slot == slot && b.launch == w.launch) = false := by
    simp only [hout, List.isEmpty_nil, Bool.not_true, Bool.false_or, List.any_eq_false, Bool.and_eq_true, beq_iff_eq]
    exact fun b hb h => hbulk b hb h.1
  have hdrop (u : State) (hu : u.wave = s.wave) : u.dropWave core slot = { u with waves := u.waves.filter fun v => !v.at_ core slot } := by
    have hself : u.focus core 15 = u := by rw [← hcore, ← hagent, ← hu, State.focus_self]
    simp only [State.dropWave, hself, hu, hat, Bool.false_eq_true, if_false]
  simp only [exec_waveSlotReturn, execWaveSlotReturn, hfound, hbusy, hreturns, Bool.not_true, Bool.false_eq_true, if_false,
    Nat.not_le.mpr hlt, ok]
  exact congrArg _ (hdrop _ rfl)

/-- A group whose waves have returned their slots, with no copy and no binding, is freed (R406). -/
theorem exec_groupFree_quiet {gslot : Nat} {x : Group} (hfind : tfind s.groups (16 * core + gslot) = some x) (hw : x.waves = 0)
    (hbulk : ∀ b ∈ (s.core core).bulks, b.gslot ≠ gslot) (hbind : ∀ b ∈ (s.core core).smap, b.grp ≠ gslot) :
    exec (.groupFree core gslot) s = .next { s with
      cores := tset s.cores core { s.core core with objs := (s.core core).objs.filter fun o => o.gslot != gslot },
      groups := s.groups.filter fun y => y.1 != 16 * core + gslot,
      launches := tset s.launches x.launch { s.launch x.launch with freed := (s.launch x.launch).freed + 1 } } := by
  have hcopies : ((s.core core).bulks.any fun b => b.gslot == gslot) = false := by simpa using hbulk
  have hunbind : s.unbindGroup core gslot = s := by
    have : (s.core core).smap.filter (fun b => b.grp == gslot) = [] := by simpa using hbind
    simp only [State.unbindGroup, this, List.foldl_nil]
  have hbound : s.bound core gslot = false := by simpa [State.bound] using hbind
  simp only [exec_groupFree, execGroupFree, groupKey, hfind, hw, bne_self_eq_false, hcopies, Bool.or_self, Bool.false_eq_true, if_false,
    hunbind, hbound, ok]
  rfl

/-- A launch whose groups are freed and whose writes are performed completes its packet (R32, R407). -/
theorem exec_launchCompletion_done (hfind : s.packets.find? (fun p => p.launch == some n) = some p)
    (hst : (s.launch n).started = true) (hfreed : (s.launch n).freed = (s.launch n).cmask.length)
    (hlog : ∀ c ∈ s.cores, ∀ e ∈ c.2.log, e.launch ≠ n) (hleft : ∀ v ∈ s.allWaves, v.priv = false → v.launch ≠ n)
    (hend : s.canEnd p = true) (hdone : (s.launch n).done = 0) (hcore : (s.launch n).core = s.wave.core) (hagent : s.wave.slot = 15) :
    exec (.launchCompletion n) s =
      .next ((s.endPacket p 0 (vecJoin (s.launch n).hbStart (s.launch n).hbEnd)).dropLaunch n) := by
  have hlogged : (s.cores.any fun c => c.2.log.any fun e => e.launch == n) = false := by simpa using hlog
  have hwaves : (s.allWaves.any fun w => !w.priv && w.launch == n) = false := by simpa using hleft
  have hself : s.focus (s.launch n).core 15 = s := by rw [hcore, ← hagent, State.focus_self]
  simp only [exec_launchCompletion, execLaunchCompletion, hfind, hst, hfreed, hlogged, hwaves, hend, hself, State.countDone, hdone,
    Bool.not_true, bne_self_eq_false, Bool.or_self, Bool.false_eq_true, if_false, if_true, ok]

/-- A launch without a dispenser gives back its tags and its number (R33, R51). -/
theorem State.dropLaunch_tags (h : (s.launch n).disp = none) : s.dropLaunch n = { s with
    tagsUsed := s.tagsUsed.filter fun t => !(s.launch n).tags.any fun x => x.2 == t,
    launches := s.launches.filter fun x => x.1 != n } := by
  simp only [State.dropLaunch, h, tdel]

/-! ### The statement -/

/-- Settles O20: the steps of a launch from its capture to its completion, one lemma each. -/
theorem launchEvents : Obligations.LaunchEvents := by
  intro s n l
  refine ⟨fun p h ht hl t c hc => ⟨fun code hb => ?_, fun hb hw => ?_⟩, State.sequence_tags,
    fun c => exec_placementRequest_new, fun c f => exec_placementGrant_fits,
    fun c f => ⟨s.place_waves c n f, s.place_group c n f, rfl, rfl, State.place_granted⟩,
    fun r x f h => ?_, exec_launchStart_granted, fun core slot w => exec_waveSlotReturn_quiet,
    fun core g x => exec_groupFree_quiet, fun p => exec_launchCompletion_done, State.dropLaunch_tags⟩
  · rw [exec_launch_inHand h ht hl, State.carryLaunch_breach hc hb]
  · rw [exec_launch_inHand h ht hl, State.carryLaunch_valid hc hb hw]
  · obtain ⟨hslot, ⟨p, hp, hseat⟩, hfree, htiles⟩ := Room.fit_some h
    obtain ⟨hlen, hpipes, hnodup, hslots⟩ := Room.seat_some hseat
    obtain ⟨hg, hmem, hbelow⟩ := List.find?_range_eq_some.mp hslot
    refine ⟨List.mem_range.mp hmem, by simpa using hg, fun g hg => by simpa using hbelow g hg, hlen, ⟨p, hp, hpipes⟩, hnodup, hslots,
      by rw [htiles, List.length_take, Nat.min_eq_left hfree], fun t ht => ?_⟩
    have := List.mem_filter.mp (List.mem_of_mem_take (htiles ▸ ht))
    simpa using this

end Sys2Proof.Machine
end

section
/-! PROOF. The clock through an access: nothing that a translation, an access or a step on a queue does moves it (R118). -/

namespace Sys2Proof.Machine

/-! ### Operations that leave the clock -/

@[simp] theorem State.clean_clock (s : State) (key n : Nat) : (s.clean key n).clock = s.clock := rfl

@[simp] theorem State.putMem_clock (s : State) (key : Nat) (bs : List Byte) : (s.putMem key bs).clock = s.clock := rfl

@[simp] theorem State.markRec_clock (s : State) (pa : Nat) (wr : Bool) : (s.markRec pa wr).clock = s.clock := rfl

@[simp] theorem State.setDir_clock (s : State) (line : Nat) (d : DirEntry) : (s.setDir line d).clock = s.clock := rfl

@[simp] theorem State.setCopy_clock (s : State) (die line : Nat) (x : LineState) (bs : List Byte) :
    (s.setCopy die line x bs).clock = s.clock := rfl

@[simp] theorem State.turnCopy_clock (s : State) (die line : Nat) (x : LineState) : (s.turnCopy die line x).clock = s.clock := rfl

@[simp] theorem State.spadPut_clock (s : State) (c at_ : Nat) (bs : List Byte) : (s.spadPut c at_ bs).clock = s.clock := rfl

@[simp] theorem State.claimRec_clock (s : State) (pa : Nat) (t : TransReg) : (s.claimRec pa t).clock = s.clock := by
  unfold State.claimRec
  dsimp only
  split <;> rfl

@[simp] theorem State.mapWave_clock (s : State) (c sl : Nat) (f : Wave → Wave) : (s.mapWave c sl f).clock = s.clock := by
  unfold State.mapWave; split <;> rfl

@[simp] theorem State.noteShare_clock (s : State) (pa : Nat) (only : Bool) : (s.noteShare pa only).clock = s.clock := by
  unfold State.noteShare
  extract_lets f
  split <;> rfl

@[simp] theorem State.carryLease_clock (s : State) (home die line : Nat) : (s.carryLease home die line).clock = s.clock := by
  unfold State.carryLease
  extract_lets e
  split <;> rfl

@[simp] theorem State.callBack_clock (s : State) (line : Nat) : (s.callBack line).clock = s.clock := by
  unfold State.callBack
  split
  · rfl
  · dsimp only
    split <;> rfl

@[simp] theorem State.putLine_clock (s : State) (who : Option Nat) (key : Nat) (bs : List Byte) :
    (s.putLine who key bs).clock = s.clock := by
  cases who <;> rfl

@[simp] theorem State.replicate_clock (s : State) (owner : Option Nat) (t : TransReg) (key : Nat) (bs : List Byte) :
    (s.replicate owner t key bs).clock = s.clock := by
  unfold State.replicate
  extract_lets others
  split <;> rfl

/-- What each step of a fold keeps, the fold keeps. -/
theorem State.foldl_keeps {α β : Type} (p : State → β) {f : State → α → State} (h : ∀ s a, p (f s a) = p s) :
    ∀ (l : List α) (s : State), p (l.foldl f s) = p s
  | [], _ => rfl
  | a :: l, s => (State.foldl_keeps p h l (f s a)).trans (h s a)

@[simp] theorem State.hostPut_clock (s : State) (pa : Nat) (bs : List Byte) : (s.hostPut pa bs).clock = s.clock :=
  State.foldl_keeps State.clock (fun s h => by dsimp only; split <;> rfl) _ _

@[simp] theorem State.chipWrite_clock (s : State) (pa : Nat) (bs : List Byte) : (s.chipWrite pa bs).clock = s.clock := by
  rcases h : chipPlace pa with ⟨c, sl, f⟩ | ⟨c, o⟩ | ⟨c, o⟩ | ⟨c, o⟩ | ⟨c, o⟩ | ⟨d, g, o⟩ | _ <;>
    simp only [State.chipWrite, h, State.mapWave_clock, State.spadPut_clock, State.setCore_clock, State.setDie_clock]

/-! ### Translation (R208, R225) -/

@[simp] theorem State.walkVia_clock (s : State) (d va : Nat) : (s.walkVia d va).1.clock = s.clock := by
  unfold State.walkVia
  dsimp only
  split
  · split
    · rfl
    · split <;> rfl
  · rfl

@[simp] theorem State.walkMarks_clock (s : State) (va : Nat) : (s.walkMarks va).clock = s.clock :=
  State.foldl_keeps State.clock (fun s b => by
    split
    · rfl
    · rw [State.markRec_clock, State.claimRec_clock]) _ s

@[simp] theorem State.walkFill_clock (s : State) (core va : Nat) : (s.walkFill core va).1.clock = s.clock := by
  have h := (State.walkVia_clock (s.walkMarks va) (dieOf core) va).trans (State.walkMarks_clock s va)
  unfold State.walkFill
  split
  · rename_i e; rw [e] at h; exact h
  · exact h

@[simp] theorem State.translate_clock (s : State) (core va : Nat) : (s.translate core va).1.clock = s.clock := by
  unfold State.translate
  dsimp only
  split
  · split
    · rfl
    · split <;> simp
  · split
    · split
      · rfl
      · split <;> simp
    · simp

theorem State.xlate_clock {s t : State} {core va o : Nat} {r : TransReg} (h : s.xlate core va = .at_ t r o) : t.clock = s.clock := by
  have hc := State.translate_clock s core va
  unfold State.xlate at h
  split at h
  · cases h
  · split at h <;> cases h
    rename_i e
    rw [e] at hc
    exact hc

/-! ### An access that is performed -/

/-- Room made in the snoop filter leaves the clock. -/
theorem State.makeRoom_clock {s t : State} {line pa home : Nat} (h : s.makeRoom line pa home = .ok t) : t.clock = s.clock := by
  unfold State.makeRoom at h
  split at h
  · cases h; rfl
  · extract_lets set lru at h
    clear_value lru
    split at h
    · cases h; rfl
    · split at h
      · cases h; rfl
      · split at h
        · cases h
        · split at h <;> cases h
          exact State.callBack_clock s _

/-- A line made ready for a load leaves the clock. -/
theorem State.readLine_clock {s t : State} {r line pa home : Nat} {only : Bool} (h : s.readLine r line pa home only = .ok t) :
    t.clock = s.clock := by
  unfold State.readLine at h
  split at h
  · cases h
  · split at h
    · cases h; rfl
    · split at h
      · cases h
      · rename_i v e
        extract_lets owned u d bs share at h
        split at h
        · cases h
        · have hu : u.clock = v.clock := by
            show (if only && owned then v.callBack line else v).clock = v.clock
            split
            · exact State.callBack_clock v line
            · rfl
          have ht : t.clock = u.clock := by
            cases h
            split
            · split
              · rfl
              · simp
            · rfl
            · split <;> rfl
            · rfl
          rw [ht, hu, State.makeRoom_clock e]

/-- A line made ready for a write leaves the clock. -/
theorem State.ownLine_clock {s t : State} {r line pa home : Nat} {only : Bool} {who : Option Nat}
    (h : s.ownLine r line pa home only = .ok (t, who)) : t.clock = s.clock := by
  unfold State.ownLine at h
  split at h
  · cases h
  · split at h
    · cases h
    · split at h
      · cases h; simp
      · split at h
        · cases h; rfl
        · split at h <;> cases h
          rename_i e
          exact (State.makeRoom_clock e :)

/-- Where an access is performed, the state that it leaves is at this clock. -/
def Got.AtClock (n : Nat) : Got → Prop
  | .ok t _ _ => t.clock = n
  | _ => True

theorem State.lineAccess_clock (s : State) (core : Nat) (t : TransReg) (o n : Nat) (wr : Bool) (f : List Byte → List Byte)
    (key : Nat) : (s.lineAccess core t o n wr f key).AtClock s.clock := by
  unfold State.lineAccess
  extract_lets pa r home only u pb
  have hu : u.clock = s.clock := State.noteShare_clock s pa only
  split
  · split
    · trivial
    · rename_i v who e
      exact (State.putLine_clock _ who key _).trans ((State.ownLine_clock e).trans hu)
  · split
    · trivial
    · rename_i e
      exact (State.readLine_clock e).trans hu

theorem State.frameAccess_clock (s : State) (core : Nat) (t : TransReg) (o n : Nat) (wr : Bool) (f : List Byte → List Byte) :
    (s.frameAccess core t o n wr f).AtClock s.clock := by
  unfold State.frameAccess
  extract_lets pa r d
  split
  · split <;> trivial
  · split
    · trivial
    · split
      · trivial
      · split
        · trivial
        · extract_lets key line ask u old bad
          have hu : u.clock = s.clock := (State.markRec_clock _ _ wr).trans (State.claimRec_clock s pa t)
          split
          · trivial
          · split
            · trivial
            · split
              · trivial
              · split
                · split
                  · split
                    · trivial
                    · exact hu
                  · exact hu
                · split
                  · split
                    · exact (State.replicate_clock _ _ t key (f old)).trans hu
                    · exact hu
                  · have hl := State.lineAccess_clock u core t o n wr f key
                    rw [hu] at hl
                    split
                    · trivial
                    · exact hl

theorem State.hostPerform_clock (s : State) (pa n : Nat) (wr atomic : Bool) (f : List Byte → List Byte) :
    (s.hostPerform pa n wr atomic f).AtClock s.clock := by
  unfold State.hostPerform
  extract_lets old done l
  have hd : done.AtClock s.clock := by
    cases wr
    · rfl
    · exact State.hostPut_clock s pa (f old)
  split
  · exact hd
  · split
    · split
      · exact hd
      · trivial
    · exact hd

/-- WHAT ONE ACCESS LEAVES: the clock. -/
theorem State.access_clock (s : State) (core : Nat) (t : TransReg) (o n : Nat) (wr atomic : Bool) (f : List Byte → List Byte) :
    (s.access core t o n wr atomic f).AtClock s.clock := by
  unfold State.access
  extract_lets pa old bad
  have hw (x : List Byte) : ((s.chipWrite pa x).clean pa n).clock = s.clock := State.chipWrite_clock s pa x
  split
  · rfl
  · split
    · exact State.hostPerform_clock ..
    · split
      · split
        · trivial
        · split
          · split
            · split
              · trivial
              · trivial
              · exact hw _
            · split
              · trivial
              · exact hw _
            · exact hw _
          · rfl
      · exact State.frameAccess_clock ..

/-- An access with its permissions checked leaves the clock. -/
theorem State.accessAt_clock {s t : State} {core o n va : Nat} {r : TransReg} {how : How} {f : List Byte → List Byte}
    {bs : List Byte} {bad : Option Nat} (h : s.accessAt core r o n va how f = .ok t bs bad) : t.clock = s.clock := by
  unfold State.accessAt at h
  split at h
  · cases h
  · cases h
  · extract_lets pa owned at h
    split at h
    · cases h
    · split at h <;> cases h
      rename_i e
      have hc := State.access_clock s core r o n (how.acc != .load) (how.rmw && !owned) f
      rw [e] at hc
      exact hc

/-! ### Steps of several accesses -/

/-- Where all accesses of a step are performed, `P` holds of the state and the result. -/
def Try.Gives {α : Type} (P : State → α → Prop) : Try α → Prop
  | .ok t a => P t a
  | _ => True

theorem Try.Gives.of_ok {α : Type} {P : State → α → Prop} {x : Try α} (h : x.Gives P) {t : State} {a : α} (e : x = .ok t a) : P t a := by
  subst e; exact h

theorem Try.Gives.mono {α : Type} {P Q : State → α → Prop} {x : Try α} (h : x.Gives P) (hpq : ∀ t a, P t a → Q t a) : x.Gives Q := by
  cases x with
  | ok t a => exact hpq t a h
  | wait t => trivial
  | fault t va => trivial
  | err c d a => trivial

theorem Try.Gives.andThen {α β : Type} {P : State → α → Prop} {Q : State → β → Prop} {x : Try α} {f : State → α → Try β}
    (hx : x.Gives P) (hf : ∀ t a, P t a → (f t a).Gives Q) : (x.andThen f).Gives Q := by
  cases x with
  | ok t a => exact hf t a hx
  | wait t => trivial
  | fault t va => trivial
  | err c d a => trivial

/-- An access of a unit of the device at a virtual address leaves the clock. -/
theorem State.vio_clock (s : State) (core va n : Nat) (need : TransReg → Option Nat) (how : How) (f : List Byte → List Byte) :
    (s.vio core va n need how f).Gives fun t _ => t.clock = s.clock := by
  unfold State.vio
  split
  · trivial
  · trivial
  · rename_i hx
    split
    · trivial
    · split
      · trivial
      · split
        · rename_i e
          exact (State.accessAt_clock e).trans (State.xlate_clock hx)
        all_goals trivial

/-- Reading a header leaves the clock. -/
theorem State.qhead_clock (s : State) (core q : Nat) : (s.qhead core q).Gives fun t _ => t.clock = s.clock :=
  List.foldlRecOn (motive := Try.Gives fun t _ => t.clock = s.clock) _ _ rfl fun _ hx _ _ =>
    hx.andThen fun t _ ht => (State.vio_clock t ..).andThen fun _ _ hv => hv.trans ht

@[simp] theorem State.readRel_clock (s : State) (key n order scope : Nat) : (s.readRel key n order scope).clock = s.clock := rfl

@[simp] theorem State.acqVa_clock (s : State) (va n scope : Nat) : (s.acqVa va n scope).clock = s.clock := by
  unfold State.acqVa; split <;> rfl

/-- What a write releases is noted beside its bytes: no wave differs, and the clock is as it was. -/
@[simp] theorem State.writeRel_wave (s : State) (key n : Nat) (update : Bool) (rels : Rels) :
    (s.writeRel key n update rels).wave = s.wave := by
  unfold State.writeRel
  apply State.foldl_keeps State.wave
  intros
  rfl

@[simp] theorem State.writeRel_clock (s : State) (key n : Nat) (update : Bool) (rels : Rels) :
    (s.writeRel key n update rels).clock = s.clock := by
  unfold State.writeRel
  apply State.foldl_keeps State.clock
  intros
  rfl

/-- Storing an entry leaves the clock. -/
theorem State.placeEntry_clock (s : State) (q : Nat) (h : QHead) (ws : List Word) :
    (s.placeEntry q h ws).Gives fun t _ => t.clock = s.clock := by
  unfold State.placeEntry
  extract_lets w d depth put
  have hput (slot rsv at_ : Nat) (bs : List Byte) : (put slot rsv at_ bs).Gives fun t _ => t.clock = s.clock :=
    (State.vio_clock s ..).andThen fun t a ht => (State.vio_clock t ..).andThen fun v _ hv => by
      show (v.writeRel a.2 32 false [(4, w.hb)]).clock = s.clock
      rw [State.writeRel_clock, hv, ht]
  split
  · exact hput ..
  · split
    · exact hput ..
    · rfl

/-- A step on a queue that starts in `s` leaves the clock, unless it fails. -/
def State.KeepsClock (s t : State) (out : QOut) : Prop := (∀ c, out ≠ .fail c) → t.clock = s.clock

/-- A latched error fails. -/
theorem State.latch_keepsClock (s t : State) (q code : Nat) : (t.latch q code).Gives s.KeepsClock :=
  (State.vio_clock t ..).andThen fun _ _ _ h => absurd rfl (h code)

/-- An ENQ leaves the clock, unless it fails. -/
theorem State.enqStep_keepsClock (s : State) (q : Nat) (ws : List Word) : (s.enqStep q ws).Gives s.KeepsClock := by
  refine (State.qhead_clock s ..).andThen fun t h ht => ?_
  extract_lets w0
  split
  · exact fun _ => ht
  · split
    · exact State.latch_keepsClock ..
    · split
      · exact State.latch_keepsClock ..
      · split
        · exact State.latch_keepsClock ..
        · exact (State.placeEntry_clock t ..).mono fun v _ hv _ => hv.trans ht

/-- Taking an entry leaves the clock, unless it fails. -/
theorem State.takeSlot_keepsClock {s t : State} (ht : t.clock = s.clock) (q : Nat) (h : QHead) (d slot rsv at_ : Nat)
    (bs : List Byte) : (t.takeSlot q h d slot rsv at_ bs).Gives s.KeepsClock := by
  unfold State.takeSlot
  refine (State.vio_clock t ..).andThen fun u a hu => ?_
  extract_lets ws
  split
  · exact State.latch_keepsClock ..
  · refine (State.vio_clock u ..).andThen fun v _ hv _ => ?_
    have hread (scope : Nat) : (v.readRel a.2 32 1 scope).clock = s.clock := hv.trans (hu.trans ht)
    show (if h.kind == 1 then (v.readRel a.2 32 1 (if h.kind == 1 then 5 else 4)).acqVa (q + 72 + 64 * d) 8 5
      else v.readRel a.2 32 1 (if h.kind == 1 then 5 else 4)).clock = s.clock
    split
    · exact (State.acqVa_clock ..).trans (hread _)
    · exact hread _

/-- A DEQ leaves the clock, unless it fails. -/
theorem State.deqStep_keepsClock (s : State) (q : Nat) : (s.deqStep q).Gives s.KeepsClock := by
  refine (State.qhead_clock s ..).andThen fun t h ht => ?_
  extract_lets d
  split
  · exact fun _ => ht
  · split
    · exact State.latch_keepsClock ..
    · split
      · exact State.takeSlot_keepsClock ht ..
      · split
        · exact State.takeSlot_keepsClock ht ..
        · split <;> exact fun _ => ht

end Sys2Proof.Machine
end

section
/-! PROOF. Task queues (R34 to R40, R44, R45, R286): what one step on a queue comes to by its header, what FETCHW, ENQ and DEQ make
of it; together they settle O54. -/

namespace Sys2Proof.Machine

open Sys2Proof.Claims

/-! ### Bits -/

/-- The highest set bit of a word is the set bit above which none is. -/
theorem highBit_eq_some {w : Nat} {x : BitVec w} {j : Nat} (hj : j < w) (hx : x.getLsbD j = true)
    (hmax : ∀ k < w, x.getLsbD k = true → k ≤ j) : highBit x = some j := by
  unfold highBit
  rw [List.find?_eq_some_iff_getElem]
  refine ⟨hx, w - 1 - j, by simp; omega, by simp; omega, fun i hi => ?_⟩
  have hk : ¬w - 1 - i ≤ j := by omega
  have := mt (hmax (w - 1 - i) (by omega)) hk
  simpa using this

/-- Bit `i` of a number is the one that a word made of it has, as far as the word goes. -/
theorem getLsbD_ofNat_eq_nbit {w i : Nat} (x : Nat) (hi : i < w) : (BitVec.ofNat w x).getLsbD i = nbit x i := by
  simp [BitVec.getLsbD_ofNat, hi, nbit, Nat.testBit_eq_decide_div_mod_eq, -BitVec.getLsbD_eq_getElem]

/-- A field of low bits is cleared: the number rounded down, and, where the field covers the word, nothing. -/
theorem and_keepMask (x : DWord) (n : Nat) : x &&& bv (2 ^ 64 - 2 ^ n) = BitVec.ofNat 64 (x.toNat / 2 ^ n * 2 ^ n) := by
  by_cases hn : n ≤ 64
  · have hmask : 2 ^ 64 - 2 ^ n = (2 ^ (64 - n) - 1) * 2 ^ n := by
      rw [Nat.sub_mul, ← Nat.pow_add, Nat.sub_add_cancel hn, Nat.one_mul]
    rw [bv, hmask]
    apply BitVec.eq_of_getLsbD_eq
    intro i hi
    simp only [BitVec.getLsbD_and, BitVec.getLsbD_ofNat, hi, decide_true, Bool.true_and, Nat.testBit_mul_two_pow,
      Nat.testBit_two_pow_sub_one, Nat.testBit_div_two_pow]
    by_cases hni : n ≤ i
    · have hlt : i - n < 64 - n := by omega
      simp [hni, hlt, BitVec.getLsbD]
    · simp [hni]
  · have hlt : x.toNat < 2 ^ n := x.isLt.trans_le (Nat.pow_le_pow_right (by omega) (by omega))
    have hle : 2 ^ 64 - 2 ^ n = 0 := Nat.sub_eq_zero_of_le (Nat.pow_le_pow_right (by omega) (by omega))
    rw [hle, Nat.div_eq_of_lt hlt]
    simp [bv]
/-! ### One step on a queue, by its header (R36 to R39, R44, R45) -/

variable {s u : State} {q : Nat} {ws : List Word} {h : QHead}

theorem State.enqStep_of_qhead (hq : s.qhead s.wave.core q = .ok u h) :
    s.enqStep q ws =
      if h.qerr != 0 then .ok u (.fail 0x14)
      else if !h.valid then u.latch q 0x10
      else if 8 ≤ u.wave.qdepth.toNat then u.latch q 0x11
      else if bits (ws.headD 0) 7 0 ≤ 1 || bits (ws.headD 0) 31 24 != 0 || h.kind == 1 then u.latch q 0x12
      else u.placeEntry q h ws := by
  simp only [State.enqStep, hq, Try.andThen]

/-- A queue in error fails every step (R45). -/
theorem State.queueStep_halted (hq : s.qhead s.wave.core q = .ok u h) (he : h.qerr ≠ 0) :
    s.enqStep q ws = .ok u (.fail 0x14) ∧ s.deqStep q = .ok u (.fail 0x14) := by
  simp [State.enqStep_of_qhead hq, State.deqStep, hq, Try.andThen, he]

/-- An invalid header halts the queue (R35, R45). -/
theorem State.queueStep_invalid (hq : s.qhead s.wave.core q = .ok u h) (he : h.qerr = 0) (hv : h.valid = false) :
    s.enqStep q ws = u.latch q 0x10 ∧ s.deqStep q = u.latch q 0x10 := by
  simp [State.enqStep_of_qhead hq, State.deqStep, hq, Try.andThen, he, hv]

/-- Word 0 of an entry by the bits of the word that ENQ was given (R37). -/
theorem entryWord0_eq (w0 : Word) (depth rsv : Nat) : entryWord0 w0 depth rsv =
    BitVec.ofNat 32 (w0.toNat / 2 ^ 16 % 256 * 2 ^ 16 + rsv * 2 ^ 12 + depth * 256 + w0.toNat % 256) := by
  simp [entryWord0, bits]

/-- Is word 0 one that ENQ refuses: kind 0 or 1, bits 31:24 not zero, or a queue of buckets (R38)? -/
theorem entry_refused_iff (w0 : Word) (h : QHead) : (bits w0 7 0 ≤ 1 || bits w0 31 24 != 0 || h.kind == 1) = true ↔
    w0.toNat % 256 ≤ 1 ∨ 2 ^ 24 ≤ w0.toNat ∨ h.kind = 1 := by
  have hw := w0.isLt
  have hhigh : w0.toNat / 2 ^ 24 % 256 ≠ 0 ↔ 2 ^ 24 ≤ w0.toNat := by omega
  simp only [bits, Nat.pow_zero, Nat.div_one, Bool.or_eq_true, decide_eq_true_eq, bne_iff_ne, beq_iff_eq, or_assoc]
  exact or_congr_right (or_congr_left hhigh)

/-- Stores an entry of the wave in focus, with this RSV, in a slot of its die's shard, and then writes `bs` at `at_` (R38). -/
def State.storeEntry (u : State) (h : QHead) (ws : List Word) (slot rsv at_ : Nat) (bs : List Byte) : Try QOut :=
  let w := u.wave
  (u.qwrite w.core (h.slot (dieOf w.core) slot)
    (entryBytes (entryWord0 (ws.headD 0) (w.qdepth.toNat + 1) rsv :: ws.drop 1))).andThen fun v a =>
      (v.qwrite w.core at_ bs).andThen fun v _ =>
        .ok { v.writeRel a.2 32 false [(4, w.hb)] with wave := v.wave.tick } .stored

/-- ENQ stores at the tail of its die's ring, where that is full in the reserved slot of its depth, and else waits (R38). -/
theorem State.placeEntry_eq : u.placeEntry q h ws =
    let d := dieOf u.wave.core
    let depth := u.wave.qdepth.toNat + 1
    if h.count d < h.ring then
      u.storeEntry h ws (8 + h.tail d % h.ring) 0 (q + 72 + 64 * d) (toBytes (h.tail d + 1) 8)
    else if !nbit (h.mask d) (depth - 1) then
      u.storeEntry h ws (depth - 1) depth (q + 80 + 64 * d) (toBytes (h.mask d + 2 ^ (depth - 1)) 1)
    else .ok u .wait := by
  simp only [State.placeEntry, State.storeEntry, State.writeRel_wave]

/-- An entry of depth 8 is refused (R38). -/
theorem State.enqStep_deep (hq : s.qhead s.wave.core q = .ok u h) (he : h.qerr = 0) (hv : h.valid = true)
    (hd : 8 ≤ u.wave.qdepth.toNat) : s.enqStep q ws = u.latch q 0x11 := by
  simp [State.enqStep_of_qhead hq, he, hv, hd]

/-- A bad entry is refused (R38). -/
theorem State.enqStep_refused (hq : s.qhead s.wave.core q = .ok u h) (he : h.qerr = 0) (hv : h.valid = true)
    (hd : u.wave.qdepth.toNat < 8) (hw : (ws.headD 0).toNat % 256 ≤ 1 ∨ 2 ^ 24 ≤ (ws.headD 0).toNat ∨ h.kind = 1) :
    s.enqStep q ws = u.latch q 0x12 := by
  rw [State.enqStep_of_qhead hq, if_pos ((entry_refused_iff _ h).mpr hw)]
  simp [he, hv, Nat.not_le.mpr hd]

/-- A good entry is placed. -/
theorem State.enqStep_good (hq : s.qhead s.wave.core q = .ok u h) (he : h.qerr = 0) (hv : h.valid = true)
    (hd : u.wave.qdepth.toNat < 8) (hkind : 2 ≤ (ws.headD 0).toNat % 256) (hhigh : (ws.headD 0).toNat < 2 ^ 24) (hk : h.kind = 0) :
    s.enqStep q ws = u.placeEntry q h ws := by
  have hgood := mt (entry_refused_iff (ws.headD 0) h).mp (by omega)
  rw [State.enqStep_of_qhead hq, if_neg hgood]
  simp [he, hv, Nat.not_le.mpr hd]

/-- DEQ on a queue in order looks at the reserved entries of its die first, then at its ring (R39). -/
theorem State.deqStep_reserved {j : Nat} (hq : s.qhead s.wave.core q = .ok u h) (he : h.qerr = 0) (hv : h.valid = true)
    (hj : highBit (BitVec.ofNat 8 (h.mask (dieOf u.wave.core))) = some j) :
    s.deqStep q = u.takeSlot q h (dieOf u.wave.core) j (j + 1) (q + 80 + 64 * dieOf u.wave.core)
      (toBytes (h.mask (dieOf u.wave.core) - 2 ^ j) 1) := by
  simp [State.deqStep, hq, Try.andThen, he, hv, hj]

theorem State.deqStep_ring (hq : s.qhead s.wave.core q = .ok u h) (he : h.qerr = 0) (hv : h.valid = true)
    (hm : h.mask (dieOf u.wave.core) = 0) (hc : h.count (dieOf u.wave.core) ≠ 0) :
    s.deqStep q = u.takeSlot q h (dieOf u.wave.core) (8 + h.head (dieOf u.wave.core) % h.ring) 0 (q + 64 + 64 * dieOf u.wave.core)
      (toBytes (h.head (dieOf u.wave.core) + 1) 8) := by
  have hnone : highBit (BitVec.ofNat 8 0) = none := rfl
  simp [State.deqStep, hq, Try.andThen, he, hv, hm, hc, hnone]

/-- An empty shard: DEQ ends where the queue is closed and all of it empty, and else waits (R39). -/
theorem State.deqStep_empty (hq : s.qhead s.wave.core q = .ok u h) (he : h.qerr = 0) (hv : h.valid = true)
    (hm : h.mask (dieOf u.wave.core) = 0) (hc : h.count (dieOf u.wave.core) = 0) :
    s.deqStep q = .ok u (if h.close && (List.range 4).all h.empty then .closed else .wait) := by
  have hnone : highBit (BitVec.ofNat 8 0) = none := rfl
  simp only [State.deqStep, hq, Try.andThen, he, hv, hm, hc, hnone, bne_self_eq_false, Bool.not_true, Bool.false_eq_true, if_false]
  split <;> rfl

/-- One step on a queue whose header reads as `h`, in each case of the header and the entry. -/
theorem queueSteps : QueueSteps := by
  intro s u q ws h w die w0 depth shard slot entry stores reserved hq hw
  have hentry (rsv : Nat) : entryBytes (entryWord0 (ws.headD 0) depth rsv :: ws.drop 1) = entry rsv := by
    rw [entryWord0_eq]; rfl
  have hstores (i rsv at_ : Nat) (bs : List Byte) : u.storeEntry h ws i rsv at_ bs = stores i rsv at_ bs := by
    show (u.qwrite w.core (slot i) (entryBytes (entryWord0 (ws.headD 0) depth rsv :: ws.drop 1))).andThen _ = _
    rw [hentry]
  refine ⟨State.queueStep_halted hq, State.queueStep_invalid hq, fun he hv => ⟨State.enqStep_deep hq he hv,
    State.enqStep_refused hq he hv, fun hd hkind hhigh hk _ => ?_, fun j hj hmax _ => ?_, State.deqStep_ring hq he hv,
    State.deqStep_empty hq he hv⟩⟩
  · have hplace := (State.enqStep_good hq he hv hd hkind hhigh hk).trans State.placeEntry_eq
    refine ⟨fun hroom => ?_, fun hfull hfree => ?_, fun hfull htaken => ?_⟩
    · rw [hplace, ← hstores]
      exact if_pos hroom
    · rw [hplace, ← hstores]
      exact (if_neg (Nat.not_lt.mpr hfull)).trans (if_pos (congrArg not hfree))
    · rw [hplace]
      exact (if_neg (Nat.not_lt.mpr hfull)).trans (if_neg (Bool.not_eq_true _ ▸ congrArg not htaken))
  · have hj : j < 8 ∧ nbit (h.mask die) j = true := by simpa [reserved] using hj
    refine State.deqStep_reserved hq he hv (highBit_eq_some hj.1 ?_ fun k hk hbit => hmax k ?_)
    · rw [getLsbD_ofNat_eq_nbit _ hj.1]; exact hj.2
    · rw [getLsbD_ofNat_eq_nbit _ hk] at hbit
      simpa [reserved] using ⟨hk, hbit⟩

/-! ### FETCHW (R34) -/

theorem exec_fetchw (f : K32) (s : State) : exec (.fetchw f) s = execFetchw f s := rfl
theorem exec_enq (f : M64) (s : State) : exec (.enq f) s = execEnq f s := rfl
theorem exec_deq (f : M64) (s : State) : exec (.deq f) s = execDeq f s := rfl

/-- An instruction that can issue has its effect. -/
theorem run_of_ready {i : Instr} (h : Ready i s) (eff : State → Act) : run i s eff = settleNew s i (eff s) := by
  obtain ⟨hheld, -, hcheck, hact, hfull, hbad⟩ := h
  exact run_ready hheld hcheck hact hfull (badRead_sound hbad i) eff

/-- WID with the fields of the launch replaced by the coordinates of index `i` (R34). -/
theorem fetchw_wid (la : Launch) (i : Nat) :
    la.widbase &&& bv (2 ^ 64 - 2 ^ fieldBits la.widfmt) ||| bv (packIndex i la.widfmt la.ext) =
      BitVec.ofNat 64 (la.widbase.toNat / 2 ^ fieldBits la.widfmt * 2 ^ fieldBits la.widfmt ||| packIndex i la.widfmt la.ext) := by
  rw [and_keepMask, bv, BitVec.ofNat_or]

variable {f : M64} {g : K32}

theorem exec_fetchw_undispensed (hr : Ready (.fetchw g) s) (hd : s.myLaunch.disp = none) :
    exec (.fetchw g) s = .next (s.faultAt 0x12 0x15 0) := by
  simp only [exec_fetchw, execFetchw, run_of_ready hr, hd, Option.isNone_none, if_true]
  rfl

theorem exec_fetchw_out (hr : Ready (.fetchw g) s) (hd : s.myLaunch.disp ≠ none) (hi : s.myLaunch.dispN ≤ s.myLaunch.dispNext) :
    exec (.fetchw g) s = .next (after s 4 { s.wave with scc := false }) := by
  simp only [exec_fetchw, execFetchw, run_of_ready hr, Option.isNone_iff_eq_none, hd, if_false, Nat.not_lt.mpr hi]
  rfl

theorem exec_fetchw_index (hr : Ready (.fetchw g) s) (hd : s.myLaunch.disp ≠ none) (hi : s.myLaunch.dispNext < s.myLaunch.dispN) :
    exec (.fetchw g) s = .next (after
      { s with launches := tset s.launches s.wave.launch { s.myLaunch with dispNext := s.myLaunch.dispNext + 1 } } 4
      { s.wave with
        s := cset s.wave.s g.d.toNat (BitVec.ofNat 32 s.myLaunch.dispNext), scc := true,
        wid := s.myLaunch.widbase &&& bv (2 ^ 64 - 2 ^ fieldBits s.myLaunch.widfmt) |||
          bv (packIndex s.myLaunch.dispNext s.myLaunch.widfmt s.myLaunch.ext) }) := by
  simp only [exec_fetchw, execFetchw, run_of_ready hr, Option.isNone_iff_eq_none, hd, if_false, hi, if_true]
  rfl

/-! ### ENQ and DEQ (R38 to R40, R286) -/

/-- The address of a header that may be read and written is passed on. -/
theorem State.queueAt_open {va : Nat} {v : State} {x : TransReg} {o : Nat} (hva : va = address (s.wave.treg f.tr.toNat) (uniform s.wave f))
    (hvalid : (s.wave.treg f.tr.toNat).valid = true) (halign : va % 64 = 0) (hlt : va < 2 ^ 52)
    (hpage : s.unitPage (s.wave.treg f.tr.toNat) (uniform s.wave f)
      (fun x => if x.perm.getLsbD 0 && x.perm.getLsbD 1 then none else some (8, 2)) = .page v x o) (k : DWord → Act) :
    s.queueAt f k = k (BitVec.ofNat 64 va) := by
  have haddr : (s.wave.treg f.tr.toNat).addr (s.wave.uniOff f) = va := hva.symm
  have hneed : (fun x : TransReg => (needRW x).map fun d => (8, d)) =
      fun x => if x.perm.getLsbD 0 && x.perm.getLsbD 1 then none else some (8, 2) := by
    funext x
    unfold needRW
    split <;> rfl
  have hzero : va / 2 ^ 52 = 0 := Nat.div_eq_of_lt hlt
  simp only [State.queueAt, hvalid, haddr, halign, hzero, hneed, Bool.not_true, Bool.false_eq_true, if_false, bne_self_eq_false]
  rw [show s.wave.uniOff f = uniform s.wave f from rfl, hpage]
  rfl

/-- The wave with the words of an entry that it has taken, from s[d] on (R39, R286). -/
def Wave.took (w : Wave) (d : Nat) (ws : List Word) : Wave :=
  { w with s := csetList w.s d ws, scc := true, qdepth := BitVec.ofNat 32 (bits (ws.headD 0) 11 8) }

/-- Words that land from s[d + k] on, one by one, are written as a list. -/
theorem landAll_sregs (ws : List Word) : ∀ (t : State) (d k : Nat),
    landAll t ((ws.zipIdx k).map fun x => .sreg (d + x.2) x.1) =
      { t with wave := { t.wave with s := csetList t.wave.s (d + k) ws } } := by
  induction ws with
  | nil => exact fun _ _ _ => rfl
  | cons x ws ih => exact fun t d k => ih (landOne t (.sreg (d + k) x)) d (k + 1)

/-- A wave that nothing holds takes an entry at once. -/
theorem State.give_deqWrites {t : State} (ht : t.wave.held = none) (d : Nat) (ws : List Word) :
    t.give (deqWrites d ws) = { t with wave := t.wave.took d ws } := by
  have hdepth (n : Nat) : lo32 (BitVec.ofNat 64 n) = BitVec.ofNat 32 n := BitVec.setWidth_ofNat_of_le (by omega) n
  have hwords := landAll_sregs ws t d 0
  simp only [landAll] at hwords
  simp only [State.give, ht, Option.isNone_none, if_true, deqWrites, landAll, List.foldl_append, hwords, List.foldl_cons,
    List.foldl_nil, landOne, landWave, Wave.setSpecial, hdepth, Wave.took, Nat.add_zero]

theorem State.give_scc {t : State} (ht : t.wave.held = none) (b : Bool) :
    t.give [.scc b] = { t with wave := { t.wave with scc := b } } := by
  simp [State.give, ht, landAll, landOne, landWave]

@[simp] theorem State.unpark_wave (t : State) (q : DWord) : (t.unpark q).wave = t.wave := by
  unfold State.unpark; split <;> rfl

@[simp] theorem State.unpark_clock (t : State) (q : DWord) : (t.unpark q).clock = t.clock := by
  unfold State.unpark; split <;> rfl

/-- The wave in focus waits in a queue's order with this hold (R40). -/
def State.waitIn (s : State) (h : Hold) : State :=
  { s with fresh := s.fresh + 1, wave := { s.wave with hold := h, lastIssue := s.clock + 1 } }

/-- An instruction whose wave waits in order, and is not inside it, has only been entered there. -/
theorem settleNew_waitIn {h : Hold} (hin : h.inside = false) (hgo : h.goesOn = false) (i : Instr) :
    settleNew s i (.stay (s.waitIn h)) = s.waitIn h := by
  simp [settleNew, State.holdOn, State.waitIn, hin, hgo]

/-! What an instruction makes of the outcome of its step on the queue. -/

section
variable {i : Instr} {qa : DWord} {d : Nat} {hold : Hold} {t : State}

theorem settleNew_stored (hc : t.clock = s.clock) :
    settleNew s i (s.queueAct qa d hold (.ok t .stored)) = after (t.unpark qa) (insLen i) t.wave := by
  simp only [State.queueAct, settleNew, settle, after, State.unpark_wave, State.unpark_clock, hc]

theorem settleNew_took {ws : List Word} (hc : t.clock = s.clock) (hh : t.wave.held = none) :
    settleNew s i (s.queueAct qa d hold (.ok t (.took ws))) = after t (insLen i) (t.wave.took d ws) := by
  simp only [State.queueAct, settleNew, settle, after, State.give_deqWrites hh, hc]

theorem settleNew_closed (hc : t.clock = s.clock) (hh : t.wave.held = none) :
    settleNew s i (s.queueAct qa d hold (.ok t .closed)) = after t (insLen i) { t.wave with scc := false } := by
  simp only [State.queueAct, settleNew, settle, after, State.give_scc hh, hc]

theorem settleNew_wait (hin : hold.inside = false) (hgo : hold.goesOn = false) :
    settleNew s i (s.queueAct qa d hold (.ok t .wait)) = s.waitIn hold := settleNew_waitIn hin hgo i

theorem settleNew_fail {code : Nat} :
    settleNew s i (s.queueAct qa d hold (.ok t (.fail code))) = t.faultAt 0x12 code qa := rfl

end

/-! What ENQ and DEQ come to where `qa` is the address of a header that they may read and write. -/

section
variable {qa : DWord} (hopen : ∀ k, s.queueAt f k = k qa)
include hopen

/-- ENQ is held until the wave's earlier accesses are performed: it is a release (R38, R354). -/
theorem exec_enq_early (hr : Ready (.enq f) s) (hacc : s.accessesDone s.fresh = false) (hdrop : s.wave.dropped = []) :
    exec (.enq f) s = .next (heldAt s (.enq f) { s with wave := { s.wave with hold := .pipeline } }) := by
  simp only [exec_enq, execEnq, run_of_ready hr, hopen, hacc, Bool.not_false, if_true, State.hold, hdrop, List.isEmpty_nil]
  rfl

/-- ENQ waits behind those that wait on its shard (R40). -/
theorem exec_enq_behind (hr : Ready (.enq f) s) (hacc : s.accessesDone s.fresh = true) (hw : s.enqWaiters qa (dieOf s.wave.core) ≠ []) :
    exec (.enq f) s = .next (s.waitIn (.enq qa s.fresh ((List.range 8).map fun k => cget s.wave.s (f.d.toNat + k)))) := by
  simp only [exec_enq, execEnq, run_of_ready hr, hopen, hacc, Bool.not_true, Bool.false_eq_true, if_false, List.isEmpty_iff, hw]
  exact congrArg _ (settleNew_waitIn (h := .enq qa s.fresh _) rfl rfl _)

/-- Otherwise ENQ makes its step on the queue. -/
theorem exec_enq_step (hr : Ready (.enq f) s) (hacc : s.accessesDone s.fresh = true) (hw : s.enqWaiters qa (dieOf s.wave.core) = []) :
    let words := (List.range 8).map fun k => cget s.wave.s (f.d.toNat + k)
    exec (.enq f) s =
      .next (settleNew s (.enq f) (s.queueAct qa 0 (.enq qa s.fresh words) (s.enqStep qa.toNat words))) := by
  simp only [exec_enq, execEnq, run_of_ready hr, hopen, hacc, Bool.not_true, Bool.false_eq_true, if_false, List.isEmpty_iff, hw,
    if_true]
  rfl

/-- DEQ waits behind those that wait on its die (R40). -/
theorem exec_deq_behind (hr : Ready (.deq f) s) (hw : s.deqWaiters qa (dieOf s.wave.core) ≠ []) :
    exec (.deq f) s = .next (s.waitIn (.deq qa s.fresh f.d.toNat)) := by
  simp only [exec_deq, execDeq, run_of_ready hr, hopen, List.isEmpty_iff, hw, if_false]
  exact congrArg _ (settleNew_waitIn (h := .deq qa s.fresh _) rfl rfl _)

/-- Otherwise DEQ makes its step on the queue. -/
theorem exec_deq_step (hr : Ready (.deq f) s) (hw : s.deqWaiters qa (dieOf s.wave.core) = []) :
    exec (.deq f) s = .next (settleNew s (.deq f)
      (s.queueAct qa f.d.toNat (.deq qa s.fresh f.d.toNat) (s.deqStep qa.toNat))) := by
  simp only [exec_deq, execDeq, run_of_ready hr, hopen, List.isEmpty_iff, hw, if_true]
  rfl

end

/-! ### The statement -/

/-- FETCHW, ENQ and DEQ, in each case of the dispenser, the waiters and the step on the queue. -/
theorem queueInstructionResults : QueueInstructionResults := by
  intro s f g w la i fields t va q words die access open_ waits given next
  have hopen (ho : open_) : (∀ k, s.queueAt f k = k q) ∧ q.toNat = va := by
    obtain ⟨hvalid, halign, hlt, u, x, o, hpage⟩ := ho
    exact ⟨State.queueAt_open rfl hvalid halign hlt hpage,
      Nat.mod_eq_of_lt (hlt.trans (by decide))⟩
  refine ⟨exec_fetchw_undispensed, exec_fetchw_out, fun hr hd hi => ⟨_, exec_fetchw_index hr hd hi, fetchw_wid la i⟩,
    fun ho hr hacc hdrop => exec_enq_early (hopen ho).1 hr hacc hdrop,
    fun ho hr hacc => ⟨exec_enq_behind (hopen ho).1 hr hacc, fun hw u => ?_⟩,
    fun ho hr => ⟨exec_deq_behind (hopen ho).1 hr, fun hw u => ?_⟩⟩
  · obtain ⟨hq, hva⟩ := hopen ho
    have hstep := exec_enq_step hq hr hacc hw
    rw [hva] at hstep
    refine ⟨fun h => ?_, fun h => ?_, fun code h => ?_⟩
    · have hc : u.clock = s.clock := (State.enqStep_keepsClock s va words).of_ok h nofun
      exact hstep.trans (by rw [h, settleNew_stored hc]; rfl)
    · exact hstep.trans (by rw [h, settleNew_wait rfl rfl]; rfl)
    · exact hstep.trans (by rw [h, settleNew_fail])
  · obtain ⟨hq, hva⟩ := hopen ho
    have hstep := exec_deq_step hq hr hw
    rw [hva] at hstep
    refine ⟨fun ws _ h hheld => ?_, fun h hheld => ?_, fun h => ?_, fun code h => ?_⟩
    · have hc : u.clock = s.clock := (State.deqStep_keepsClock s va).of_ok h nofun
      exact hstep.trans (by rw [h, settleNew_took hc hheld]; rfl)
    · have hc : u.clock = s.clock := (State.deqStep_keepsClock s va).of_ok h nofun
      exact hstep.trans (by rw [h, settleNew_closed hc hheld]; rfl)
    · exact hstep.trans (by rw [h, settleNew_wait rfl rfl]; rfl)
    · exact hstep.trans (by rw [h, settleNew_fail])

/-- Settles O54: the outcomes of the instructions and those of one step on a queue. -/
theorem taskQueues : Obligations.TaskQueues := ⟨queueInstructionResults, queueSteps⟩

end Sys2Proof.Machine
end

section
/-! PROOF. The queue unit (R40, R41, R45, R47, R59 to R61): a waiter served by its step on the queue, the victim of a steal, the steal,
the overflow entries that are owed; together they settle O22. -/

namespace Sys2Proof.Machine

open Sys2Proof.Claims

variable {s t u : State} {q : DWord} {n d : Nat} {ws : List Word} {h : QHead}

/-! ### A waiter served (R40) -/

/-- A wave that waits with DEQ is served as its step on the queue comes out. -/
theorem State.serve_deq {r : Try QOut} (hold : s.wave.hold = .deq q n d) (hstep : s.deqStep q.toNat = r) :
    s.serve s.wave.core s.wave.slot = s.qfinish q d r := by
  simp only [State.serve, State.focus_self, hold, hstep]

theorem State.serve_enq {r : Try QOut} (hold : s.wave.hold = .enq q n ws) (hstep : s.enqStep q.toNat ws = r) :
    s.serve s.wave.core s.wave.slot = s.qfinish q 0 r := by
  simp only [State.serve, State.focus_self, hold, hstep]

/-- The instruction of a held wave that has taken an entry is past. -/
theorem State.qfinish_took (hh : t.wave.held = none) :
    s.qfinish q d (.ok t (.took ws)) = State.pass { t with wave := t.wave.took d ws } := by
  rw [State.qfinish, State.give_deqWrites hh]

/-! ### The unit's events (R40, R41, R45) -/

theorem exec_bucketFill (q : DWord) (shard : Nat) (tail : DWord) (s : State) :
    exec (.bucketFill q shard tail) s = execBucketFill q shard tail s := rfl
theorem exec_queueCloseWake (q : DWord) (s : State) : exec (.queueCloseWake q) s = execQueueCloseWake q s := rfl
theorem exec_queueHeaderRevalidate (q : DWord) (s : State) :
    exec (.queueHeaderRevalidate q) s = execQueueHeaderRevalidate q s := rfl
theorem exec_queueWaiterServe (q : DWord) (shard : Nat) (s : State) :
    exec (.queueWaiterServe q shard) s = execQueueWaiterServe q shard s := rfl
theorem exec_stealOptimistic (q : DWord) (die : Nat) (s : State) : exec (.stealOptimistic q die) s = .next (s.steal q die false) := rfl
theorem exec_stealLocked (q : DWord) (die : Nat) (s : State) : exec (.stealLocked q die) s = .next (s.steal q die true) := rfl
theorem exec_evconsWrite (value : Word) (s : State) : exec (.evconsWrite value) s = execEvconsWrite value s := rfl

/-- A fill raises TAIL of a shard with one store of the host, and every die may attempt a steal again (R41, R59). -/
theorem exec_bucketFill_mapped {shard pa : Nat} {tail : DWord} (hpa : s.physOf (q.toNat + 72 + 64 * (shard % 4)) = some pa) :
    exec (.bucketFill q shard tail) s =
      .next (((s.physWrite pa (toBytes tail.toNat 8)).writeRel (s.devAt pa).2 8 false [(5, s.hbHost)]).unpark q) := by
  simp only [exec_bucketFill, execBucketFill, hpa, ok]

/-- CLOSE serves the DEQs that wait (R39, R41). -/
theorem exec_queueCloseWake_read (hq : s.qhead 0 q.toNat = .ok u h) : exec (.queueCloseWake q) s =
    .next (if h.close = true then (s.waiters fun v => v.deqSince q).foldl (fun t x => t.serve x.1 x.2) s else s) := by
  simp only [exec_queueCloseWake, execQueueCloseWake, hq, State.serveEach, ok]

/-- A header that is invalid or in error serves every waiter (R40, R45). -/
theorem exec_queueHeaderRevalidate_read (hq : s.qhead 0 q.toNat = .ok u h) : exec (.queueHeaderRevalidate q) s =
    .next (if h.qerr ≠ 0 ∨ h.valid = false then (s.queueWaiters q).foldl (fun t x => t.serve x.1 x.2) s else s) := by
  simp only [exec_queueHeaderRevalidate, execQueueHeaderRevalidate, hq, State.serveEach, ok, Bool.or_eq_true, bne_iff_ne,
    Bool.not_eq_true']

/-- With no ENQ that waits, the oldest DEQ of the die is served (R40). -/
theorem exec_queueWaiterServe_deq {die c sl : Nat} {l : List (Nat × Nat)} (he : s.enqWaiters q die = [])
    (hd : s.deqWaiters q die = (c, sl) :: l) : exec (.queueWaiterServe q die) s = .next (s.serve c sl) := by
  simp only [exec_queueWaiterServe, execQueueWaiterServe, he, State.serveFirst, Bool.false_eq_true, if_false, hd, ok]

/-- The oldest ENQ of a shard is served, and once it waits no longer every die may attempt a steal again (R40, R59). -/
theorem exec_queueWaiterServe_enq {die c sl : Nat} {l : List (Nat × Nat)} (he : s.enqWaiters q die = (c, sl) :: l)
    (hs : (s.serve c sl).stillWaits q c sl = false) (hd : ((s.serve c sl).unpark q).deqWaiters q die = []) :
    exec (.queueWaiterServe q die) s = .next ((s.serve c sl).unpark q) := by
  simp only [exec_queueWaiterServe, execQueueWaiterServe, he, State.serveFirst, hs, Bool.false_eq_true, if_false, if_true, hd, ok]

/-! ### The victim (R60) -/

section
variable {c : Nat → Nat} {thief r k n : Nat} {best : Option Nat}

/-- May a die be robbed by the thief: another one, with a count of two or more? -/
def Robbable (c : Nat → Nat) (thief v : Nat) : Prop := v ≠ thief ∧ 2 ≤ c v

/-- The choice among the first `n` dies from the rotor `r` on: the fullest that may be robbed, the first of equals. -/
def BestOf (c : Nat → Nat) (thief r n : Nat) : Option Nat → Prop
  | none => ∀ k < n, ¬Robbable c thief ((r + k) % 4)
  | some v => ∃ j < n, v = (r + j) % 4 ∧ Robbable c thief v ∧
      ∀ k < n, Robbable c thief ((r + k) % 4) → c ((r + k) % 4) < c v ∨ (c ((r + k) % 4) = c v ∧ j ≤ k)

/-- The die at place `k` from the rotor on is compared with the best so far. -/
def stepVictim (c : Nat → Nat) (thief r : Nat) (best : Option Nat) (k : Nat) : Option Nat :=
  let v := (r + k) % 4
  if v == thief || c v < 2 then best
  else
    match best with
    | none => some v
    | some b => if c b < c v then some v else best

theorem stepVictim_skips (h : ¬Robbable c thief ((r + k) % 4)) : stepVictim c thief r best k = best := by
  have : (r + k) % 4 = thief ∨ c ((r + k) % 4) < 2 := by unfold Robbable at h; omega
  simp only [stepVictim, Bool.or_eq_true, beq_iff_eq, decide_eq_true_eq, this, if_true]

theorem stepVictim_first (h : Robbable c thief ((r + k) % 4)) : stepVictim c thief r none k = some ((r + k) % 4) := by
  simp [stepVictim, h.1, Nat.not_lt.mpr h.2]

theorem stepVictim_compares {b : Nat} (h : Robbable c thief ((r + k) % 4)) :
    stepVictim c thief r (some b) k = if c b < c ((r + k) % 4) then some ((r + k) % 4) else some b := by
  simp [stepVictim, h.1, Nat.not_lt.mpr h.2]

/-- Comparing one die more keeps the choice the best. -/
theorem bestOf_stepVictim (hb : BestOf c thief r n best) : BestOf c thief r (n + 1) (stepVictim c thief r best n) := by
  by_cases hrob : Robbable c thief ((r + n) % 4)
  · cases best with
    | none =>
      rw [stepVictim_first hrob]
      refine ⟨n, by omega, rfl, hrob, fun k hk hkr => ?_⟩
      obtain rfl : k = n := by
        by_contra hne
        exact hb k (by omega) hkr
      exact .inr ⟨rfl, Nat.le_refl _⟩
    | some b =>
      obtain ⟨j, hj, hbj, hbrob, hmax⟩ := hb
      rw [stepVictim_compares hrob]
      split
      case isTrue hlt =>
        refine ⟨n, by omega, rfl, hrob, fun k hk hkr => ?_⟩
        by_cases hkn : k = n
        · exact .inr ⟨by rw [hkn], by omega⟩
        · have := hmax k (by omega) hkr
          omega
      case isFalse hle =>
        refine ⟨j, by omega, hbj, hbrob, fun k hk hkr => ?_⟩
        by_cases hkn : k = n
        · subst hkn
          omega
        · exact hmax k (by omega) hkr
  · rw [stepVictim_skips hrob]
    cases best with
    | none =>
      intro k hk
      by_cases hkn : k = n
      · rwa [hkn]
      · exact hb k (by omega)
    | some b =>
      obtain ⟨j, hj, hbj, hbrob, hmax⟩ := hb
      refine ⟨j, by omega, hbj, hbrob, fun k hk hkr => hmax k ?_ hkr⟩
      have hne : k ≠ n := fun e => hrob (e ▸ hkr)
      omega

theorem bestOf_foldl (n : Nat) : BestOf c thief r n ((List.range n).foldl (stepVictim c thief r) none) := by
  induction n with
  | zero => exact fun k hk => absurd hk (Nat.not_lt_zero k)
  | succ n ih =>
    rw [List.range_succ, List.foldl_append]
    exact bestOf_stepVictim ih

end

/-- The victim is the best of the four dies from the rotor on (R60). -/
theorem victimOf_bestOf (counts : List Nat) (thief : Nat) (rotor : BitVec 2) :
    BestOf (fun v => counts.getD v 0) thief rotor.toNat 4 (victimOf counts thief rotor) := bestOf_foldl 4

/-- A victim may be robbed; no die that may be robbed is fuller, and none as full comes before it from the rotor on. -/
theorem victimOf_some {counts : List Nat} {thief v : Nat} {rotor : BitVec 2} (hv : victimOf counts thief rotor = some v) :
    (v < 4 ∧ v ≠ thief ∧ 2 ≤ counts.getD v 0) ∧ ∀ x, x < 4 ∧ x ≠ thief ∧ 2 ≤ counts.getD x 0 →
      counts.getD x 0 < counts.getD v 0 ∨
        (counts.getD x 0 = counts.getD v 0 ∧ (v + 4 - rotor.toNat) % 4 ≤ (x + 4 - rotor.toNat) % 4) := by
  have hbest := victimOf_bestOf counts thief rotor
  have hr := rotor.isLt
  rw [hv] at hbest
  obtain ⟨j, hj, hvj, hrob, hmax⟩ := hbest
  refine ⟨⟨by omega, hrob⟩, fun x hx => ?_⟩
  obtain ⟨hx4, hxrob⟩ := hx
  have hplace : (rotor.toNat + (x + 4 - rotor.toNat) % 4) % 4 = x := by omega
  have := hmax ((x + 4 - rotor.toNat) % 4) (by omega) (hplace.symm ▸ hxrob)
  rw [hplace] at this
  have hfar : (v + 4 - rotor.toNat) % 4 = j := by omega
  rwa [hfar]

/-- Without a victim no die may be robbed. -/
theorem victimOf_none {counts : List Nat} {thief : Nat} {rotor : BitVec 2} (hv : victimOf counts thief rotor = none) (v : Nat) :
    ¬(v < 4 ∧ v ≠ thief ∧ 2 ≤ counts.getD v 0) := by
  rintro ⟨hv4, hrob⟩
  have hbest := victimOf_bestOf counts thief rotor
  have hr := rotor.isLt
  rw [hv] at hbest
  have hplace : (rotor.toNat + (v + 4 - rotor.toNat) % 4) % 4 = v := by omega
  exact hbest ((v + 4 - rotor.toNat) % 4) (by omega) (hplace.symm ▸ hrob)

/-! ### A steal (R59 to R61) -/

/-- A die may attempt a steal for the wave in focus, its oldest DEQ: the header `h` read in `u` is in order, the die's shard empty, its
attempt of this kind is due, and the counts are seen as they are. -/
def State.MaySteal (s u : State) (q : DWord) (h : QHead) (die : Nat) (locked : Bool) : Prop :=
  let x := s.qunit q
  (∃ l, s.deqWaiters q die = (s.wave.core, s.wave.slot) :: l) ∧ s.qhead s.wave.core q.toNat = .ok u h ∧ h.qerr = 0 ∧ h.valid = true ∧
    h.empty die = true ∧ die ∉ x.parked ∧ x.locked.contains die = locked ∧ (locked = true ∨ x.mirror = [])

/-- What an attempt that finds no victim leaves: the next one is locked, and after a locked one the die is parked (R61). -/
def State.stealFailed (s : State) (q : DWord) (h : QHead) (die : Nat) (locked : Bool) : State :=
  s.bump.setQunit q { s.qunit q with
    mirror := (List.range 4).map h.count,
    locked := if locked then sdel (s.qunit q).locked die else sput (s.qunit q).locked die,
    parked := if locked then sput (s.qunit q).parked die else (s.qunit q).parked }

variable {die : Nat} {locked : Bool}

theorem State.steal_no_waiter (hw : s.deqWaiters q die = []) : s.steal q die locked = s := by
  unfold State.steal
  rw [hw]

/-- The conditions of an attempt, as the unit tests them, hold. -/
theorem State.MaySteal.tests (hm : s.MaySteal u q h die locked) :
    (h.qerr != 0 || !h.valid || !h.empty die || (s.qunit q).parked.contains die ||
      (s.qunit q).locked.contains die != locked) = false ∧
    ∀ (m : List Nat) (b : Bool), (!locked && (s.qunit q).mirror.length == 4 && (s.qunit q).mirror != m && b) = false := by
  obtain ⟨-, -, herr, hvalid, hempty, hpark, hlock, hseen⟩ := hm
  refine ⟨?_, fun m b => ?_⟩
  · simp only [herr, hvalid, hempty, hlock, bne_self_eq_false, Bool.not_true, Bool.or_false, List.contains_eq_mem, hpark,
      decide_false]
  · rcases hseen with hl | hmir
    · simp [hl]
    · simp [hmir]

/-- Without a victim an attempt fails. -/
theorem State.steal_no_victim (hm : s.MaySteal u q h die locked)
    (hv : victimOf ((List.range 4).map h.count) die (s.qunit q).rotor = none) : s.steal q die locked = s.stealFailed q h die locked := by
  obtain ⟨hguard, hnow⟩ := hm.tests
  obtain ⟨⟨l, hwait⟩, hq, -⟩ := hm
  unfold State.steal
  generalize State.stealFrom = steals
  simp only [hwait, State.focus_self, hq, hguard, hnow, Bool.false_eq_true, if_false, hv]
  rfl

/-- An attempt with a victim takes the entry at its tail for the wave in focus, and the rotor moves on (R60). -/
theorem State.steal_victim {v : Nat} (hm : s.MaySteal u q h die locked) (hold : s.wave.hold = .deq q n d)
    (hv : victimOf ((List.range 4).map h.count) die (s.qunit q).rotor = some v) (hcount : 2 ≤ h.count v)
    (hfrom : u.stealFrom q.toNat h v = .ok t (.took ws)) :
    s.steal q die locked = (s.qfinish q d (.ok t (.took ws))).bump.setQunit q { s.qunit q with
      mirror := (List.range 4).map h.count, rotor := (s.qunit q).rotor + 1, locked := sdel (s.qunit q).locked die } := by
  obtain ⟨hguard, hnow⟩ := hm.tests
  obtain ⟨⟨l, hwait⟩, hq, -⟩ := hm
  unfold State.steal
  generalize State.stealFrom = steals at hfrom
  simp only [hwait, State.focus_self, hq, hguard, hnow, Bool.false_eq_true, if_false, hv, Nat.not_lt.mpr hcount, hold, hfrom]

/-- The count that a thief sees of one of the four shards. -/
theorem QHead.counts_getD (h : QHead) {v : Nat} (hv : v < 4) : ((List.range 4).map h.count).getD v 0 = h.count v := by
  simp [hv]

/-! ### The overflow entries that are owed (R47) -/

@[simp] theorem State.askHost_owed (s : State) (line : Nat) : (s.askHost line).owed = s.owed := by
  unfold State.askHost; split <;> rfl

@[simp] theorem State.callBack_owed (s : State) (line : Nat) : (s.callBack line).owed = s.owed := by
  unfold State.callBack
  split
  · rfl
  · dsimp only
    split <;> rfl

@[simp] theorem State.putLine_owed (s : State) (who : Option Nat) (key : Nat) (bs : List Byte) :
    (s.putLine who key bs).owed = s.owed := by
  cases who <;> rfl

@[simp] theorem State.replicate_owed (s : State) (owner : Option Nat) (r : TransReg) (key : Nat) (bs : List Byte) :
    (s.replicate owner r key bs).owed = s.owed := by
  unfold State.replicate
  extract_lets others
  split <;> rfl

@[simp] theorem State.hostPut_owed (s : State) (pa : Nat) (bs : List Byte) : (s.hostPut pa bs).owed = s.owed :=
  State.foldl_keeps State.owed (fun s h => by dsimp only; split <;> rfl) _ _

@[simp] theorem State.askHalves_owed (s : State) (hs : List Nat) (wr : Bool) : (s.askHalves hs wr).owed = s.owed := by
  unfold State.askHalves
  apply State.foldl_keeps State.owed
  intros
  rfl

@[simp] theorem State.devPut_owed (s : State) (pa : Nat) (bs : List Byte) : (s.devPut pa bs).owed = s.owed := by
  unfold State.devPut
  split
  · rfl
  · split
    · exact State.hostPut_owed s pa bs
    · dsimp only
      split
      · rfl
      · split
        · exact State.replicate_owed ..
        · split
          · exact State.putLine_owed ..
          · exact State.callBack_owed (s.markRec _ true) _

@[simp] theorem State.wantFor_owed (s : State) (host : Bool) (pa n : Nat) : (s.wantFor host pa n).owed = s.owed := by
  unfold State.wantFor
  dsimp only
  split
  · exact State.askHalves_owed ..
  · split
    · exact State.askHost_owed ..
    · rfl

@[simp] theorem State.putOrWait_owed (s : State) (host : Bool) (pa : Nat) (bs : List Byte) :
    (s.putOrWait host pa bs).owed = s.owed := by
  unfold State.putOrWait
  split
  · exact State.wantFor_owed ..
  · exact State.devPut_owed ..

theorem State.physWriteGo_owed (host : Bool) (fuel : Nat) : ∀ (s : State) (pa : Nat) (bs : List Byte),
    (s.physWriteGo host pa bs fuel).owed = s.owed := by
  induction fuel with
  | zero => exact fun _ _ _ => rfl
  | succ fuel ih =>
    intro s pa bs
    unfold State.physWriteGo
    split
    · rfl
    · exact (ih _ _ _).trans (State.putOrWait_owed ..)

/-- An entry written into the event ring leaves what is owed. -/
@[simp] theorem State.putEvent_owed (s : State) (bs : List Byte) : (s.putEvent bs).owed = s.owed :=
  State.physWriteGo_owed false _ s _ bs

/-- With one source that is owed an entry, it is the order (R47). -/
theorem State.owedOrder_single {src : Nat} (h : s.owed = [src]) : s.owedOrder = [src] := by
  have hstreams : ∀ src < 16, (List.range 16).filter (fun n => [src].contains n) = [src] := by decide
  by_cases hs : src < 16
  · simp only [State.owedOrder, h, hstreams src hs]
    simp [hs]
  · have hnone : (List.range 16).filter (fun n => [src].contains n) = [] := by
      simp only [List.filter_eq_nil_iff, List.mem_range, List.contains_eq_mem, List.mem_singleton, decide_eq_true_eq]
      omega
    simp only [State.owedOrder, h, hnone]
    simp [Nat.not_lt.mp hs]

theorem State.payOwed_nil (h : s.owed = []) : s.payOwed = s := by
  have horder : s.owedOrder = [] := by simp [State.owedOrder, h]
  simp only [State.payOwed, horder, List.foldl_nil]

/-- The entry that is owed to one source is written where the ring has room and its count is known (R47). -/
theorem State.payOwed_single {src n : Nat} (h : s.owed = [src]) (hroom : ringRoom s.mgmt.evsize s.mgmt.evprod s.mgmt.evcons = true)
    (hsettled : s.lostSettled src = true) (hcount : s.lostCount src = some n) :
    s.payOwed = { s.putEvent (overflowEntry src n) with owed := [] } := by
  simp only [State.payOwed, State.owedOrder_single h, List.foldl_cons, List.foldl_nil, hroom, hsettled, hcount, Bool.and_self,
    if_true, State.putEvent_owed, h]
  simp [sdel]

/-- The host frees space of the event ring in READY or RUN: what is owed is paid. -/
theorem exec_evconsWrite_running {value : Word} (hboot : s.boot.state = 3 ∨ s.boot.state = 4) :
    exec (.evconsWrite value) s = .next (State.payOwed { s with mgmt := { s.mgmt with evcons := value } }) := by
  have hrun : (s.boot.state != 3 && s.boot.state != 4) = false := by
    rcases hboot with h | h <;> rw [h] <;> rfl
  simp only [exec_evconsWrite, execEvconsWrite, hrun, Bool.false_eq_true, if_false, ok]

/-! ### The statement -/

/-- The two attempts of a die, by whether they are locked (R61). -/
theorem exec_steal {i : Instr} (hi : (i, locked) ∈ ([(.stealOptimistic q die, false), (.stealLocked q die, true)] : List (Instr × Bool))) :
    exec i s = .next (s.steal q die locked) := by
  simp only [List.mem_cons, Prod.mk.injEq, List.not_mem_nil, or_false] at hi
  rcases hi with ⟨rfl, rfl⟩ | ⟨rfl, rfl⟩
  · exact exec_stealOptimistic q die s
  · exact exec_stealLocked q die s

/-- Settles O22: a waiter by its step on the queue, the unit's events, the attempts of a steal and their victim, and what is owed. -/
theorem queueUnitEvents : Obligations.QueueUnitEvents := by
  intro s u q die w past
  refine ⟨fun n d hold => ⟨fun ws hstep hheld => (State.serve_deq hold hstep).trans (State.qfinish_took hheld),
      State.serve_deq hold, State.serve_deq hold, fun c => State.serve_deq hold⟩,
    fun n ws hold => ⟨State.serve_enq hold, State.serve_enq hold, fun c => State.serve_enq hold⟩,
    fun shard tail pa => exec_bucketFill_mapped,
    fun h hq => ⟨exec_queueCloseWake_read hq, exec_queueHeaderRevalidate_read hq⟩,
    fun c sl l => exec_queueWaiterServe_deq, fun c sl l => exec_queueWaiterServe_enq,
    fun i locked hi => ⟨fun hw => ?_, fun l h hwait hq herr hvalid hempty hpark hlock hseen => ?_⟩,
    fun counts thief rotor => ⟨fun v hv => victimOf_some hv, victimOf_none⟩,
    fun value hboot => ⟨fun howed => ?_, fun src n howed hroom hsettled hcount => ?_⟩⟩
  · rw [exec_steal hi, State.steal_no_waiter hw]
  · have hmay : s.MaySteal u q h die locked := ⟨⟨l, hwait⟩, hq, herr, hvalid, hempty, hpark, hlock, hseen⟩
    refine ⟨fun n d v ws t hold hv hv4 hfrom hheld => ?_, fun hv => ?_⟩
    · have hcount : 2 ≤ h.count v := h.counts_getD hv4 ▸ (victimOf_some hv).1.2.2
      rw [exec_steal hi, State.steal_victim hmay hold hv hcount hfrom, State.qfinish_took hheld]
      rfl
    · rw [exec_steal hi, State.steal_no_victim hmay hv]
      rfl
  · rw [exec_evconsWrite_running hboot]
    exact congrArg _ (State.payOwed_nil howed)
  · rw [exec_evconsWrite_running hboot]
    exact congrArg _ (State.payOwed_single howed hroom hsettled hcount)

end Sys2Proof.Machine
end

section
/-! PROOF. Pre-emption (R56, R398, R399): the statement O21 fails in a state in which waves of two groups stand in one wave slot. Stopped
waves are brought into focus by core and slot, which keeps one wave of a slot, so the save set is shorter than what `State.saveSize`
says of the state before. -/

namespace Sys2Proof.Machine

open Sys2Proof.Claims

/-! ### Two waves in one slot -/

/-- A wave of group `g` of core 0, at a boundary, with nothing outstanding, in slot 0. -/
def slotZeroWave (g : Nat) : Wave := { Wave.reset with slot := 0, gslot := g, priv := false, idle := false }

/-- A wave of group 1 and one of group 0 in slot 0 of core 0; group 0 is stopped, and a suspension area of 64 MiB stands at 0. -/
def sharedSlot : State :=
  { State.reset with
    waves := [slotZeroWave 1, slotZeroWave 0],
    groups := [(0, { noGroup with waves := 1, stopping := true }), (1, { noGroup with waves := 1 })],
    mgmt := { Mgmt.reset with susplen := 0x4000000 } }

/-- Group 0 has one wave of two granules: 64 bytes of tcfg, 7,164 and 4,096 of the wave (R399). -/
theorem sharedSlot_saveSize : sharedSlot.saveSize 0 0 = 11324 := by decide

/-- The lengths of the save sets that a step leaves in the suspension area. -/
def savedLengths : Host.Outcome State Fault Refusal → List Nat
  | .next t => t.suspended.map Suspended.len
  | _ => []

/-- The wave of group 1 comes into focus for slot 0 and that of group 0 is lost, so the save set is that of a group without waves. -/
theorem sharedSlot_savedLengths : savedLengths (exec (.groupPreempt 0 0) sharedSlot) = [64] := by decide +kernel

/-! ### The statement -/

/-- Refutes O21: GROUP_PREEMPT of group 0 in `sharedSlot` meets every premise of the sixth clause (R398, R399), which promises a save set
of `saveSize` = 11,324 bytes, and the model saves 64. -/
theorem not_preemptEvents : ¬ Obligations.PreemptEvents := by
  intro h
  obtain ⟨-, -, -, -, -, hsaves, -⟩ := h sharedSlot 0
  have hquiet : ∀ w ∈ sharedSlot.groupWaves 0 0, w.outst = [] ∧ w.batch = [] := by decide
  have harea : sharedSlot.areaFor (sharedSlot.saveSize 0 0) = some 0 := by decide
  obtain ⟨t, hexec, -, x, hsusp, -, -, hlen, -⟩ := hsaves 0 0 0 (by decide) (by decide) (by decide) hquiet
    (by decide) (by decide) harea (by decide)
  have hlens : savedLengths (.next t) = [x.len] := by simp [savedLengths, hsusp, show sharedSlot.suspended = [] from rfl]
  have hshort : x.len = 64 := by simpa [← hexec, sharedSlot_savedLengths] using hlens.symm
  rw [hlen, sharedSlot_saveSize] at hshort
  contradiction

end Sys2Proof.Machine
end

section
/-! PROOF. The encoding (R63, R67 to R80): the fields of a word and the word of the fields, bytes and words, and for each form the
instructions that it holds. What an instruction's bytes decode to, and what decodes, both follow from one description of each form. -/

namespace Sys2Proof

open Machine BitVec

/-! ### Bits of a word put together from fields -/

@[simp] theorem getLsbD_bit1 (b : Bool) : (bit1 b).getLsbD 0 = b := by cases b <;> rfl

theorem getLsbD_append_of_le {m n i : Nat} {x : BitVec m} {y : BitVec n} (h : n ≤ i) :
    (x ++ y).getLsbD i = x.getLsbD (i - n) := by
  rw [getLsbD_append, if_neg (Nat.not_lt.mpr h)]

theorem getLsbD_append_of_lt {m n i : Nat} {x : BitVec m} {y : BitVec n} (h : i < n) : (x ++ y).getLsbD i = y.getLsbD i := by
  rw [getLsbD_append, if_pos h]

theorem getLsbD_append_bit1 {m : Nat} (x : BitVec m) (b : Bool) : (x ++ bit1 b).getLsbD 0 = b := by
  rw [getLsbD_append, if_pos Nat.one_pos, getLsbD_bit1]

theorem bit1_getLsbD {n : Nat} (w : BitVec n) (i : Nat) : bit1 (w.getLsbD i) = w.extractLsb' i 1 := by
  apply eq_of_getLsbD_eq
  intro j hj
  obtain rfl : j = 0 := by omega
  rw [getLsbD_bit1, getLsbD_extractLsb']
  simp

/-- The two lowest bits of a word, which tell its length (R67). -/
theorem extractLsb'_zero_two {n : Nat} {w : BitVec n} {a b : Bool} (h0 : w.getLsbD 0 = a) (h1 : w.getLsbD 1 = b) :
    w.extractLsb' 0 2 = bit1 b ++ bit1 a := by
  rw [← h0, ← h1, bit1_getLsbD, bit1_getLsbD, extractLsb'_append_extractLsb'_eq_extractLsb' (by rfl)]

theorem getLsbD_lowByte {n i : Nat} (w : BitVec n) (hi : i < 2) :
    (w.extractLsb' 0 8).getLsbD i = (w.extractLsb' 0 2).getLsbD i := by
  simp only [getLsbD_extractLsb', hi, show i < 8 by omega]

/-! ### The fields of a word of fields (R71 to R80) -/

theorem readC16_wordC16 (n : Nat) (f : C16) : readC16 (wordC16 n f) = f := by
  simp only [readC16, wordC16, extractLsb'_append_eq_of_le, extractLsb'_append_eq_right, extractLsb'_eq_self,
    getLsbD_append_of_le, getLsbD_append_bit1, Nat.reduceSub, Nat.reduceLeDiff]

theorem readK32_wordK32 (op : Nat) (f : K32) : readK32 (wordK32 op f) = f := by
  simp only [readK32, wordK32, extractLsb'_append_eq_of_le, extractLsb'_append_eq_right, extractLsb'_eq_self,
    Nat.reduceSub, Nat.reduceLeDiff]

theorem readB32_wordB32 (op : Nat) (f : B32) : readB32 (wordB32 op f) = f := by
  simp only [readB32, wordB32, extractLsb'_append_eq_of_le, extractLsb'_append_eq_right, extractLsb'_eq_self,
    Nat.reduceSub, Nat.reduceLeDiff]

theorem readRep_wordRep (f : Rep) : readRep (wordRep f) = f := by
  simp only [readRep, wordRep, extractLsb'_append_eq_of_le, extractLsb'_append_eq_right, Nat.reduceSub, Nat.reduceLeDiff]

theorem readPblk_wordPblk (f : Pblk) : readPblk (wordPblk f) = f := by
  simp only [readPblk, wordPblk, extractLsb'_append_eq_of_le, extractLsb'_append_eq_right,
    getLsbD_append_of_le, getLsbD_append_bit1, Nat.reduceSub, Nat.reduceLeDiff]

theorem readL64_wordL64 (op : Nat) (f : L64) : readL64 (wordL64 op f) = f := by
  simp only [readL64, wordL64, extractLsb'_append_eq_of_le, extractLsb'_append_eq_right, extractLsb'_eq_self,
    Nat.reduceSub, Nat.reduceLeDiff]

theorem readG64_wordG64 (op : Nat) (f : G64) : readG64 (wordG64 op f) = f := by
  simp only [readG64, wordG64, extractLsb'_append_eq_of_le, extractLsb'_append_eq_right,
    getLsbD_append_of_le, getLsbD_append_bit1, getLsbD_bit1, Nat.reduceSub, Nat.reduceLeDiff]

theorem readM64_wordM64 (op : Nat) (f : M64) : readM64 (wordM64 op f) = f := by
  simp only [readM64, wordM64, extractLsb'_append_eq_of_le, extractLsb'_append_eq_right, extractLsb'_eq_self,
    getLsbD_append_of_le, getLsbD_append_bit1, Nat.reduceSub, Nat.reduceLeDiff]

/-! ### The word of the fields of a word, given its length bits and opcode (R67, R71 to R80) -/

theorem wordC16_readC16 {n : Nat} {w : BitVec 16} (h0 : w.getLsbD 0 = false) (hn : BitVec.ofNat 4 n = w.extractLsb' 2 4) :
    wordC16 n (readC16 w) = w := by
  have hlow : (0#1) = w.extractLsb' 0 1 := by rw [← bit1_getLsbD, h0]; rfl
  simp only [readC16, wordC16, hlow, hn, bit1_getLsbD, extractLsb'_append_extractLsb'_eq_extractLsb']
  exact extractLsb'_eq_self

variable {op : Nat} {w : BitVec 32} {v : BitVec 64}

theorem wordK32_readK32 (hl : w.extractLsb' 0 2 = 1#2) (ho : BitVec.ofNat 8 op = w.extractLsb' 5 8) :
    wordK32 op (readK32 w) = w := by
  simp only [readK32, wordK32, ← hl, ho, extractLsb'_append_extractLsb'_eq_extractLsb']
  exact extractLsb'_eq_self

theorem wordB32_readB32 (hl : w.extractLsb' 0 2 = 1#2) (ho : BitVec.ofNat 8 op = w.extractLsb' 5 8) :
    wordB32 op (readB32 w) = w := by
  simp only [readB32, wordB32, ← hl, ho, extractLsb'_append_extractLsb'_eq_extractLsb']
  exact extractLsb'_eq_self

theorem wordRep_readRep (hl : w.extractLsb' 0 2 = 1#2) (ho : 0xB8#8 = w.extractLsb' 5 8) (hr : w.extractLsb' 27 5 = 0#5) :
    wordRep (readRep w) = w := by
  simp only [readRep, wordRep, ← hl, ho, ← hr, extractLsb'_append_extractLsb'_eq_extractLsb']
  exact extractLsb'_eq_self

theorem wordPblk_readPblk (hl : w.extractLsb' 0 2 = 1#2) (ho : 0xB9#8 = w.extractLsb' 5 8) (hr : w.extractLsb' 28 4 = 0#4) :
    wordPblk (readPblk w) = w := by
  simp only [readPblk, wordPblk, ← hl, ho, ← hr, bit1_getLsbD, extractLsb'_append_extractLsb'_eq_extractLsb']
  exact extractLsb'_eq_self

theorem wordL64_readL64 (hl : v.extractLsb' 0 2 = 3#2) (ho : BitVec.ofNat 8 op = v.extractLsb' 9 8) :
    wordL64 op (readL64 v) = v := by
  simp only [readL64, wordL64, ← hl, ho, extractLsb'_append_extractLsb'_eq_extractLsb']
  exact extractLsb'_eq_self

theorem wordG64_readG64 (hl : v.extractLsb' 0 2 = 3#2) (ho : BitVec.ofNat 8 op = v.extractLsb' 9 8) :
    wordG64 op (readG64 v) = v := by
  simp only [readG64, wordG64, ← hl, ho, bit1_getLsbD, extractLsb'_append_extractLsb'_eq_extractLsb']
  exact extractLsb'_eq_self

theorem wordM64_readM64 (hl : v.extractLsb' 0 2 = 3#2) (ho : BitVec.ofNat 8 op = v.extractLsb' 9 8) :
    wordM64 op (readM64 v) = v := by
  simp only [readM64, wordM64, ← hl, ho, bit1_getLsbD, extractLsb'_append_extractLsb'_eq_extractLsb']
  exact extractLsb'_eq_self

/-! ### Bytes and words (R63) -/

theorem bytes16_append (b1 b0 : Byte) : bytes16 (b1 ++ b0) = [b0, b1] := by
  simp only [bytes16, extractLsb'_append_eq_of_le, extractLsb'_append_eq_right, extractLsb'_eq_self, Nat.reduceSub, Nat.le_refl]

theorem bytes32_append (b3 b2 b1 b0 : Byte) : bytes32 (b3 ++ b2 ++ b1 ++ b0) = [b0, b1, b2, b3] := by
  simp only [bytes32, extractLsb'_append_eq_of_le, extractLsb'_append_eq_right, extractLsb'_eq_self, Nat.reduceSub,
    Nat.reduceLeDiff]

theorem bytes64_append (b7 b6 b5 b4 b3 b2 b1 b0 : Byte) :
    bytes64 (b7 ++ b6 ++ b5 ++ b4 ++ b3 ++ b2 ++ b1 ++ b0) = [b0, b1, b2, b3, b4, b5, b6, b7] := by
  simp only [bytes64, extractLsb'_append_eq_of_le, extractLsb'_append_eq_right, extractLsb'_eq_self, Nat.reduceSub,
    Nat.reduceLeDiff]

/-! ### Decoding by length (R63, R67) -/

/-- A word of 16 bits that the compact index gives an instruction (R71, R72). -/
def Holds16 (w : BitVec 16) (i : Instr) : Prop := w.getLsbD 0 = false ∧ byCix (w.extractLsb' 2 4).toNat (readC16 w) = some i

/-- A word of 32 bits that the opcode map gives an instruction, its reserved bits clear (R73, R74, R79, R80). -/
def Holds32 (w : BitVec 32) (i : Instr) : Prop :=
  w.extractLsb' 0 2 = 1#2 ∧ byOp32 (w.extractLsb' 5 8).toNat w = some i ∧ reservedBits (w.extractLsb' 5 8).toNat w = false

/-- A word of 64 bits that the opcode map gives an instruction (R75 to R78). -/
def Holds64 (w : BitVec 64) (i : Instr) : Prop := w.extractLsb' 0 2 = 3#2 ∧ byOp64 (w.extractLsb' 9 8).toNat w = some i

/-- The bytes of a word that holds an instruction. -/
def Spells (bs : List Byte) (i : Instr) : Prop :=
  (∃ w, bs = bytes16 w ∧ Holds16 w i) ∨ (∃ w, bs = bytes32 w ∧ Holds32 w i) ∨ ∃ w, bs = bytes64 w ∧ Holds64 w i

variable {i : Instr} {rest : List Byte} {bad : Bool}

theorem accept_ok (h : WellFormed i) : accept false i rest = .ok (i, rest) := by
  simp [accept, show fieldsOk Limits.most i = true from h]

theorem accept_eq_ok {j : Instr} {r : List Byte} (h : accept bad j r = .ok (i, rest)) :
    bad = false ∧ WellFormed j ∧ j = i ∧ r = rest := by
  unfold accept at h
  cases bad <;> cases hf : fieldsOk Limits.most j <;> simp_all [WellFormed]

theorem decode_bytes16 {w : BitVec 16} (h : Holds16 w i) : decode (bytes16 w ++ rest) = accept false i rest := by
  obtain ⟨h0, hi⟩ := h
  have hb0 : (w.extractLsb' 0 8).getLsbD 0 = false := by rw [getLsbD_extractLsb', Nat.zero_add, h0, Bool.and_false]
  have hw : w.extractLsb' 8 8 ++ w.extractLsb' 0 8 = w :=
    (extractLsb'_append_extractLsb'_eq_extractLsb' (by rfl)).trans extractLsb'_eq_self
  simp only [decode, bytes16, List.cons_append, List.nil_append, hb0, Bool.not_false, if_true, hw, hi]

theorem decode_bytes32 {w : BitVec 32} (h : Holds32 w i) : decode (bytes32 w ++ rest) = accept false i rest := by
  obtain ⟨hl, hi, hr⟩ := h
  have hb0 : (w.extractLsb' 0 8).getLsbD 0 = true := (getLsbD_lowByte w (by decide)).trans (by rw [hl]; rfl)
  have hb1 : (w.extractLsb' 0 8).getLsbD 1 = false := (getLsbD_lowByte w (by decide)).trans (by rw [hl]; rfl)
  have hw : w.extractLsb' 24 8 ++ w.extractLsb' 16 8 ++ w.extractLsb' 8 8 ++ w.extractLsb' 0 8 = w := by
    simp only [extractLsb'_append_extractLsb'_eq_extractLsb']
    exact extractLsb'_eq_self
  simp only [decode, bytes32, List.cons_append, List.nil_append, hb0, hb1, Bool.not_false, Bool.not_true, Bool.false_eq_true,
    if_true, if_false, hw, hi, hr]

theorem decode_bytes64 {w : BitVec 64} (h : Holds64 w i) : decode (bytes64 w ++ rest) = accept false i rest := by
  obtain ⟨hl, hi⟩ := h
  have hb0 : (w.extractLsb' 0 8).getLsbD 0 = true := (getLsbD_lowByte w (by decide)).trans (by rw [hl]; rfl)
  have hb1 : (w.extractLsb' 0 8).getLsbD 1 = true := (getLsbD_lowByte w (by decide)).trans (by rw [hl]; rfl)
  have hw : w.extractLsb' 56 8 ++ w.extractLsb' 48 8 ++ w.extractLsb' 40 8 ++ w.extractLsb' 32 8 ++ w.extractLsb' 24 8 ++
      w.extractLsb' 16 8 ++ w.extractLsb' 8 8 ++ w.extractLsb' 0 8 = w := by
    simp only [extractLsb'_append_extractLsb'_eq_extractLsb']
    exact extractLsb'_eq_self
  simp only [decode, bytes64, List.cons_append, List.nil_append, hb0, hb1, Bool.not_true, Bool.false_eq_true, if_false, hw, hi]

/-- Bytes that spell an instruction decode to it, if its fields pass the checks, whatever follows. -/
theorem decode_of_spells {bs : List Byte} (h : Spells bs i) (hi : WellFormed i) : decode (bs ++ rest) = .ok (i, rest) := by
  obtain ⟨w, rfl, hw⟩ | ⟨w, rfl, hw⟩ | ⟨w, rfl, hw⟩ := h
  · rw [decode_bytes16 hw, accept_ok hi]
  · rw [decode_bytes32 hw, accept_ok hi]
  · rw [decode_bytes64 hw, accept_ok hi]

theorem spells_two {b0 b1 : Byte} (h0 : b0.getLsbD 0 = false)
    (hi : byCix ((b1 ++ b0).extractLsb' 2 4).toNat (readC16 (b1 ++ b0)) = some i) : Spells [b0, b1] i := by
  refine .inl ⟨b1 ++ b0, (bytes16_append b1 b0).symm, ?_, hi⟩
  rwa [getLsbD_append_of_lt (by decide)]

theorem spells_four {b0 b1 b2 b3 : Byte} (h0 : b0.getLsbD 0 = true) (h1 : b0.getLsbD 1 = false)
    (hi : byOp32 ((b3 ++ b2 ++ b1 ++ b0).extractLsb' 5 8).toNat (b3 ++ b2 ++ b1 ++ b0) = some i)
    (hr : reservedBits ((b3 ++ b2 ++ b1 ++ b0).extractLsb' 5 8).toNat (b3 ++ b2 ++ b1 ++ b0) = false) :
    Spells [b0, b1, b2, b3] i := by
  refine .inr (.inl ⟨b3 ++ b2 ++ b1 ++ b0, (bytes32_append b3 b2 b1 b0).symm, ?_, hi, hr⟩)
  rw [extractLsb'_append_eq_of_add_le (by decide), extractLsb'_zero_two h0 h1]
  rfl

theorem spells_eight {b0 b1 b2 b3 b4 b5 b6 b7 : Byte} (h0 : b0.getLsbD 0 = true) (h1 : b0.getLsbD 1 = true)
    (hi : byOp64 ((b7 ++ b6 ++ b5 ++ b4 ++ b3 ++ b2 ++ b1 ++ b0).extractLsb' 9 8).toNat
      (b7 ++ b6 ++ b5 ++ b4 ++ b3 ++ b2 ++ b1 ++ b0) = some i) :
    Spells [b0, b1, b2, b3, b4, b5, b6, b7] i := by
  refine .inr (.inr ⟨b7 ++ b6 ++ b5 ++ b4 ++ b3 ++ b2 ++ b1 ++ b0, (bytes64_append b7 b6 b5 b4 b3 b2 b1 b0).symm, ?_, hi⟩)
  rw [extractLsb'_append_eq_of_add_le (by decide), extractLsb'_zero_two h0 h1]
  rfl

/-- Bytes that decode begin with bytes that spell an instruction whose fields pass the checks. -/
theorem spells_of_decode {bs : List Byte} (h : decode bs = .ok (i, rest)) :
    WellFormed i ∧ ∃ front, bs = front ++ rest ∧ Spells front i := by
  unfold decode at h
  split at h
  case h_2 => cases h
  case h_1 b0 b1 r2 =>
  dsimp only at h
  split at h
  case isTrue h0 =>
    split at h
    case h_2 => cases h
    case h_1 j hj =>
      obtain ⟨-, hwf, rfl, rfl⟩ := accept_eq_ok h
      exact ⟨hwf, _, rfl, spells_two (by simpa using h0) hj⟩
  case isFalse h0 =>
    rw [Bool.not_eq_true', Bool.not_eq_false] at h0
    split at h
    case h_2 => cases h
    case h_1 b2 b3 r4 =>
    split at h
    case isTrue h1 =>
      split at h
      case h_2 => cases h
      case h_1 j hj =>
        obtain ⟨hr, hwf, rfl, rfl⟩ := accept_eq_ok h
        exact ⟨hwf, _, rfl, spells_four h0 (by simpa using h1) hj hr⟩
    case isFalse h1 =>
      rw [Bool.not_eq_true', Bool.not_eq_false] at h1
      split at h
      case h_2 => cases h
      case h_1 b4 b5 b6 b7 r8 =>
      split at h
      case h_2 => cases h
      case h_1 j hj =>
        obtain ⟨-, hwf, rfl, rfl⟩ := accept_eq_ok h
        exact ⟨hwf, _, rfl, spells_eight h0 h1 hj⟩

/-! ### The instructions of a form (R67, R82) -/

/-- The instruction is one of those that a constructor makes of a record of fields: the encoder writes the word of the fields, and the
decoder, at their opcode, gives the constructor the fields that it reads. -/
def OfFields {F : Type} {n : Nat} (word : F → BitVec n) (read : BitVec n → F) (ser : BitVec n → List Byte)
    (dec : BitVec n → Option Instr) (i : Instr) : Prop :=
  ∃ (con : F → Instr) (f : F), i = con f ∧ (∀ g, encode (con g) = ser (word g)) ∧ ∀ w, dec w = some (con (read w))

section
variable {F : Type} {n : Nat} {word : F → BitVec n} {read : BitVec n → F} {ser : BitVec n → List Byte}
  {dec : BitVec n → Option Instr}

theorem OfFields.decodes (h : OfFields word read ser dec i) (hr : ∀ f, read (word f) = f) :
    ∃ f, encode i = ser (word f) ∧ dec (word f) = some i := by
  obtain ⟨con, f, rfl, he, hd⟩ := h
  exact ⟨f, he f, by rw [hd, hr]⟩

theorem OfFields.encodes (h : OfFields word read ser dec i) {w : BitVec n} (hd : dec w = some i) (hw : word (read w) = w) :
    encode i = ser w := by
  obtain ⟨con, f, -, he, hdec⟩ := h
  obtain rfl : con (read w) = i := Option.some.inj ((hdec w).symm.trans hd)
  rw [he, hw]

end

section
variable {k : Nat}

theorem ofFields_c16 (h : opForm i = (k, .c16)) : OfFields (wordC16 k) readC16 bytes16 (fun w => byCix k (readC16 w)) i := by
  cases i <;> cases h <;> exact ⟨_, _, rfl, fun _ => rfl, fun _ => rfl⟩

theorem ofFields_k32 (h : opForm i = (k, .k32)) : OfFields (wordK32 k) readK32 bytes32 (byOp32 k) i := by
  cases i <;> cases h <;> exact ⟨_, _, rfl, fun _ => rfl, fun _ => rfl⟩

theorem ofFields_b32 (h : opForm i = (k, .b32)) : OfFields (wordB32 k) readB32 bytes32 (byOp32 k) i := by
  cases i <;> cases h <;> exact ⟨_, _, rfl, fun _ => rfl, fun _ => rfl⟩

theorem ofFields_p32 (h : opForm i = (k, .p32)) :
    k = 0xB8 ∧ OfFields wordRep readRep bytes32 (byOp32 k) i ∨ k = 0xB9 ∧ OfFields wordPblk readPblk bytes32 (byOp32 k) i := by
  cases i <;> cases h
  case rep f => exact .inl ⟨rfl, _, f, rfl, fun _ => rfl, fun _ => rfl⟩
  case pblk f => exact .inr ⟨rfl, _, f, rfl, fun _ => rfl, fun _ => rfl⟩

theorem ofFields_l64 (h : opForm i = (k, .l64)) : OfFields (wordL64 k) readL64 bytes64 (byOp64 k) i := by
  cases i <;> cases h <;> exact ⟨_, _, rfl, fun _ => rfl, fun _ => rfl⟩

theorem ofFields_g64 (h : opForm i = (k, .g64)) : OfFields (wordG64 k) readG64 bytes64 (byOp64 k) i := by
  cases i <;> cases h <;> exact ⟨_, _, rfl, fun _ => rfl, fun _ => rfl⟩

theorem ofFields_m64 (h : opForm i = (k, .m64)) : OfFields (wordM64 k) readM64 bytes64 (byOp64 k) i := by
  cases i <;> cases h <;> exact ⟨_, _, rfl, fun _ => rfl, fun _ => rfl⟩

theorem byCix_form {f : C16} (hk : k < 16) (h : byCix k f = some i) : opForm i = (k, .c16) := by
  interval_cases k <;> cases h <;> rfl

theorem byOp32_form {w : BitVec 32} (hk : k < 256) (h : byOp32 k w = some i) :
    ∃ form ∈ [Form.k32, .b32, .p32], opForm i = (k, form) := by
  interval_cases k <;> cases h <;> exact ⟨_, by decide, rfl⟩

theorem byOp64_form {w : BitVec 64} (hk : k < 256) (h : byOp64 k w = some i) :
    ∃ form ∈ [Form.l64, .g64, .m64], opForm i = (k, form) := by
  interval_cases k <;> cases h <;> exact ⟨_, by decide, rfl⟩

/-- An opcode has 8 bits, a compact index 4. -/
theorem opForm_lt {form : Form} (h : opForm i = (k, form)) : k < if form = .c16 then 16 else 256 := by
  cases i <;> cases h <;> exact Nat.le_of_ble_eq_true rfl

/-! ### Every instruction's bytes spell it, and nothing else does -/

/-- A word with the length bits and the opcode of its form holds what the opcode map gives it. -/
theorem holds64_of_opcode {w : BitVec 64} (hk : k < 256) (hl : w.extractLsb' 0 2 = 3#2) (ho : w.extractLsb' 9 8 = BitVec.ofNat 8 k)
    (h : byOp64 k w = some i) : Holds64 w i := by
  refine ⟨hl, ?_⟩
  rwa [ho, toNat_ofNat, Nat.mod_eq_of_lt hk]

theorem holds32_of_opcode {w : BitVec 32} (hk : k < 256) (hl : w.extractLsb' 0 2 = 1#2) (ho : w.extractLsb' 5 8 = BitVec.ofNat 8 k)
    (h : byOp32 k w = some i) (hr : reservedBits k w = false) : Holds32 w i := by
  refine ⟨hl, ?_, ?_⟩ <;> rwa [ho, toNat_ofNat, Nat.mod_eq_of_lt hk]

theorem reservedBits_eq_false {w : BitVec 32} {form : Form} (h : opForm i = (k, form)) (hf : form ≠ .p32) :
    reservedBits k w = false := by
  have hp : k = 0xB8 ∨ k = 0xB9 → form = .p32 := by cases i <;> cases h <;> decide
  have h8 : k ≠ 0xB8 := fun e => hf (hp (.inl e))
  have h9 : k ≠ 0xB9 := fun e => hf (hp (.inr e))
  simp [reservedBits, h8, h9]

/-- The bytes of an instruction are those of a word that holds it. -/
theorem spells_encode (h : HasWords i) : Spells (encode i) i := by
  rcases hof : opForm i with ⟨k, form⟩
  have hk := opForm_lt hof
  cases form with
  | c16 =>
    obtain ⟨f, he, hd⟩ := (ofFields_c16 hof).decodes (readC16_wordC16 k)
    have h0 : (wordC16 k f).getLsbD 0 = false := by
      rw [wordC16, getLsbD_append_of_lt Nat.one_pos]
      rfl
    refine .inl ⟨_, he, h0, ?_⟩
    have ho : (wordC16 k f).extractLsb' 2 4 = BitVec.ofNat 4 k := by
      simp only [wordC16, extractLsb'_append_eq_right, extractLsb'_append_eq_of_le, Nat.reduceSub, Nat.reduceLeDiff]
    rwa [ho, toNat_ofNat, Nat.mod_eq_of_lt (show k < 2 ^ 4 from hk)]
  | k32 =>
    obtain ⟨f, he, hd⟩ := (ofFields_k32 hof).decodes (readK32_wordK32 k)
    refine .inr (.inl ⟨_, he, holds32_of_opcode hk ?_ ?_ hd (reservedBits_eq_false hof nofun)⟩) <;>
      simp only [wordK32, extractLsb'_append_eq_right, extractLsb'_append_eq_of_le, Nat.reduceSub, Nat.reduceLeDiff]
  | b32 =>
    obtain ⟨f, he, hd⟩ := (ofFields_b32 hof).decodes (readB32_wordB32 k)
    refine .inr (.inl ⟨_, he, holds32_of_opcode hk ?_ ?_ hd (reservedBits_eq_false hof nofun)⟩) <;>
      simp only [wordB32, extractLsb'_append_eq_right, extractLsb'_append_eq_of_le, Nat.reduceSub, Nat.reduceLeDiff]
  | p32 =>
    obtain ⟨rfl, hf⟩ | ⟨rfl, hf⟩ := ofFields_p32 hof
    · obtain ⟨f, he, hd⟩ := hf.decodes readRep_wordRep
      have hr : (wordRep f).extractLsb' 27 5 = 0#5 := by
        simp only [wordRep, extractLsb'_append_eq_of_le, extractLsb'_eq_self, Nat.reduceSub, Nat.reduceLeDiff]
      refine .inr (.inl ⟨_, he, holds32_of_opcode hk ?_ ?_ hd (by simp [reservedBits, hr])⟩) <;>
        simp only [wordRep, extractLsb'_append_eq_right, extractLsb'_append_eq_of_le, Nat.reduceSub, Nat.reduceLeDiff]
    · obtain ⟨f, he, hd⟩ := hf.decodes readPblk_wordPblk
      have hr : (wordPblk f).extractLsb' 28 4 = 0#4 := by
        simp only [wordPblk, extractLsb'_append_eq_of_le, extractLsb'_eq_self, Nat.reduceSub, Nat.reduceLeDiff]
      refine .inr (.inl ⟨_, he, holds32_of_opcode hk ?_ ?_ hd (by simp [reservedBits, hr])⟩) <;>
        simp only [wordPblk, extractLsb'_append_eq_right, extractLsb'_append_eq_of_le, Nat.reduceSub, Nat.reduceLeDiff]
  | l64 =>
    obtain ⟨f, he, hd⟩ := (ofFields_l64 hof).decodes (readL64_wordL64 k)
    refine .inr (.inr ⟨_, he, holds64_of_opcode hk ?_ ?_ hd⟩) <;>
      simp only [wordL64, extractLsb'_append_eq_right, extractLsb'_append_eq_of_le, Nat.reduceSub, Nat.reduceLeDiff]
  | g64 =>
    obtain ⟨f, he, hd⟩ := (ofFields_g64 hof).decodes (readG64_wordG64 k)
    refine .inr (.inr ⟨_, he, holds64_of_opcode hk ?_ ?_ hd⟩) <;>
      simp only [wordG64, extractLsb'_append_eq_right, extractLsb'_append_eq_of_le, Nat.reduceSub, Nat.reduceLeDiff]
  | m64 =>
    obtain ⟨f, he, hd⟩ := (ofFields_m64 hof).decodes (readM64_wordM64 k)
    refine .inr (.inr ⟨_, he, holds64_of_opcode hk ?_ ?_ hd⟩) <;>
      simp only [wordM64, extractLsb'_append_eq_right, extractLsb'_append_eq_of_le, Nat.reduceSub, Nat.reduceLeDiff]
  | none_ => simp [HasWords, insLen, hof, Form.len] at h

theorem hasWords_of_form {form : Form} (h : opForm i = (k, form)) (hf : form ≠ .none_) : HasWords i := by
  rw [HasWords, insLen, h]
  cases form
  case none_ => exact absurd rfl hf
  all_goals rfl

theorem Holds16.encodes {w : BitVec 16} (h : Holds16 w i) : HasWords i ∧ encode i = bytes16 w := by
  obtain ⟨h0, hd⟩ := h
  have hof := byCix_form (w.extractLsb' 2 4).isLt hd
  exact ⟨hasWords_of_form hof nofun, (ofFields_c16 hof).encodes hd (wordC16_readC16 h0 (ofNat_toNat ..))⟩

theorem Holds32.encodes {w : BitVec 32} (h : Holds32 w i) : HasWords i ∧ encode i = bytes32 w := by
  obtain ⟨hl, hd, hr⟩ := h
  have ho : BitVec.ofNat 8 (w.extractLsb' 5 8).toNat = w.extractLsb' 5 8 := ofNat_toNat ..
  obtain ⟨form, hform, hof⟩ := byOp32_form (w.extractLsb' 5 8).isLt hd
  simp only [List.mem_cons, List.not_mem_nil, or_false] at hform
  obtain rfl | rfl | rfl := hform
  · exact ⟨hasWords_of_form hof nofun, (ofFields_k32 hof).encodes hd (wordK32_readK32 hl ho)⟩
  · exact ⟨hasWords_of_form hof nofun, (ofFields_b32 hof).encodes hd (wordB32_readB32 hl ho)⟩
  · refine ⟨hasWords_of_form hof nofun, ?_⟩
    obtain ⟨hk, hf⟩ | ⟨hk, hf⟩ := ofFields_p32 hof
    · exact hf.encodes hd (wordRep_readRep hl (hk ▸ ho) (by simpa [reservedBits, hk] using hr))
    · exact hf.encodes hd (wordPblk_readPblk hl (hk ▸ ho) (by simpa [reservedBits, hk] using hr))

theorem Holds64.encodes {w : BitVec 64} (h : Holds64 w i) : HasWords i ∧ encode i = bytes64 w := by
  obtain ⟨hl, hd⟩ := h
  have ho : BitVec.ofNat 8 (w.extractLsb' 9 8).toNat = w.extractLsb' 9 8 := ofNat_toNat ..
  obtain ⟨form, hform, hof⟩ := byOp64_form (w.extractLsb' 9 8).isLt hd
  simp only [List.mem_cons, List.not_mem_nil, or_false] at hform
  obtain rfl | rfl | rfl := hform
  · exact ⟨hasWords_of_form hof nofun, (ofFields_l64 hof).encodes hd (wordL64_readL64 hl ho)⟩
  · exact ⟨hasWords_of_form hof nofun, (ofFields_g64 hof).encodes hd (wordG64_readG64 hl ho)⟩
  · exact ⟨hasWords_of_form hof nofun, (ofFields_m64 hof).encodes hd (wordM64_readM64 hl ho)⟩

/-- Bytes that spell an instruction are its encoding. -/
theorem Spells.encodes {bs : List Byte} (h : Spells bs i) : HasWords i ∧ encode i = bs := by
  obtain ⟨w, rfl, hw⟩ | ⟨w, rfl, hw⟩ | ⟨w, rfl, hw⟩ := h
  · exact hw.encodes
  · exact hw.encodes
  · exact hw.encodes

end

/-! ### The statements -/

/-- Settles O31: an instruction's bytes spell it, and bytes that spell an instruction decode to it. -/
theorem encodingDecodes : Obligations.EncodingDecodes := by
  intro i rest hwords hwf
  exact decode_of_spells (spells_encode hwords) hwf

/-- Settles O32: bytes that decode begin with bytes that spell the instruction, and those are its encoding. -/
theorem decodedBytesEncode : Obligations.DecodedBytesEncode := by
  intro bs rest i h
  obtain ⟨hwf, front, rfl, hspells⟩ := spells_of_decode h
  obtain ⟨hwords, rfl⟩ := hspells.encodes
  exact ⟨hwords, hwf, rfl⟩

end Sys2Proof
end

section
/-! PROOF. Words of the encodings (R71, R72, R76), decoded. -/

namespace Sys2Proof

/-- Settles O30: the decoder evaluated on each of the words. -/
theorem wordsDecode : Obligations.WordsDecode := by
  refine ⟨?_, ?_, ?_⟩
  · decide
  · decide
  · decide

end Sys2Proof
end

section
/-! PROOF. The step of a chosen wave (R63, R66, R79, R80, R100, R385): what it comes to in each place that the wave can stand at. -/

namespace Sys2Proof.Machine

/-! ### The next instruction of the chosen wave -/

section
variable {s t : State} {bs : List Byte}

/-- What stands at the PC, by what its fetch meets (R63, R66, R83). -/
theorem fetchNext_decoded {i : Instr} {rest : List Byte} (hf : s.fetch s.wave.core s.wave.pc.toNat = .ok t bs)
    (hd : decode bs = .ok (i, rest)) : s.fetchNext = .run t i := by
  simp only [State.fetchNext, hf, hd]

theorem fetchNext_refused {e : DecodeError} {c d : Nat} (hf : s.fetch s.wave.core s.wave.pc.toNat = .ok t bs)
    (hd : decode bs = .error e) (hr : t.refusal (.error e) = some (c, d)) : s.fetchNext = .done (t.faultAt c d s.wave.pc) := by
  simp only [State.fetchNext, hf, hd, hr]

theorem fetchNext_absent {va : Nat} (hf : s.fetch s.wave.core s.wave.pc.toNat = .absent va) :
    s.fetchNext = .done (s.holdFault va 1) := by
  simp only [State.fetchNext, hf]

theorem fetchNext_wait (hf : s.fetch s.wave.core s.wave.pc.toNat = .wait t) :
    s.fetchNext = .done { t with wave := { t.wave with hold := .unissued } } := by
  simp only [State.fetchNext, hf]

theorem fetchNext_trap {c d : Nat} {a : DWord} (hf : s.fetch s.wave.core s.wave.pc.toNat = .trap c d a) :
    s.fetchNext = .done (s.faultAt c d a) := by
  simp only [State.fetchNext, hf]

end

section
variable {s t : State} {i : Instr}

/-- The chosen wave with nothing in flight: a deferred report comes first (R385). -/
theorem nextToRun_report (hp : s.wave.pend = []) (hr : s.wave.reports ≠ []) (hv : s.wave.recovery = false) :
    s.nextToRun = .done (State.takeReport { s with chosen := false }) := by
  simp only [State.nextToRun, landDue_nil { s with chosen := false } hp, List.isEmpty_eq_false_iff.mpr hr, hv,
    Bool.not_false, Bool.and_self, if_true]

/-- With no report it is at the REP or PBLK that it runs, or at its PC. -/
theorem nextToRun_rep {r : RepState} (hp : s.wave.pend = []) (hr : s.wave.reports = []) (hrep : s.wave.rep = some r)
    (hi : stepped r.ins r.std r.sta r.stb r.stc r.j = some i) : s.nextToRun = .run { s with chosen := false } i := by
  simp only [State.nextToRun, landDue_nil { s with chosen := false } hp, hr, List.isEmpty_nil, Bool.not_true,
    Bool.false_and, Bool.false_eq_true, if_false, hrep, hi]

theorem nextToRun_pblk {p : PblkState} {x : DWord × Instr} {l : List (DWord × Instr)} (hp : s.wave.pend = [])
    (hr : s.wave.reports = []) (hrep : s.wave.rep = none) (hpblk : s.wave.pblk = some p) (hb : p.body = x :: l) :
    s.nextToRun = .run { s with chosen := false } x.2 := by
  simp only [State.nextToRun, landDue_nil { s with chosen := false } hp, hr, List.isEmpty_nil, Bool.not_true,
    Bool.false_and, Bool.false_eq_true, if_false, hrep, hpblk, hb]

theorem nextToRun_plain (hp : s.wave.pend = []) (hr : s.wave.reports = []) (hrep : s.wave.rep = none)
    (hpblk : s.wave.pblk = none) : s.nextToRun = State.fetchNext { s with chosen := false } := by
  simp only [State.nextToRun, landDue_nil { s with chosen := false } hp, hr, List.isEmpty_nil, Bool.not_true,
    Bool.false_and, Bool.false_eq_true, if_false, hrep, hpblk]

/-! ### The step -/

/-- What an instruction of the wave at a core and slot comes to, its token settled (R101). -/
def settling (core slot : Nat) : Host.Outcome State Fault Refusal → Host.Outcome State Fault Refusal
  | .next u => .next (u.settleToken core slot)
  | x => x

/-- A chosen wave with nothing left to run (R100). -/
theorem step_done (hc : s.chosen = true) (hroot : s.rootReserved = false) (hn : s.nextToRun = .done t) : step s = .next t := by
  simp only [step, hc, hroot, hn, if_true, Bool.false_eq_true, if_false]

/-- A chosen wave that runs an instruction (R100); the token that it has not used is given back. -/
theorem step_run (hc : s.chosen = true) (hroot : s.rootReserved = false) (hn : s.nextToRun = .run t i) :
    step s = settling t.wave.core t.wave.slot (exec i t) := by
  simp only [step, hc, hroot, hn, if_true, Bool.false_eq_true, if_false]
  cases exec i t <;> rfl

theorem step_reserved (hc : s.chosen = true) (hroot : s.rootReserved = true) :
    step s = .fault (.reservedAddress s.mgmt.ptroot.toNat) := by
  simp only [step, hc, hroot, if_true]

/-- With no wave chosen an outside agent's step comes first, then a pipe of this clock, then the clock (R100). -/
theorem step_agenda {e : Instr} {l : List Instr} (hc : s.chosen = false) (ha : s.agenda = e :: l) :
    step s = exec e { s with agenda := l } := by
  simp only [step, hc, ha, Bool.false_eq_true, if_false]

theorem step_pipe {n : Nat} (hc : s.chosen = false) (ha : s.agenda = []) (hn : s.nextTurn = some n) :
    step s = exec (.pipeIssue (n / 4) (n % 4)) { s with turn := n + 1 } := by
  simp only [step, hc, ha, hn, Bool.false_eq_true, if_false]

theorem step_clock (hc : s.chosen = false) (ha : s.agenda = []) (hn : s.nextTurn = none) : step s = .next s.tick.heldRun := by
  simp only [step, hc, ha, hn, Bool.false_eq_true, if_false]

end

/-! ### The statement -/

/-- Settles O27: the step by the place that the chosen wave stands at, one lemma each. -/
theorem stepRunsTheInstruction : Obligations.StepRunsTheInstruction := by
  intro s w v ran clear plain
  refine ⟨?_, ?_, ?_, ?_, ?_, ?_, ?_, ?_, ?_, ?_, ?_, ?_⟩
  · rintro ⟨⟨hc, hroot, hp, hr⟩, hrep, hpblk⟩ t bs i rest hf hcore hslot hd
    rw [step_run hc hroot ((nextToRun_plain hp hr hrep hpblk).trans (fetchNext_decoded hf hd)), hcore, hslot]
    rfl
  · rintro ⟨⟨hc, hroot, hp, hr⟩, hrep, hpblk⟩ t bs e c d hf hd href
    exact step_done hc hroot ((nextToRun_plain hp hr hrep hpblk).trans (fetchNext_refused hf hd href))
  · rintro ⟨⟨hc, hroot, hp, hr⟩, hrep, hpblk⟩ va hf
    exact step_done hc hroot ((nextToRun_plain hp hr hrep hpblk).trans (fetchNext_absent hf))
  · rintro ⟨⟨hc, hroot, hp, hr⟩, hrep, hpblk⟩ t hf
    exact step_done hc hroot ((nextToRun_plain hp hr hrep hpblk).trans (fetchNext_wait hf))
  · rintro ⟨⟨hc, hroot, hp, hr⟩, hrep, hpblk⟩ c d a hf
    exact step_done hc hroot ((nextToRun_plain hp hr hrep hpblk).trans (fetchNext_trap hf))
  · rintro ⟨hc, hroot, hp, hr⟩ r i hrep hi
    exact step_run hc hroot (nextToRun_rep hp hr hrep hi)
  · rintro ⟨hc, hroot, hp, hr⟩ p x l hrep hpblk hb
    exact step_run hc hroot (nextToRun_pblk hp hr hrep hpblk hb)
  · exact fun hc hroot hp hr hv => step_done hc hroot (nextToRun_report hp hr hv)
  · exact step_reserved
  · exact fun e l => step_agenda
  · exact fun n => step_pipe
  · exact step_clock

end Sys2Proof.Machine
end

section
/-! PROOF. The prefixes and what retiring advances (R63, R79, R80, R129, R130). -/

namespace Sys2Proof.Machine

open Sys2Proof.Claims

variable {s t : State} {i : Instr}

/-! ### REP and PBLK start (R79, R80) -/

/-- Only a C16 word expands to something else (R72). -/
theorem expand_of_ne_c16 (h : (opForm i).2 ≠ .c16) : expand i = i := by
  unfold expand
  split
  case h_17 => rfl
  all_goals exact absurd rfl h

theorem stepSize_eq_getD (x : BitVec 2) : stepSize x = [0, 1, 2, 4].getD x.toNat 0 := by revert x; decide

/-- An instruction that stays where it is and leaves no hold is not kept as a held one (R88). -/
theorem settleNew_stay (h : t.wave.hold = .none) : settleNew s i (.stay t) = t := by
  simp [settleNew, State.holdOn, h, Hold.goesOn, Hold.inside]

theorem exec_rep (f : Rep) (s : State) : exec (.rep f) s = execRep f s := rfl
theorem exec_pblk (f : Pblk) (s : State) : exec (.pblk f) s = execPblk f s := rfl

/-- REP over an instruction of 32 or 64 bits that it can step stands before the first repeat. -/
theorem exec_rep_start {f : Rep} {at_ next : DWord} (hr : Ready (.rep f) s)
    (hread : s.readCovered repCovers s.wave.pc (s.wave.pc + 4) 1 = .ok t [(at_, i)] next) (hres : s.wave.resume = .none)
    (hform : (opForm i).2 ≠ .c16) (hsteps : s.stepsBad f (s.wave.pc + 4) = false) :
    exec (.rep f) s = .next { t with wave := { s.wave with
      lastIssue := s.clock + 1, resume := .none,
      rep := some { j := 0, n := f.cnt.toNat + 1, std := stepSize f.std, sta := stepSize f.sta, stb := stepSize f.stb,
                    stc := stepSize f.stc, ins := i, insAt := at_, after := next } } } := by
  have hc16 : ((opForm i).2 == .c16) = false := beq_eq_false_iff_ne.mpr hform
  simp only [exec_rep, execRep, ok, run_of_ready hr, hread, hsteps, hres, Bool.false_eq_true, if_false, Nat.not_lt_zero,
    Nat.zero_ne_add_one, hc16, Bool.not_false, if_true, expand_of_ne_c16 hform]
  obtain ⟨-, hhold, -⟩ := hr
  exact congrArg _ (settleNew_stay hhold)

/-- PBLK over instructions that can be read stands before the first, its condition captured. -/
theorem exec_pblk_start {f : Pblk} {body : List (DWord × Instr)} {next : DWord} (hr : Ready (.pblk f) s)
    (hread : s.readCovered pblkCovers s.wave.pc (s.wave.pc + 4) (f.cnt.toNat + 1) = .ok t body next)
    (hres : s.wave.resume = .none) :
    exec (.pblk f) s = .next { t with wave := { s.wave with
      lastIssue := s.clock + 1, resume := .none,
      pblk := some { j := 0, cond := if f.sense then s.wave.mask (f.cm.toNat + 1) else ~~~s.wave.mask (f.cm.toNat + 1),
                     pat := f.pat, body := body, after := next } } } := by
  simp only [exec_pblk, execPblk, ok, run_of_ready hr, hread, hres, if_false, Nat.not_lt_zero, Nat.zero_ne_add_one, List.drop_zero]
  obtain ⟨-, hhold, -⟩ := hr
  exact congrArg _ (settleNew_stay hhold)

theorem prefixesStart : PrefixesStart := by
  refine ⟨fun s t f i at_ next hr hread hres hform hsteps _ _ _ _ => ?_, fun s t f body next hr hread hres => ?_⟩
  · simp only [exec_rep_start hr hread hres hform hsteps, stepSize_eq_getD]
  · rw [exec_pblk_start hr hread hres]
    rfl

/-! ### Retiring (R63, R129, R130) -/

section
variable {w : Wave} {len clock : Nat}

/-- The wave whose instruction has issued at this clock and is no longer inside a held one (R87). -/
def Wave.issuedAt (w : Wave) (clock : Nat) : Wave := { w with lastIssue := clock + 1, resume := .none, held := none, dropped := [] }

theorem advance_plain (hr : w.rep = none) (hp : w.pblk = none) :
    w.advance len clock = { w.issuedAt clock with pc := w.pc + BitVec.ofNat 64 len } := by
  simp only [Wave.advance, hr, hp, Wave.issuedAt]

theorem advance_repeat {r : RepState} (hr : w.rep = some r) (hj : r.j + 1 < r.n) :
    w.advance len clock = { w.issuedAt clock with rep := some { r with j := r.j + 1 } } := by
  simp only [Wave.advance, hr, hj, if_true, Wave.issuedAt]

theorem advance_lastRepeat {r : RepState} (hr : w.rep = some r) (hj : r.n ≤ r.j + 1) :
    w.advance len clock = { w.issuedAt clock with rep := none, pc := r.after } := by
  simp only [Wave.advance, hr, Nat.not_lt.mpr hj, if_false, Wave.issuedAt]

theorem advance_covered {p : PblkState} {x b : DWord × Instr} {bs : List (DWord × Instr)} (hr : w.rep = none)
    (hp : w.pblk = some p) (hb : p.body = x :: b :: bs) :
    w.advance len clock = { w.issuedAt clock with pblk := some { p with j := p.j + 1, body := b :: bs } } := by
  simp only [Wave.advance, hr, hp, hb, Wave.issuedAt]

theorem advance_lastCovered {p : PblkState} {x : DWord × Instr} (hr : w.rep = none) (hp : w.pblk = some p) (hb : p.body = [x]) :
    w.advance len clock = { w.issuedAt clock with pblk := none, pc := p.after } := by
  simp only [Wave.advance, hr, hp, hb, Wave.issuedAt]

end

theorem retiringAdvances : RetiringAdvances := by
  intro w len clock
  exact ⟨advance_plain, fun r => advance_repeat, fun r => advance_lastRepeat, fun p x b bs => advance_covered,
    fun p x => advance_lastCovered⟩

/-! ### The statement -/

/-- Settles O39: the start of a REP and of a PBLK, and the five places that a wave can retire an instruction at. -/
theorem prefixesAndRetiring : Obligations.PrefixesAndRetiring := ⟨prefixesStart, retiringAdvances⟩

end Sys2Proof.Machine
end

section
/-! PROOF. The checks of every instruction (R80, R83, R89, R92, R253): each instruction that a wave fetches is run with an effect of its
own, so what running can come to holds of all of them. -/

namespace Sys2Proof.Machine

open Sys2Proof.Claims

variable {i : Instr}

/-! ### Every instruction is run with an effect -/

/-- `g` runs `i` with one effect in every state. -/
def Runs (i : Instr) (g : State → State) : Prop := ∃ eff : State → Act, ∀ s, g s = run i s eff

theorem scalarImm_runs (f : K32) (op : Nat → Nat → Nat) : Runs i fun s => scalarImm i f s op :=
  ⟨_, fun s => by unfold scalarImm runScalar; rfl⟩

theorem scalarBin_runs (f : G64) (op : Nat → Nat → Nat → Nat) : Runs i fun s => scalarBin i f s op :=
  ⟨_, fun s => by unfold scalarBin runScalar; rfl⟩

theorem branch_runs (g : Wave → Bool) (x : Wave → DWord) : Runs i fun s => branch i s g x :=
  ⟨_, fun s => by unfold branch runWave; rfl⟩

theorem vecImm_runs (f : K32) (op : Nat → Nat → Nat) : Runs i fun s => vecImm i f s op :=
  ⟨_, fun s => by unfold vecImm runVector; rfl⟩

theorem compact_runs (f : C16) (op : Nat → Nat → Nat) : Runs i fun s => compact i f s op :=
  ⟨_, fun s => by unfold compact runVector; rfl⟩

theorem intBin_runs (f : G64) (op : Nat → Nat → Nat) : Runs i fun s => intBin i f s op :=
  ⟨_, fun s => by unfold intBin lanewise; rfl⟩

theorem compactFloat_runs (f : C16) (g : Nat → Word → Word → Word × Bool) : Runs i fun s => compactFloat i f s g :=
  ⟨_, fun s => by unfold compactFloat floatLanes; rfl⟩

theorem pairedHalves_runs (f : G64) (third : Bool) (g : Bool → FV → FV → FV → FV) : Runs i fun s => pairedHalves i f s third g :=
  ⟨_, fun s => by unfold pairedHalves floatLanes; rfl⟩

theorem callTo_runs (x : Wave → DWord) : Runs i fun s => callTo i s x :=
  ⟨_, fun s => by unfold callTo runWave; rfl⟩

theorem sfuUnary_runs (f : G64) (op : Nat) : Runs i fun s => sfuUnary i f s op :=
  ⟨_, fun s => by unfold sfuUnary sfuLanes; rfl⟩

theorem Runs.exec {g : State → State} (hg : Runs i g) (he : ∀ s, exec i s = .next (g s)) :
    ∃ eff : State → Act, ∀ s, exec i s = .next (run i s eff) := by
  obtain ⟨eff, hrun⟩ := hg
  exact ⟨eff, fun s => (he s).trans (congrArg _ (hrun s))⟩

/-- Every instruction that a wave fetches is run with an effect. -/
theorem exec_eq_run (h : HasWords i) : ∃ eff : State → Act, ∀ s, exec i s = .next (run i s eff) := by
  cases i <;> try exact absurd h Bool.false_ne_true
  case saddK32 | ssubK32 | smulK32 | sandK32 | sorK32 | sxorK32 | sshlK32 | sshrK32 =>
    exact (scalarImm_runs ..).exec fun _ => rfl
  case smulG64 | smulh | sandG64 | sorG64 | sxorG64 | sminmax => exact (scalarBin_runs ..).exec fun _ => rfl
  case braB32 | braL64 | brcB32 | brcL64 | brmB32 | brmL64 | ret | jmpi => exact (branch_runs ..).exec fun _ => rfl
  case callB32 | callL64 => exact (callTo_runs ..).exec fun _ => rfl
  case vaddK32 | vsubK32 | vandK32 | vorK32 | vxorK32 => exact (vecImm_runs ..).exec fun _ => rfl
  case vaddG64 | vsubG64 | vmul | vmulh | vandG64 | vorG64 | vxorG64 | vshl | vshr | vmin | vmax | vpack | vabsd =>
    exact (intBin_runs ..).exec fun _ => rfl
  case vaddC16 | vsubC16 | vmulC16 | vandC16 | vorC16 | vxorC16 | vshlC16 | vshrC16 | vminC16 | vmaxC16 | vmovC16 =>
    exact (compact_runs ..).exec fun _ => rfl
  case faddC16 | fsubC16 | fmulC16 | fminC16 | fmaxC16 => exact (compactFloat_runs ..).exec fun _ => rfl
  case hadd2 | hmul2 | hfma2 => exact (pairedHalves_runs ..).exec fun _ => rfl
  case frcp | frsq | fsqrt | flog2 | fexp2 | fsin | fcos | ftanh => exact (sfuUnary_runs ..).exec fun _ => rfl
  all_goals exact ⟨_, fun _ => rfl⟩

theorem checksComeFirst : ChecksComeFirst := by
  intro i hwords
  obtain ⟨eff, hexec⟩ := exec_eq_run hwords
  refine ⟨eff, fun s => ?_⟩
  simp only [hexec, Host.Outcome.next.injEq, ← Bool.or_eq_true, Bool.not_eq_true]
  refine ⟨fun hheld => ⟨fun c d hc => ?_, fun hc hp ha => ?_, fun ⟨hc, hp⟩ hk => ?_, fun ⟨hc, hp⟩ hk j hb => ?_,
    fun ⟨hc, hp⟩ hk hb => ?_⟩, fun h hheld => ?_⟩
  · exact run_checked hheld hc eff
  · exact run_noLane hheld hc hp ha eff
  · exact run_full hheld hc hp hk eff
  · exact run_bad hheld hc hp hk hb eff
  · exact run_ready hheld hc hp hk hb eff
  · exact run_held hheld eff

/-! ### The checks in their order (R83) -/

section
variable {s : State}

/-- The module has not accepted the feature of bit `b`, which `i` needs (R21). -/
def State.Lacks (s : State) (i : Instr) (b : Nat) : Prop := featureOf (insOp i) = some b ∧ s.mgmt.featacc.getLsbD b = false

/-- The wave in focus may not execute `i` where it runs (R82, R391, R393). -/
def State.Bars (s : State) (i : Instr) : Prop :=
  (privOp (insOp i) = true ∧ s.wave.priv = false) ∨ (insOp i = 0xB9 ∧ s.wave.priv = false ∧ s.wave.recovery = false) ∨
    (insOp i = 0xBB ∧ s.wave.recovery = false)

theorem State.bars_iff : (privOp (insOp i) && !s.wave.priv || insOp i == 0xB9 && !(s.wave.priv || s.wave.recovery) ||
    insOp i == 0xBB && !s.wave.recovery) = true ↔ s.Bars i := by
  simp only [State.Bars, Bool.or_eq_true, Bool.and_eq_true, Bool.not_eq_true', Bool.or_eq_false_iff, beq_iff_eq, or_assoc]

/-- A feature that is not accepted comes first. -/
theorem State.check_of_lacks {b : Nat} (h : s.Lacks i b) : s.check i = some (0x13, b) := by
  obtain ⟨hf, ha⟩ := h
  simp only [State.check, hf, Option.filter_some, ha, Bool.not_false, if_true]

/-- Otherwise the privilege is checked, and then the fields. -/
theorem State.check_of_not_lacks (h : ∀ b, ¬s.Lacks i b) : s.check i =
    if (privOp (insOp i) && !s.wave.priv || insOp i == 0xB9 && !(s.wave.priv || s.wave.recovery) ||
      insOp i == 0xBB && !s.wave.recovery) = true then some (3, 0)
    else if (!fieldsOk s.limits i) = true then some (2, 0) else none := by
  have hnone : (featureOf (insOp i)).filter (fun b => !s.mgmt.featacc.getLsbD b) = none := by
    rw [Option.filter_eq_none_iff]
    intro b hb ha
    exact h b ⟨hb, by simpa using ha⟩
  simp only [State.check, hnone]

end

theorem checksInOrder : ChecksInOrder := by
  intro s i w op absent barred
  refine ⟨fun b => State.check_of_lacks, fun hf hb => ?_, fun hf hb hx => ?_, fun hf hb hx => ?_⟩
  · rw [State.check_of_not_lacks hf, if_pos (State.bars_iff.mpr hb)]
  · rw [State.check_of_not_lacks hf, if_neg (mt State.bars_iff.mp hb), hx]
    rfl
  · rw [State.check_of_not_lacks hf, if_neg (mt State.bars_iff.mp hb), hx]
    rfl

/-- Settles O59: what running an instruction comes to holds of each, and the checks are made in the order of R83. -/
theorem checks : Obligations.Checks := ⟨checksComeFirst, checksInOrder⟩

end Sys2Proof.Machine
end

section
/-! PROOF. What ready instructions of the scalar path and the vector class post (R88, R108, R131), and the operations on numbers that
the model makes with them as operations on words (R72, R73, R107, R133, R134, R147, R148). -/

namespace Sys2Proof.Machine

open Sys2Proof.Claims

/-! ### Ready instructions -/

section
variable {s : State} {i : Instr}

theorem runScalar_of_ready (h : Ready i s) (f : Wave → List WaveWrite) :
    runScalar i s f = after s (insLen i) (landing s 2 (f s.wave)) := run_of_ready h _

theorem runVector_of_ready (h : Ready i s) (f : Wave → List WaveWrite) :
    runVector i s f = after s (insLen i) (landing s (Claims.vlat s.wave) (f s.wave)) := run_of_ready h _

/-- With no index register over its bound the instruction has its effect (R132). -/
theorem withIndex_of_indexOk {w : Wave} {f : G64} (h : IndexOk w f) (a : Act) : w.withIndex f a = a := by
  unfold Wave.withIndex
  split
  case isTrue hxe => rw [h hxe]
  case isFalse => rfl

variable {f : G64} (h : Ready i s) (hx : IndexOk s.wave f)
include h hx

theorem lanewise64_of_ready (g : Wave → Nat → DWord) :
    lanewise64 i f s g = after s (insLen i) (landing s (Claims.vlat s.wave) (vector64 s.wave f.d.toNat (g s.wave))) := by
  simp only [lanewise64, run_of_ready h, withIndex_of_indexOk hx]
  rfl

theorem lanePred_of_ready (g : Wave → Nat → Bool) :
    lanePred i f s g = after s (insLen i) (landing s (Claims.vlat s.wave) [maskLanes s.wave f.d.toNat (g s.wave)]) := by
  simp only [lanePred, run_of_ready h, withIndex_of_indexOk hx]
  rfl

theorem chained_of_ready (g : Nat → Nat → Bool → Nat × Bool) :
    chained i f s g = after s (insLen i) (landing s (Claims.vlat s.wave)
      [vector s.wave f.d.toNat fun L =>
          BitVec.ofNat 32 (g (s.wave.opA f L).toNat (s.wave.opB f L).toNat ((s.wave.mask f.c.toNat).getLsbD L)).1,
        maskLanes s.wave f.c.toNat fun L =>
          (g (s.wave.opA f L).toNat (s.wave.opB f L).toNat ((s.wave.mask f.c.toNat).getLsbD L)).2]) := by
  simp only [chained, run_of_ready h, withIndex_of_indexOk hx]
  rfl

end

/-! ### Operations on numbers and on words -/

section
variable {n : Nat}

theorem bits_eq_extractLsb' (x : BitVec n) (hi lo : Nat) : bits x hi lo = (x.extractLsb' lo (hi + 1 - lo)).toNat := by
  rw [bits, BitVec.extractLsb'_toNat, Nat.shiftRight_eq_div_pow]

/-- The signed value of a word (R133). -/
theorem sgn_toNat (x : BitVec n) : sgn n x.toNat = x.toInt := by
  have hx := x.isLt
  have hhalf : x.toNat < 2 ^ (n - 1) ↔ 2 * x.toNat < 2 ^ n := by
    cases n with
    | zero => simp [BitVec.eq_nil x]
    | succ n => rw [Nat.add_sub_cancel, Nat.pow_succ]; omega
  rw [sgn, Nat.mod_eq_of_lt hx, BitVec.toInt_eq_toNat_cond]
  simp only [hhalf]

/-- The comparisons by number, of numbers and of words (R73, R107). -/
theorem pred_toNat (p : Nat) (a b : BitVec n) : pred p n a.toNat b.toNat = Claims.compare p a b := by
  match p with
  | 0 => simp [pred, Claims.compare, beq_eq_beq, BitVec.toNat_inj]
  | 1 => simp [pred, Claims.compare, bne, beq_eq_beq, BitVec.toNat_inj]
  | 2 => simp [pred, Claims.compare, sgn_toNat, BitVec.slt]
  | 3 => simp [pred, Claims.compare, sgn_toNat, BitVec.sle]
  | 4 => simp [pred, Claims.compare, BitVec.ult]
  | 5 => simp [pred, Claims.compare, BitVec.ule]
  | 6 => simp [pred, Claims.compare, sgn_toNat, BitVec.slt]
  | p + 7 => simp [pred, Claims.compare, sgn_toNat, BitVec.sle]

theorem ofNat_wrap (z : Int) : BitVec.ofNat n (wrap n z) = BitVec.ofInt n z := by
  apply BitVec.eq_of_toNat_eq
  have hz : (z % (2 ^ n : Nat)).toNat < 2 ^ n := by
    have := Int.emod_lt_of_pos z (show (0 : Int) < (2 ^ n : Nat) by exact_mod_cast Nat.two_pow_pos n)
    omega
  rw [BitVec.toNat_ofNat, BitVec.toNat_ofInt, wrap, Nat.mod_eq_of_lt hz]

theorem ofNat_subMod (a b : BitVec n) : BitVec.ofNat n (subMod n a.toNat b.toNat) = a - b := by
  apply BitVec.eq_of_toNat_eq
  have hb := b.isLt
  rw [BitVec.toNat_ofNat, subMod, Nat.mod_mod, BitVec.toNat_sub]
  congr 1
  omega

theorem ofNat_shiftL (a : BitVec n) (k : Nat) : BitVec.ofNat n (shiftL n a.toNat k) = a <<< k := by
  unfold shiftL
  split
  case isTrue hk => rw [BitVec.shiftLeft_eq_zero hk]
  case isFalse =>
    apply BitVec.eq_of_toNat_eq
    rw [BitVec.toNat_ofNat, Nat.mod_mod, BitVec.toNat_shiftLeft, Nat.shiftLeft_eq]

theorem nbit_toNat (a : BitVec n) (k : Nat) : nbit a.toNat k = a.getLsbD k := by
  rw [nbit, BitVec.getLsbD, Nat.testBit_eq_decide_div_mod_eq]

/-- A shift right by the width or more leaves the sign in every bit. -/
theorem sshiftRight_of_le (a : BitVec n) {k : Nat} (hk : n ≤ k) : a.sshiftRight k = if a.msb then BitVec.allOnes n else 0 := by
  apply BitVec.eq_of_getLsbD_eq
  intro j hj
  have hkj : ¬ k + j < n := by omega
  rw [BitVec.getLsbD_sshiftRight, decide_eq_false (show ¬ n ≤ j by omega), if_neg hkj]
  cases a.msb <;> simp [hj]

theorem ofNat_two_pow_sub_one : BitVec.ofNat n (2 ^ n - 1) = BitVec.allOnes n := by
  apply BitVec.eq_of_toNat_eq
  simp

theorem ofNat_shiftR (a : BitVec n) (k : Nat) (arith : Bool) :
    BitVec.ofNat n (shiftR n a.toNat k arith) = if arith then a.sshiftRight k else a >>> k := by
  unfold shiftR
  split
  case isTrue hk =>
    cases arith
    · rw [BitVec.ushiftRight_eq_zero hk]
      rfl
    · rw [Bool.true_and, nbit_toNat, ← BitVec.msb_eq_getLsbD_last, if_pos rfl, sshiftRight_of_le a hk]
      cases a.msb
      · rfl
      · exact ofNat_two_pow_sub_one
  case isFalse hk =>
    cases arith
    · apply BitVec.eq_of_toNat_eq
      have hlt : a.toNat / 2 ^ k < 2 ^ n := Nat.lt_of_le_of_lt (Nat.div_le_self ..) a.isLt
      simp [Nat.shiftRight_eq_div_pow, Nat.mod_eq_of_lt hlt]
    · simp only [if_true, ofNat_wrap, sgn_toNat, BitVec.sshiftRight, Int.shiftRight_eq_div_pow]

theorem ofNat_minmax (greater : Bool) (a b : BitVec n) :
    BitVec.ofNat n (minmax (if greater then 1 else 0) n a.toNat b.toNat) = extreme greater false n a b := by
  have hle : a.sle b = decide (sgn n a.toNat ≤ sgn n b.toNat) := by rw [sgn_toNat, sgn_toNat, BitVec.sle]
  cases greater <;> by_cases h : sgn n a.toNat ≤ sgn n b.toNat <;> simp [minmax, extreme, hle, h]

theorem ofNat_addC (a b : BitVec n) (c : Bool) :
    BitVec.ofNat n (addC n a.toNat b.toNat c).1 = a + b + BitVec.ofNat n (if c then 1 else 0) := by
  apply BitVec.eq_of_toNat_eq
  simp [addC]

theorem addC_carry (a b : BitVec n) (c : Bool) :
    (addC n a.toNat b.toNat c).2 = decide (2 ^ n ≤ a.toNat + b.toNat + if c then 1 else 0) := by
  have hlt : a.toNat + b.toNat + (if c then 1 else 0) < 2 * 2 ^ n := by
    have := a.isLt
    have := b.isLt
    split <;> omega
  rw [addC, nbit, decide_eq_decide]
  generalize a.toNat + b.toNat + (if c then 1 else 0) = t at hlt
  have hq : t / 2 ^ n < 2 := Nat.div_lt_of_lt_mul (by omega)
  rw [Nat.mod_eq_of_lt hq, ← Nat.one_le_div_iff (Nat.two_pow_pos n)]
  omega

theorem ofNat_subB (a b : BitVec n) (c : Bool) :
    BitVec.ofNat n (subB n a.toNat b.toNat c).1 = a - b - BitVec.ofNat n (if c then 1 else 0) := by
  simp only [subB, ofNat_wrap]
  rw [Int.sub_eq_add_neg, Int.sub_eq_add_neg, BitVec.ofInt_add, BitVec.ofInt_add, ← BitVec.neg_ofNat_eq_ofInt_neg,
    BitVec.ofInt_natCast, BitVec.ofNat_toNat]
  cases c <;> simp [BitVec.sub_eq_add_neg, BitVec.neg_ofNat_eq_ofInt_neg]

theorem subB_borrow (a b : BitVec n) (c : Bool) :
    (subB n a.toNat b.toNat c).2 = decide (a.toNat < b.toNat + if c then 1 else 0) := by
  simp only [subB, decide_eq_decide]
  split <;> omega

end

end Sys2Proof.Machine
end

section
/-! PROOF. Compares of scalars and of vectors, vector instructions with an immediate, compact ones, carry chains and 64-bit ones (R72,
R73, R107, R108, R133, R134, R145, R147, R148). -/

namespace Sys2Proof.Machine

open Sys2Proof.Claims

/-! ### Compares of scalars -/

theorem pred_sopN (w : Wave) (p : Nat) (wide : Bool) (x y : BitVec 8) :
    pred p (if wide then 64 else 32) (w.sopN wide x) (w.sopN wide y) =
      if wide then Claims.compare p (w.sop64 x) (w.sop64 y) else Claims.compare p (w.sop x) (w.sop y) := by
  cases wide
  · exact pred_toNat p (w.sop x) (w.sop y)
  · exact pred_toNat p (w.sop64 x) (w.sop64 y)

theorem pred_sopN_imm (w : Wave) (p : Nat) (wide : Bool) (x : BitVec 8) (imm : Word) :
    pred p (if wide then 64 else 32) (w.sopN wide x) (if wide then (imm.signExtend 64).toNat else imm.toNat) =
      if wide then Claims.compare p (w.sop64 x) (imm.signExtend 64) else Claims.compare p (w.sop x) imm := by
  cases wide
  · exact pred_toNat p (w.sop x) imm
  · exact pred_toNat p (w.sop64 x) (imm.signExtend 64)

/-- Settles O1: the two forms of SCMP compare numbers, and comparing the numbers of two words compares the words. -/
theorem scalarCompares : Obligations.ScalarCompares := by
  refine ⟨fun s f h => ?_, fun s f h => ?_⟩
  · change Host.Outcome.next (runScalar _ _ _) = _
    simp only [runScalar_of_ready h, pred_sopN, bits_eq_extractLsb', BitVec.ofNat_toNat]
    rfl
  · change Host.Outcome.next (runScalar _ _ _) = _
    simp only [runScalar_of_ready h, pred_sopN_imm, bits_eq_extractLsb']
    rfl

/-! ### Immediate and compact vector instructions -/

theorem vecImm_of_ready {i : Instr} {s : State} (h : Ready i s) (f : K32) (g : Nat → Nat → Nat) :
    vecImm i f s g = after s (insLen i) (landing s (Claims.vlat s.wave)
      [vector s.wave f.d.toNat fun L => BitVec.ofNat 32 (g (s.wave.vlane f.d.toNat L).toNat (simmK f).toNat)]) :=
  runVector_of_ready h _

theorem compact_of_ready {i : Instr} {s : State} (h : Ready i s) (f : C16) (g : Nat → Nat → Nat) :
    compact i f s g = after s (insLen i) (landing s (Claims.vlat s.wave)
      [vector s.wave f.vd.toNat fun L => BitVec.ofNat 32 (g (s.wave.vlane f.vd.toNat L).toNat (s.wave.vlane f.vb.toNat L).toNat)]) :=
  runVector_of_ready h _

/-- An operation on numbers that is `op` on words (R72, R134): what the model's lane-wise instructions make of it. -/
def Computes (g : Nat → Nat → Nat) (op : Word → Word → Word) : Prop := ∀ a b : Word, BitVec.ofNat 32 (g a.toNat b.toNat) = op a b

theorem computes_add : Computes (fun a b => a + b) fun a b => a + b := fun a b => by
  rw [BitVec.ofNat_add, BitVec.ofNat_toNat, BitVec.ofNat_toNat, BitVec.setWidth_eq, BitVec.setWidth_eq]

theorem computes_mul : Computes (fun a b => a * b) fun a b => a * b := fun a b => by
  rw [BitVec.ofNat_mul, BitVec.ofNat_toNat, BitVec.ofNat_toNat, BitVec.setWidth_eq, BitVec.setWidth_eq]

theorem computes_and : Computes (fun a b => a &&& b) fun a b => a &&& b := fun a b => by
  rw [BitVec.ofNat_and, BitVec.ofNat_toNat, BitVec.ofNat_toNat, BitVec.setWidth_eq, BitVec.setWidth_eq]

theorem computes_or : Computes (fun a b => a ||| b) fun a b => a ||| b := fun a b => by
  rw [BitVec.ofNat_or, BitVec.ofNat_toNat, BitVec.ofNat_toNat, BitVec.setWidth_eq, BitVec.setWidth_eq]

theorem computes_xor : Computes (fun a b => a ^^^ b) fun a b => a ^^^ b := fun a b => by
  rw [BitVec.ofNat_xor, BitVec.ofNat_toNat, BitVec.ofNat_toNat, BitVec.setWidth_eq, BitVec.setWidth_eq]

theorem computes_snd : Computes (fun _ b => b) fun _ b => b := fun _ b => by
  rw [BitVec.ofNat_toNat, BitVec.setWidth_eq]

theorem computes_shiftR_false : Computes (fun a b => shiftR 32 a b false) fun a b => a >>> b.toNat :=
  fun a b => ofNat_shiftR a b.toNat false

section
variable {s : State} {i : Instr} {g : Nat → Nat → Nat} {op : Word → Word → Word}

theorem exec_vecImm {f : K32} (h : Ready i s) (hg : Computes g op) (he : exec i s = .next (vecImm i f s g)) (hl : insLen i = 4) :
    exec i s = .next (after s 4 (landing s (Claims.vlat s.wave)
      [vector s.wave f.d.toNat fun L => op (s.wave.vlane f.d.toNat L) (f.imm.signExtend 32)])) := by
  simp only [he, vecImm_of_ready h, hg _ _, hl]
  rfl

theorem exec_compact {f : C16} (h : Ready i s) (hg : Computes g op) (he : exec i s = .next (compact i f s g)) (hl : insLen i = 2) :
    exec i s = .next (after s 2 (landing s (Claims.vlat s.wave)
      [vector s.wave f.vd.toNat fun L => op (s.wave.vlane f.vd.toNat L) (s.wave.vlane f.vb.toNat L)])) := by
  simp only [he, compact_of_ready h, hg _ _, hl]

end

/-- Settles O5: each instruction makes an operation on numbers, lane by lane, that is one on words. -/
theorem vectorImmediateAndCompactResults : Obligations.VectorImmediateAndCompactResults := by
  refine ⟨fun s f => ?_, fun s f => ?_, fun s f h => ?_⟩
  · simp only [List.forall_mem_cons, List.not_mem_nil, false_implies, implies_true, and_true]
    refine ⟨?_, ?_, ?_, ?_, ?_, fun h => ?_⟩
    · exact fun h => (exec_vecImm h computes_add rfl rfl :)
    · exact fun h => (exec_vecImm h ofNat_subMod rfl rfl :)
    · exact fun h => (exec_vecImm h computes_and rfl rfl :)
    · exact fun h => (exec_vecImm h computes_or rfl rfl :)
    · exact fun h => (exec_vecImm h computes_xor rfl rfl :)
    · exact congrArg Host.Outcome.next (runVector_of_ready h _)
  · simp only [List.forall_mem_cons, List.not_mem_nil, false_implies, implies_true, and_true]
    refine ⟨?_, ?_, ?_, ?_, ?_, ?_, ?_, ?_, ?_, ?_, ?_⟩
    · exact fun h => (exec_compact h computes_snd rfl rfl :)
    · exact fun h => (exec_compact h computes_add rfl rfl :)
    · exact fun h => (exec_compact h ofNat_subMod rfl rfl :)
    · exact fun h => (exec_compact h computes_mul rfl rfl :)
    · exact fun h => (exec_compact h computes_and rfl rfl :)
    · exact fun h => (exec_compact h computes_or rfl rfl :)
    · exact fun h => (exec_compact h computes_xor rfl rfl :)
    · exact fun h => (exec_compact h (fun a b => ofNat_shiftL a b.toNat) rfl rfl :)
    · exact fun h => (exec_compact h computes_shiftR_false rfl rfl :)
    · exact fun h => (exec_compact h (ofNat_minmax false) rfl rfl :)
    · exact fun h => (exec_compact h (ofNat_minmax true) rfl rfl :)
  · exact congrArg Host.Outcome.next (runVector_of_ready h _)

/-! ### Compares, carry chains and 64-bit instructions -/

theorem toNat_mul_toNat (a b : Word) : BitVec.ofNat 64 (a.toNat * b.toNat) = a.setWidth 64 * b.setWidth 64 := by
  rw [BitVec.ofNat_mul, BitVec.ofNat_toNat, BitVec.ofNat_toNat]

theorem toInt_mul_toInt (a b : Word) : BitVec.ofInt 64 (a.toInt * b.toInt) = a.signExtend 64 * b.signExtend 64 := by
  rw [BitVec.ofInt_mul]
  rfl

/-- Settles O6: the compares and carry chains by number are those of words, and so are the 64-bit operations. -/
theorem vectorCompareCarryAndWideResults : Obligations.VectorCompareCarryAndWideResults := by
  intro s k f
  refine ⟨fun h => ?_, ?_⟩
  · change Host.Outcome.next (runVector _ _ _) = _
    simp only [runVector_of_ready h, pred_toNat, bits_eq_extractLsb']
    rfl
  · simp only [List.forall_mem_cons, List.not_mem_nil, false_implies, implies_true, and_true]
    refine ⟨fun h hx => ?_, fun h hx => ?_, fun h hx => ?_, fun h hx => ?_, fun h hx => ?_, fun h hx => ?_, fun h hx => ?_⟩
    · change Host.Outcome.next (lanePred _ _ _ _) = _
      simp only [lanePred_of_ready h hx, pred_toNat]
      rfl
    · change Host.Outcome.next (lanePred _ _ _ _) = _
      simp only [lanePred_of_ready h hx, pred_toNat]
      rfl
    · change Host.Outcome.next (chained _ _ _ _) = _
      simp only [chained_of_ready h hx, ofNat_addC, addC_carry]
      rfl
    · change Host.Outcome.next (chained _ _ _ _) = _
      simp only [chained_of_ready h hx, ofNat_subB, subB_borrow]
      rfl
    · change Host.Outcome.next (lanewise64 _ _ _ _) = _
      simp only [lanewise64_of_ready h hx, toNat_mul_toNat, toInt_mul_toInt]
      rfl
    · change Host.Outcome.next (lanewise64 _ _ _ _) = _
      simp only [lanewise64_of_ready h hx, ofNat_shiftL]
      rfl
    · change Host.Outcome.next (lanewise64 _ _ _ _) = _
      simp only [lanewise64_of_ready h hx, ofNat_shiftR, beq_iff_eq]
      rfl

end Sys2Proof.Machine
end

section
/-! PROOF. Scalar and floating-point operand forms (R69, R104, R135). -/

namespace Sys2Proof.Machine

/-! ### Scalar operands -/

section
variable (w : Wave) {f : BitVec 8}

theorem sop_const (h : 128 ≤ f.toNat) : w.sop f = BitVec.ofNat 32 (f.toNat - 128) := if_pos h

theorem sop64_const (h : 128 ≤ f.toNat) : w.sop64 f = BitVec.ofNat 64 (f.toNat - 128) := if_pos h

theorem sop_register (h : f.toNat < 128) : w.sop f = w.sreg f.toNat := if_neg (by omega)

theorem sop64_register (h : f.toNat < 128) : w.sop64 f = w.sreg (f.toNat + 1) ++ w.sreg f.toNat := if_neg (by omega)

/-- The numbers of the constants name no register (R69), where the scalars keep the canonical form of sparse cells. -/
theorem setS_sop_of_const (hs : cellsWf w.s = true) {k : Nat} (hk : 128 ≤ k) (x : Word) : (w.setS k x).sop f = w.sop f := by
  by_cases h : 128 ≤ f.toNat
  · rw [sop_const w h, sop_const _ h]
  · have hne : f.toNat ≠ k := by omega
    rw [sop_register w (by omega), sop_register _ (by omega)]
    simp only [Wave.sreg, Wave.setS, cget_cset hs, if_neg hne]

end

/-- A wave whose scalars are not in the canonical form: cell 3 is listed after cell 128, so that it reads as zero. -/
def unsortedScalars : Wave := { Wave.reset with s := [(128, 1), (3, 5)] }

/-- Writing zero to cell 128 takes it off the list, and cell 3 comes into view. -/
theorem setS_sop_unsortedScalars : (unsortedScalars.setS 128 0).sop 3 ≠ unsortedScalars.sop 3 := by decide

theorem not_scalarOperandForms : ¬ Claims.ScalarOperandForms := by
  intro h
  obtain ⟨-, -, hconst⟩ := h unsortedScalars 3
  exact setS_sop_unsortedScalars (hconst 128 (by decide) 0)

/-! ### Floating-point operands -/

theorem fpBits_const {sc : Bool} {f : BitVec 8} (hs : sc = true) (h : 128 ≤ f.toNat) (x : Word) :
    fpBits sc f x = fround 0 (FV.ofInt (f.toNat - 128 : Nat)) := by
  rw [fpBits, isConst, hs, decide_eq_true h]
  rfl

theorem fpBits_lane (f : BitVec 8) (x : Word) : fpBits false f x = x := rfl

theorem opA_vector {w : Wave} {f : G64} (hx : f.xe = false) (hs : f.sa = false) (L : Nat) : w.opA f L = w.vlane f.a.toNat L := by
  rw [Wave.opA, hx, hs]
  rfl

theorem opB_vector {w : Wave} {f : G64} (hs : f.sb = false) (L : Nat) : w.opB f L = w.vlane f.b.toNat L := by
  rw [Wave.opB, hs]
  rfl

theorem floatOperandForms : Claims.FloatOperandForms := by
  intro w f _
  refine ⟨fun _ hs h => fpBits_const hs h _, fun hs h => fpBits_const hs h _, fun hs => ?_, fun hx hs => ?_, rfl, rfl⟩
  · rw [Wave.fb0, opB_vector hs, hs, fpBits_lane]
  · rw [Wave.fa0, opA_vector hx hs, hs, fpBits_lane]

/-- Refutes O35: its last clause on scalar operands is asked of every list of cells, and fails where cell 3 is listed after cell 128.
The other clauses hold of every wave (`sop_const`, `sop64_const`, `sop_register`, `sop64_register`, `floatOperandForms`), and the last
one of every wave whose scalars are in the canonical form (`setS_sop_of_const`). -/
theorem not_operandForms : ¬ Obligations.OperandForms := fun ⟨h, _⟩ => not_scalarOperandForms h

end Sys2Proof.Machine
end

section
/-! PROOF. Floating-point arithmetic: each active lane's value is rounded once, and the first NaN is reported (R72, R135, R136, R178). -/

namespace Sys2Proof.Machine

open Sys2Proof.Claims

section
variable {w : Wave} {made : Nat → Bool}

theorem mem_actList {L : Nat} : L ∈ w.actList ↔ L < 64 ∧ w.act.getLsbD L = true := by
  rw [Wave.actList, laneList, List.mem_filter, List.mem_range]

/-- The lowest active lane with a property is the first that the list of active lanes gives. -/
theorem find?_actList {L : Nat} (h : LowestLane w made L) : w.actList.find? made = some L := by
  obtain ⟨hlt, hact, hmade, hbelow⟩ := h
  rw [Wave.actList, laneList, List.find?_filter, List.find?_range_eq_some]
  refine ⟨?_, List.mem_range.mpr hlt, fun j hj => ?_⟩
  · simp [hact, hmade]
  · by_cases hj' : w.act.getLsbD j = true
    · simp [hbelow j hj hj']
    · simp [hj']

theorem firstNan_eq_none (h : w.fpctl.getLsbD 8 = false ∨ ∀ L < 64, w.act.getLsbD L = true → made L = false) :
    w.firstNan made = none := by
  unfold Wave.firstNan
  split
  case isFalse => rfl
  case isTrue ht =>
    obtain hoff | hnone := h
    · exact absurd ht (by rw [Wave.nanTrap, hoff]; exact Bool.false_ne_true)
    · refine List.find?_eq_none.mpr fun L hL => ?_
      obtain ⟨hlt, hact⟩ := mem_actList.mp hL
      simp [hnone L hlt hact]

theorem firstNan_eq_some (ht : w.fpctl.getLsbD 8 = true) {L : Nat} (h : LowestLane w made L) : w.firstNan made = some L := by
  rw [Wave.firstNan, Wave.nanTrap, if_pos ht, find?_actList h]

end

/-! ### Lane-wise floating-point results -/

section
variable {s : State} {i : Instr} {f : G64} {g : Wave → Nat → Word × Bool}

theorem floatLanes_of_ready (h : Ready i s) (hx : IndexOk s.wave f) (engine : Nat) :
    floatLanes i f s engine g = match s.wave.firstNan fun L => (g s.wave L).2 with
      | some L => s.faultAt 0x0E L (BitVec.ofNat 64 engine)
      | none => after s (insLen i) (landing s (Claims.vlat s.wave) [vector s.wave f.d.toNat fun L => (g s.wave L).1]) := by
  rw [floatLanes, run_of_ready h]
  simp only [withIndex_of_indexOk hx]
  cases s.wave.firstNan fun L => (g s.wave L).2 <;> rfl

/-- An instruction whose lanes are FP32 results rounds once (R135, R178). -/
theorem roundsOnce_of_fresult {len engine m d : Nat} {ops : Nat → List FV} {v : Nat → FV}
    (h : Ready i s) (hx : IndexOk s.wave f) (he : exec i s = .next (floatLanes i f s engine g)) (hl : insLen i = len)
    (hd : f.d.toNat = d) (hg : ∀ L, g s.wave L = fresult m (ops L) (v L)) : RoundsOnce i s len engine d m ops v := by
  subst hl hd
  refine ⟨fun hnone => ?_, fun ht L hL => ?_⟩
  · simp only [he, floatLanes_of_ready h hx, hg, fresult, firstNan_eq_none hnone]
  · simp only [he, floatLanes_of_ready h hx, hg, fresult, firstNan_eq_some ht hL]

/-! ### The rounding mode -/

theorem fieldsOk_of_check (h : s.check i = none) : fieldsOk s.limits i = true := by
  unfold State.check at h
  simp only at h
  split at h
  · nomatch h
  · split at h
    · nomatch h
    · split at h
      · nomatch h
      · simp_all

/-- With SUB at most 5 the model's mode is that of R135. -/
theorem roundMode_eq_mode {w : Wave} (h : subLe f 5 = true) : w.roundMode f.sub.toNat = Claims.mode w f.sub := by
  have h6 : f.sub.toNat ≠ 6 := by
    have := of_decide_eq_true h
    omega
  simp only [Wave.roundMode, Claims.mode, if_neg h6, ← BitVec.toNat_inj]
  rfl

end

/-- A vector instruction that can issue meets the condition of its entry on MOD and SUB (R83). -/
theorem fields_of_ready {s : State} {i : Instr} {f : G64} {ok : Bool} {a b c : Role} (h : Ready i s) (hi : shapeOf i = vShape f ok a b c) :
    ok = true := by
  obtain ⟨-, -, hcheck, -⟩ := h
  have hok := fieldsOk_of_check hcheck
  simp only [fieldsOk, hi, vShape, Shape.ok, Bool.and_eq_true] at hok
  tauto

/-- The compact forms read `v[VD]` and `v[VB]` in the mode of FPCTL (R72). -/
theorem roundsOnce_of_compactFloat {s : State} {i : Instr} {f : C16} {g : Nat → Word → Word → Word × Bool} {v : Nat → FV}
    (h : Ready i s) (he : exec i s = .next (compactFloat i f s g)) (hl : insLen i = 2)
    (hg : ∀ L, g (s.wave.fpctl.toNat % 8) (s.wave.vlane f.vd.toNat L) (s.wave.vlane f.vb.toNat L) =
      fresult (s.wave.fpctl.toNat % 8) [fval (s.wave.vlane f.vd.toNat L), fval (s.wave.vlane f.vb.toNat L)] (v L)) :
    RoundsOnce i s 2 0 f.vd.toNat (s.wave.fpctl.toNat % 8)
      (fun L => [fval (s.wave.vlane f.vd.toNat L), fval (s.wave.vlane f.vb.toNat L)]) v := by
  refine roundsOnce_of_fresult (f := c16Equiv f) h nofun he hl ?_ hg
  exact BitVec.toNat_setWidth_of_le (by decide)

theorem floatArithmeticResults : FloatArithmeticResults := by
  intro s
  refine ⟨fun f => ?_, fun f => ?_⟩
  · simp only [List.forall_mem_cons, List.not_mem_nil, false_implies, implies_true, and_true]
    refine ⟨fun h hx => ?_, fun h hx => ?_, fun h hx => ?_, fun h hx => ?_, fun h hx => ?_, fun h hx => ?_⟩
    · rw [← roundMode_eq_mode (fields_of_ready h rfl)]
      exact roundsOnce_of_fresult h hx rfl rfl rfl fun _ => rfl
    · rw [← roundMode_eq_mode (fields_of_ready h rfl)]
      exact roundsOnce_of_fresult h hx rfl rfl rfl fun _ => rfl
    · rw [← roundMode_eq_mode (fields_of_ready h rfl)]
      exact roundsOnce_of_fresult h hx rfl rfl rfl fun _ => rfl
    · rw [← roundMode_eq_mode (fields_of_ready h rfl)]
      exact roundsOnce_of_fresult h hx rfl rfl rfl fun _ => rfl
    · have hsub := fields_of_ready h rfl
      rw [Bool.and_eq_true] at hsub
      rw [← roundMode_eq_mode hsub.2]
      exact roundsOnce_of_fresult h hx rfl rfl rfl fun _ => rfl
    · have hsub := fields_of_ready h rfl
      rw [Bool.and_eq_true] at hsub
      rw [← roundMode_eq_mode hsub.2]
      exact roundsOnce_of_fresult h hx rfl rfl rfl fun _ => rfl
  · simp only [List.forall_mem_cons, List.not_mem_nil, false_implies, implies_true, and_true]
    refine ⟨fun h => ?_, fun h => ?_, fun h => ?_⟩
    · exact roundsOnce_of_compactFloat h rfl rfl fun _ => rfl
    · exact roundsOnce_of_compactFloat h rfl rfl fun _ => rfl
    · exact roundsOnce_of_compactFloat h rfl rfl fun _ => rfl

end Sys2Proof.Machine
end

section
/-! PROOF. Rounding FP32 numbers to FP32 (R135, R167): a number of the format is a multiple of its own last place, so that rounding, which
goes to a multiple of that place, leaves it. -/

namespace Sys2Proof.Machine

/-! ### Rounding what is a multiple of the last place -/

theorem bitLen_le {n p : Nat} (h : n < 2 ^ p) : bitLen n ≤ p := by
  unfold bitLen
  split
  case isTrue => exact Nat.zero_le p
  case isFalse hn => exact (Nat.log2_lt hn).mpr h

theorem bitLen_eq {n p : Nat} (hlo : 2 ^ p ≤ n) (hhi : n < 2 ^ (p + 1)) : bitLen n = p + 1 := by
  have hn : n ≠ 0 := by
    have := Nat.two_pow_pos p
    omega
  rw [bitLen, if_neg hn, (Nat.log2_eq_iff hn).mpr ⟨hlo, hhi⟩]

theorem roundTo_self (mode r : Nat) (neg : Bool) (n : Nat) (k : Int) : roundTo mode r neg n k k = n := by
  rw [roundTo, if_pos (Int.le_refl k), Int.sub_self]
  exact Nat.mul_one n

/-- The magnitude bits of a number whose last place is its quantum. -/
theorem roundMag_of_quantum {f : Fmt} {n : Nat} {k : Int} (hn : n ≠ 0) (hq : f.quantum n k = k) (mode r : Nat) (neg : Bool) :
    f.roundMag mode r neg n k = (k - f.qmin).toNat * 2 ^ f.m + n := by
  simp only [Fmt.roundMag, if_neg hn, hq, roundTo_self]

theorem roundMag_zero (f : Fmt) (mode r : Nat) (neg : Bool) (k : Int) : f.roundMag mode r neg 0 k = 0 := rfl

/-! ### FP32 (R167) -/

theorem fp32_qmin : fp32.qmin = -149 := rfl
theorem fp32_top : fp32.top = 255 * 2 ^ 23 - 1 := rfl

theorem fp32_quantum_subnormal {n : Nat} (h : n < 2 ^ 23) : fp32.quantum n fp32.qmin = fp32.qmin := by
  have hlen := bitLen_le h
  rw [Fmt.quantum, fp32_qmin, show fp32.m = 23 from rfl]
  omega

theorem fp32_quantum_normal {n ex : Nat} (hlo : 2 ^ 23 ≤ n) (hhi : n < 2 ^ 24) :
    fp32.quantum n (fp32.qmin + ex) = fp32.qmin + ex := by
  rw [Fmt.quantum, bitLen_eq hlo hhi, fp32_qmin, show fp32.m = 23 from rfl]
  omega

/-- The magnitude bits of a finite number, from its exponent and its fraction. -/
theorem fp32_roundMag_subnormal {fr : Nat} (h : fr < 2 ^ 23) (mode : Nat) (neg : Bool) :
    fp32.roundMag mode 0 neg fr fp32.qmin = fr := by
  obtain rfl | hfr := Nat.eq_zero_or_pos fr
  · exact roundMag_zero ..
  · rw [roundMag_of_quantum hfr.ne' (fp32_quantum_subnormal h), Int.sub_self]
    exact Nat.zero_add fr

theorem fp32_roundMag_normal {ex fr : Nat} (h : fr < 2 ^ 23) (mode : Nat) (neg : Bool) :
    fp32.roundMag mode 0 neg (fr + 2 ^ 23) (fp32.qmin + ex) = (ex + 1) * 2 ^ 23 + fr := by
  have hpos : fr + 2 ^ 23 ≠ 0 := by omega
  rw [roundMag_of_quantum hpos (fp32_quantum_normal (by omega) (by omega)), show fp32.m = 23 from rfl]
  omega

/-- A finite number below the overflow threshold is its sign and its magnitude bits. -/
theorem fp32_round_of_roundMag {mode n mag : Nat} {neg : Bool} {k : Int} (h : fp32.roundMag mode 0 neg n k = mag) (hmag : mag < 255 * 2 ^ 23) :
    fp32.round mode (.num neg n k) = fp32.signed neg mag := by
  have htop : ¬ fp32.top < mag := by
    rw [fp32_top]
    omega
  simp only [Fmt.round, h, if_neg htop]

/-- A word of FP32 is its sign, its exponent and its fraction. -/
theorem fp32_fields (x : Word) :
    fp32.signed (nbit x.toNat 31) (x.toNat / 2 ^ 23 % 2 ^ 8 * 2 ^ 23 + x.toNat % 2 ^ 23) = x.toNat := by
  have hx := x.isLt
  have hsign : (if nbit x.toNat 31 then fp32.signBit else 0) = x.toNat / 2 ^ 31 * 2 ^ 31 := by
    rw [show fp32.signBit = 2 ^ 31 from rfl, nbit]
    by_cases hs : x.toNat / 2 ^ 31 % 2 = 1
    · rw [decide_eq_true hs, if_pos rfl]
      omega
    · rw [decide_eq_false hs, if_neg Bool.false_ne_true]
      omega
  rw [Fmt.signed, hsign]
  omega

/-- The value of an encoding by its exponent (R167). -/
theorem fp32_val (x : Nat) {neg : Bool} {ex fr : Nat} (hneg : nbit x 31 = neg) (hex : x / 2 ^ 23 % 2 ^ 8 = ex) (hfr : x % 2 ^ 23 = fr) :
    fp32.val x = if ex = 255 then (if fr = 0 then .inf neg else .nan)
      else if ex = 0 then .num neg fr fp32.qmin else .num neg (fr + 2 ^ 23) (fp32.qmin + (ex - 1 : Nat)) := by
  subst hneg hex hfr
  by_cases h : x / 2 ^ 23 % 2 ^ 8 = 255
  · have hmax : (x / 2 ^ fp32.m % 2 ^ fp32.e == 2 ^ fp32.e - 1) = true := beq_iff_eq.mpr h
    rw [Fmt.val, hmax, if_pos h]
    rfl
  · have hmax : (x / 2 ^ fp32.m % 2 ^ fp32.e == 2 ^ fp32.e - 1) = false := beq_eq_false_iff_ne.mpr h
    rw [Fmt.val, hmax, if_neg h]
    rfl

/-- Rounding gives back the bits of every encoding but those of NaN. -/
theorem fp32_round_val (x : Word) (mode : Nat) (h : (fval x).isNan = false) : fp32.round mode (fval x) = x.toNat := by
  have hfrlt : x.toNat % 2 ^ 23 < 2 ^ 23 := Nat.mod_lt _ (by decide)
  have hexlt : x.toNat / 2 ^ 23 % 2 ^ 8 < 2 ^ 8 := Nat.mod_lt _ (by decide)
  have hfields := fp32_fields x
  rw [fval] at h ⊢
  generalize hneg : nbit x.toNat 31 = neg at hfields
  generalize hex : x.toNat / 2 ^ 23 % 2 ^ 8 = ex at hfields hexlt
  generalize hfr : x.toNat % 2 ^ 23 = fr at hfields hfrlt
  rw [fp32_val x.toNat hneg hex hfr] at h ⊢
  rw [← hfields]
  split_ifs at h ⊢ with hmax hzero hsub
  · rw [hmax, hzero]
    rfl
  · nomatch h
  · rw [fp32_round_of_roundMag (fp32_roundMag_subnormal hfrlt mode neg) (by omega), hsub, Nat.zero_mul, Nat.zero_add]
  · have hmag : (ex - 1 + 1) * 2 ^ 23 + fr = ex * 2 ^ 23 + fr := by rw [Nat.sub_add_cancel (Nat.pos_of_ne_zero hsub)]
    rw [fp32_round_of_roundMag ((fp32_roundMag_normal hfrlt mode neg).trans hmag) (by omega)]

theorem roundingKeepsFp32Numbers : Claims.RoundingKeepsFp32Numbers := by
  intro x m
  refine ⟨fun h => ?_, fun h => ?_⟩
  · rw [fround, fp32_round_val x m h, BitVec.ofNat_toNat, BitVec.setWidth_eq]
  · match hv : fval x, h with
    | .nan, _ => rfl

/-- Settles O43: the instructions round once, and rounding keeps what FP32 can hold. -/
theorem floatArithmetic : Obligations.FloatArithmetic := ⟨floatArithmeticResults, roundingKeepsFp32Numbers⟩

end Sys2Proof.Machine
end

section
/-! PROOF. WAIT (R94, R351): its word, the condition it holds its wave on, and what it leaves unordered; together they settle O3. -/

namespace Sys2Proof.Machine

open Sys2Proof.Claims

/-! ### The word and the fields of WAIT -/

/-- The fields that WAIT does not use are zero, CF 15 (R94). -/
abbrev WaitFieldsOk (f : L64) : Prop := f.imm.extractLsb' 24 8 = 0 ∧ f.sub7 = 0 ∧ f.d = 0 ∧ f.cf = 15

theorem extractLsb'_24_8_eq_zero_iff (x : Word) : x.extractLsb' 24 8 = 0 ↔ x.toNat < 2 ^ 24 := by
  rw [← BitVec.toNat_inj, BitVec.extractLsb'_toNat, Nat.shiftRight_eq_div_pow]
  have := x.isLt
  simp only [BitVec.ofNat_eq_ofNat, BitVec.toNat_ofNat]
  omega

theorem fieldsOk_wait (l : Limits) (f : L64) : fieldsOk l (.wait f) = true ↔ WaitFieldsOk f := by
  change (decide (f.imm.toNat < 2 ^ 24) && f.sub7 == 0 && f.d == 0 && f.cf == 15) = true ↔ _
  simp only [WaitFieldsOk, extractLsb'_24_8_eq_zero_iff, Bool.and_eq_true, decide_eq_true_eq, beq_iff_eq, and_assoc]

/-- WAIT is not privileged and needs no feature: its fields are all that is checked of it (R83). -/
theorem State.check_wait (s : State) (f : L64) : s.check (.wait f) = if fieldsOk s.limits (.wait f) then none else some (2, 0) := by
  cases h : fieldsOk s.limits (.wait f) <;> simp [State.check, h] <;> rfl

/-- A word of 64 bits that the opcode map gives an instruction reads as it, if its fields pass the checks. -/
theorem decodeTableWord_of_holds64 {z : BitVec 64} {i : Instr} (h : Holds64 z i) :
    decodeTableWord 64 z.toNat = if fieldsOk Limits.most i = true then some i else none := by
  have hz : toBytes (z.toNat % 2 ^ 64) 8 = bytes64 z := by
    rw [Nat.mod_eq_of_lt z.isLt]
    simp only [toBytes, bytes64, BitVec.extractLsb', Nat.shiftRight_eq_div_pow, Nat.div_div_eq_div_mul, Nat.reduceMul, Nat.reducePow,
      Nat.div_one]
  rw [decodeTableWord, hz, ← List.append_nil (bytes64 z), decode_bytes64 h]
  cases hf : fieldsOk Limits.most i <;> simp [accept, hf]

/-- The fields of WAIT stand in its word as R94 places them. -/
theorem decodeTableWord_wait {z : BitVec 64} (hl : z.extractLsb' 0 2 = 3) (ho : z.extractLsb' 9 8 = 0x1B) :
    decodeTableWord 64 z.toNat = if WaitFieldsOk (readL64 z) then some (Instr.wait (readL64 z)) else none := by
  have hz : Holds64 z (.wait (readL64 z)) := ⟨hl, by rw [ho]; rfl⟩
  simp only [decodeTableWord_of_holds64 hz, fieldsOk_wait]

/-! ### The condition (R94) -/

/-- Every class counter that the immediate names is at most its limit, and every general counter that it names is zero (R94). -/
theorem Wave.waitHolds_iff (w : Wave) (imm : Word) : w.waitHolds imm = true ↔
    (∀ j < 4, (imm.extractLsb' (4 * j) 4).toNat = 15 ∨ (cget w.k j).toNat ≤ (imm.extractLsb' (4 * j) 4).toNat) ∧
      ∀ j < 8, imm.getLsbD (16 + j) = true → cget w.k (4 + j) = 0 := by
  have hlimit (j : Nat) : bits imm (4 * j + 3) (4 * j) = (imm.extractLsb' (4 * j) 4).toNat := by
    rw [bits_eq_extractLsb', show 4 * j + 3 + 1 - 4 * j = 4 by omega]
  have hzero (j : Nat) : (cget w.k (4 + j)).toNat = 0 ↔ cget w.k (4 + j) = 0 := by
    rw [← BitVec.toNat_inj]
    rfl
  simp only [Wave.waitHolds, hlimit, Bool.and_eq_true, List.all_eq_true, List.mem_range, Bool.or_eq_true, beq_iff_eq,
    decide_eq_true_eq, Bool.not_eq_true', hzero, Wave.cnt, ← Bool.not_eq_true, imp_iff_not_or]

/-! ### What it orders (R351) -/

theorem Wave.foldl_joinHb (ids : List Nat) (g : Nat → Vec) (w : Wave) :
    ids.foldl (fun w i => w.joinHb (g i)) w = { w with hb := ids.foldl (fun v i => vecJoin v (g i)) w.hb } := by
  induction ids generalizing w with
  | nil => rfl
  | cons i ids ih => rw [List.foldl_cons, ih]; rfl

/-- WAIT changes the wave's happens-before and what is unordered. -/
theorem Wave.waited_eq (w : Wave) (imm : Word) : w.waited_ imm = { w with
    hb := (w.covered imm).foldl (fun v i => vecJoin v (engAll i)) w.hb
    unwaited := w.unwaited.filter fun p => !(w.covered imm).contains p.2 } := by
  rw [Wave.waited_, Wave.foldl_joinHb]

/-- An instruction that counts on a general counter named is covered. -/
theorem Wave.mem_covered_of_general {w : Wave} {imm : Word} {j : Nat} {p : Nat × Nat} (hj : j < 8)
    (hbit : imm.getLsbD (16 + j) = true) (hp : p ∈ w.unwaited) (hk : p.1 = 4 + j) : p.2 ∈ w.covered imm := by
  refine List.mem_flatMap.mpr ⟨4 + j, List.mem_range.mpr (by omega), ?_⟩
  rw [if_neg (by omega), show 16 + (4 + j - 4) = 16 + j by omega, if_pos hbit]
  exact List.mem_map.mpr ⟨p, List.mem_filter.mpr ⟨hp, by simp [hk]⟩, rfl⟩

theorem Wave.covered_nil {w : Wave} (imm : Word) (h : w.unwaited = []) : w.covered imm = [] := by
  simp [Wave.covered, h]

/-! ### The statement -/

/-- What WAIT comes to when it can issue: it retires once its condition holds, and until then nothing changes. -/
theorem exec_wait_of_ready {s : State} {f : L64} (h : Ready (.wait f) s) :
    exec (.wait f) s = .next (if s.wave.waitHolds f.imm then after s 8 (s.wave.waited_ f.imm) else s) := by
  refine congrArg Host.Outcome.next ((run_of_ready h _).trans ?_)
  split
  · rfl
  · exact settleNew_stay h.2.1

/-- Settles O3: the word and the fields, then the condition, and what is covered leaves the unordered. -/
theorem waitHoldsUntilCounters : Obligations.WaitHoldsUntilCounters := by
  intro s f limit holds reserved
  refine ⟨fun z hl ho => ?_, fun hbad hheld => ?_, fun h => ⟨?_, fun hholds => ⟨?_, ?_⟩, fun hnot => ?_⟩⟩
  · have himm : (z.extractLsb' 32 32).extractLsb' 24 8 = z.extractLsb' 56 8 := by
      refine BitVec.eq_of_getLsbD_eq fun i hi => ?_
      simp [BitVec.getLsbD_extractLsb', show 24 + i < 32 by omega, ← Nat.add_assoc]
    rw [decodeTableWord_wait hl ho]
    simp only [WaitFieldsOk, readL64, himm]
  · have hcheck : s.check (.wait f) = some (2, 0) := by rw [State.check_wait, if_neg (mt (fieldsOk_wait _ f).mp hbad)]
    exact congrArg _ ((run_checked hheld hcheck _).trans (by rw [Nat.zero_add]))
  · obtain ⟨-, -, hcheck, -⟩ := h
    rw [State.check_wait] at hcheck
    by_contra hbad
    rw [if_neg (mt (fieldsOk_wait _ f).mp hbad)] at hcheck
    cases hcheck
  · rw [exec_wait_of_ready h, if_pos ((s.wave.waitHolds_iff f.imm).mpr hholds)]
  · refine ⟨_, _, s.wave.waited_eq f.imm, fun hnone => ?_, fun p hp => ?_⟩
    · simp [Wave.covered_nil f.imm hnone, hnone]
    · obtain ⟨hin, hfree⟩ := List.mem_filter.mp hp
      refine ⟨hin, fun j hj hbit hk => ?_⟩
      simp [Wave.mem_covered_of_general hj hbit hin hk] at hfree
  · rw [exec_wait_of_ready h, if_neg (mt (s.wave.waitHolds_iff f.imm).mp hnot)]

end Sys2Proof.Machine
end

section
/-! PROOF. Issue (R87, R91, R96, R99, R100, R128): the wave that a pipe chooses, a pipe with one wave, the ends of a wave's waits, and
the grant of the one request that stands; together they settle O16. -/

namespace Sys2Proof.Machine

open Sys2Proof.Claims

/-! ### The wave that a pipe chooses (R100) -/

section
variable {s : State} {core : Nat} {l : List Nat} {n : Nat}

/-- Age of the wave of a slot. -/
def State.ageOf (s : State) (core n : Nat) : Nat := ((s.findWave core n).map Wave.age).getD 0

/-- Is the wave of a slot promoted? -/
def State.promotedAt (s : State) (core n : Nat) : Bool := ((s.findWave core n).map Wave.promoted).getD false

/-- Slot `n` is at least as old as slot `x`: by Age, then by slot. -/
def State.NotAfter (s : State) (core n x : Nat) : Prop :=
  s.ageOf core n < s.ageOf core x ∨ (s.ageOf core n = s.ageOf core x ∧ n ≤ x)

theorem State.older_eq_true_iff {a b : Nat} :
    s.older core a b = true ↔ s.ageOf core a < s.ageOf core b ∨ (s.ageOf core a = s.ageOf core b ∧ a < b) := by
  simp only [State.older, State.ageOf, Bool.or_eq_true, Bool.and_eq_true, decide_eq_true_eq, beq_iff_eq]

/-- The eldest slot of a list, as `State.choose` finds it. -/
def State.eldest (s : State) (core : Nat) (l : List Nat) : Option Nat := l.foldl (fun b n => match b with
  | some m => if s.older core n m then some n else b
  | none => some n) none

theorem State.choose_eq (s : State) (core : Nat) (l : List Nat) : s.choose core l =
    if l.contains 15 then some 15 else (s.eldest core (l.filter (s.promotedAt core))).orElse fun _ => s.eldest core l := rfl

/-- The fold that seeks the eldest, from a candidate `m`. -/
theorem State.eldest_from (s : State) (core : Nat) (l : List Nat) (m : Nat) :
    ∃ n, l.foldl (fun b n => match b with
      | some m => if s.older core n m then some n else b
      | none => some n) (some m) = some n ∧ (n = m ∨ n ∈ l) ∧ s.NotAfter core n m ∧ ∀ x ∈ l, s.NotAfter core n x := by
  induction l generalizing m with
  | nil => exact ⟨m, rfl, .inl rfl, .inr ⟨rfl, Nat.le_refl m⟩, nofun⟩
  | cons y l ih =>
    rw [List.foldl_cons]
    by_cases hy : s.older core y m = true
    · obtain ⟨n, hn, hmem, hle, hall⟩ := ih y
      rw [State.older_eq_true_iff] at hy
      refine ⟨n, by simpa only [hy, State.older_eq_true_iff.mpr hy, if_true] using hn, ?_, ?_, ?_⟩
      · simp only [List.mem_cons]; tauto
      · simp only [State.NotAfter] at hle ⊢; omega
      · exact List.forall_mem_cons.mpr ⟨hle, hall⟩
    · obtain ⟨n, hn, hmem, hle, hall⟩ := ih m
      refine ⟨n, by simpa only [hy, Bool.false_eq_true, if_false] using hn, ?_, hle, List.forall_mem_cons.mpr ⟨?_, hall⟩⟩
      · simp only [List.mem_cons]; tauto
      · rw [State.older_eq_true_iff] at hy
        simp only [State.NotAfter] at hle ⊢; omega

/-- The eldest of a list is one of it, and none of it comes before. -/
theorem State.eldest_eq_some (h : s.eldest core l = some n) : n ∈ l ∧ ∀ x ∈ l, s.NotAfter core n x := by
  cases l with
  | nil => cases h
  | cons y l =>
    obtain ⟨n', hn, hmem, hle, hall⟩ := s.eldest_from core l y
    obtain rfl : n' = n := Option.some.inj (hn.symm.trans h)
    exact ⟨List.mem_cons.mpr hmem, List.forall_mem_cons.mpr ⟨hle, hall⟩⟩

/-- Only an empty list has no eldest. -/
theorem State.eldest_eq_none (h : s.eldest core l = none) : l = [] := by
  cases l with
  | nil => rfl
  | cons y l =>
    obtain ⟨n, hn, -⟩ := s.eldest_from core l y
    cases hn.symm.trans h

/-- Without slot 15, a pipe chooses the eldest of the promoted waves, or of all where none is promoted (R100). -/
theorem State.choose_eq_some (h : s.choose core l = some n) (h15 : 15 ∉ l) : n ∈ l ∧
    (∀ x ∈ l, s.promotedAt core x = true → s.promotedAt core n = true) ∧
    ∀ x ∈ l, s.promotedAt core x = s.promotedAt core n → s.NotAfter core n x := by
  rw [State.choose_eq, if_neg (by simpa using h15)] at h
  cases hp : s.eldest core (l.filter (s.promotedAt core)) with
  | some m =>
    obtain rfl : m = n := Option.some.inj (by rwa [hp] at h)
    obtain ⟨hmem, hall⟩ := State.eldest_eq_some hp
    obtain ⟨hml, hm⟩ := List.mem_filter.mp hmem
    exact ⟨hml, fun _ _ _ => hm, fun x hx heq => hall x (List.mem_filter.mpr ⟨hx, heq.trans hm⟩)⟩
  | none =>
    rw [hp] at h
    obtain ⟨hmem, hall⟩ := State.eldest_eq_some h
    have hnone := List.filter_eq_nil_iff.mp (State.eldest_eq_none hp)
    exact ⟨hmem, fun x hx hpx => absurd hpx (hnone x hx), fun x hx _ => hall x hx⟩

theorem State.choose_singleton (s : State) (core n : Nat) : s.choose core [n] = some n := by
  rw [State.choose_eq]
  by_cases h15 : n = 15
  · simp [h15]
  · cases hp : s.promotedAt core n <;> simp [hp, State.eldest, Ne.symm h15]

end

/-! ### A pipe with one wave (R91, R99, R100) -/

section
variable {s : State} {i : Instr}

theorem exec_pipeIssue (core pipe : Nat) (s : State) : exec (.pipeIssue core pipe) s = execPipeIssue core pipe s := rfl

theorem State.mapWave_self (s : State) (f : Wave → Wave) :
    s.mapWave s.wave.core s.wave.slot f = { s with wave := f s.wave } := by
  rw [State.mapWave, if_pos s.wave.at_self]

/-- A wave in focus that is Ready for an instruction of no matrix class, with nothing in flight, is eligible as it stands. -/
theorem State.look_self (hpend : s.wave.pend = []) (hi : s.nextIns = some i) (hr : s.ready (some i) = true)
    (hm : isMatrix (some i) = false) : s.look s.wave.core s.wave.slot = (s, true) := by
  simp only [State.look, State.focus_self, landDue_nil s hpend, s.wave.at_self, hi, hr, hm, Bool.not_true, Bool.not_false,
    Bool.and_false, Bool.false_and, Bool.true_or, Bool.and_self, Bool.false_eq_true, if_false]

/-- The slots of a pipe that holds the wave in focus alone. -/
theorem State.pipe_slots_self (halone : ∀ v ∈ s.waves, v.core = s.wave.core → v.slot / 16 ≠ s.wave.slot / 16) :
    ((s.allWaves.filter fun w => w.core == s.wave.core && w.slot / 16 == s.wave.slot / 16).map fun w => w.slot) = [s.wave.slot] := by
  have hnone : s.waves.filter (fun w => w.core == s.wave.core && w.slot / 16 == s.wave.slot / 16) = [] := by
    rw [List.filter_eq_nil_iff]
    intro v hv hin
    simp only [Bool.and_eq_true, beq_iff_eq] at hin
    exact halone v hv hin.1 hin.2
  simp [State.allWaves, hnone]

theorem exec_pipeIssue_alone (halone : ∀ v ∈ s.waves, v.core = s.wave.core → v.slot / 16 ≠ s.wave.slot / 16)
    (hpend : s.wave.pend = []) (hi : s.nextIns = some i) (hr : s.ready (some i) = true) (hm : isMatrix (some i) = false)
    (hfree : tget 0 s.pipeFree (4 * s.wave.core + s.wave.slot / 16) ≤ s.clock) :
    exec (.pipeIssue s.wave.core (s.wave.slot / 16)) s = .next { s with
      chosen := true,
      pipeFree := tset s.pipeFree (4 * s.wave.core + s.wave.slot / 16) (s.clock + s.wave.issueClocks (some i)),
      wave := { s.wave with waited := 0, promoted := false, requested := false } } := by
  have hpick : (if decide (s.clock < tget 0 s.pipeFree (4 * s.wave.core + s.wave.slot / 16)) = true then none
      else s.choose s.wave.core [s.wave.slot]) = some s.wave.slot := by
    rw [if_neg (by simpa using hfree), State.choose_singleton]
  simp only [exec_pipeIssue, execPipeIssue, State.pipe_slots_self halone, List.foldl_cons, List.foldl_nil,
    State.look_self hpend hi hr hm, List.nil_append, if_true, hpick, beq_self_eq_true, State.issueSlot, State.focus_self, hi, ok]

end

/-! ### The ends of a wave's waits (R87, R100, R128) -/

section
variable {s : State} {i : Instr}

theorem exec_wavePromote_self (s : State) :
    exec (.wavePromote s.wave.core s.wave.slot) s = .next { s with wave := s.wave.promote } :=
  congrArg Host.Outcome.next (s.mapWave_self _)

theorem exec_yieldExpiry_self (h : s.wave.notBefore ≤ s.clock) :
    exec (.yieldExpiry s.wave.core s.wave.slot) s = .next { s with wave := { s.wave with notBefore := 0 } } :=
  congrArg Host.Outcome.next ((s.mapWave_self _).trans (by rw [if_pos h]))

theorem exec_distElapsed_self (hi : s.nextIns = some i) (h : s.wave.lastIssue + max (insDist i) 1 ≤ s.clock + 1) :
    exec (.distElapsed s.wave.core s.wave.slot) s = .next { s with wave := { s.wave with lastIssue := 0 } } := by
  have hdone : s.wave.distDone (some i) s.clock = true := by
    simp only [Wave.distDone, Bool.or_eq_true, decide_eq_true_eq]
    omega
  refine congrArg Host.Outcome.next ?_
  rw [State.focus_self, s.wave.at_self, hi, hdone, Bool.and_self, if_pos rfl]

end

/-! ### The one request that stands (R96) -/

/-- The die granted next is the only one whose queue is not empty. -/
theorem State.tokenDie_only {u : State} {d : Nat} (hd : d < 4) (hne : (u.die d).tokens ≠ [])
    (hrest : ∀ e < 4, e ≠ d → (u.die e).tokens = []) : u.tokenDie = some d := by
  cases hfind : u.tokenDie with
  | none =>
    have hall := List.find?_eq_none.mp hfind d
      (List.mem_map.mpr ⟨(d + 3 - u.lastDie % 4) % 4, List.mem_range.mpr (by omega), by omega⟩)
    simp [hne] at hall
  | some e =>
    have hqueue := List.find?_some hfind
    obtain ⟨i, -, hi⟩ := List.mem_map.mp (List.mem_of_find?_eq_some hfind)
    by_contra hed
    simp [hrest e (by omega) (fun h => hed (by rw [h]))] at hqueue

/-- As many grants are tried as there are requests: here one. -/
theorem State.requests_only {u : State} {d : Nat} {r : TokenReq} (hd : d < 4) (htok : (u.die d).tokens = [r])
    (hrest : ∀ e < 4, e ≠ d → (u.die e).tokens = []) : (List.range 4).foldl (fun n d => n + (u.die d).tokens.length) 0 = 1 := by
  have hlen (e : Nat) (he : e < 4) : (u.die e).tokens.length = if e = d then 1 else 0 := by
    by_cases h : e = d
    · simp [h, htok]
    · simp [h, hrest e he h]
  simp only [show List.range 4 = [0, 1, 2, 3] from rfl, List.foldl_cons, List.foldl_nil, hlen 0 (by decide), hlen 1 (by decide),
    hlen 2 (by decide), hlen 3 (by decide)]
  split_ifs <;> omega

/-- The wave in focus is granted the one token that it asks for. -/
theorem State.grantTokens_only {u : State} {d : Nat} {r : TokenReq} (hd : d < 4) (htok : (u.die d).tokens = [r])
    (hrest : ∀ e < 4, e ≠ d → (u.die e).tokens = []) (hneed : r.need = 1) (hfree : u.inuse < u.pool)
    (hparty : u.tokenParty r.core r.slot = some [(u.wave.core, u.wave.slot)]) : u.grantTokens 1 = { u with
      dies := tset u.dies d { u.die d with tokens := [] }, wave := { u.wave with granted := true }, inuse := u.inuse + 1, lastDie := d } := by
  have hdie := State.tokenDie_only hd (by simp [htok]) hrest
  have hlack : ¬u.freeTokens < 1 := by rw [State.freeTokens]; omega
  have hgrant := State.mapWave_self (u.setDie d { u.die d with tokens := [] }) fun w => { w with granted := true }
  rw [State.setDie_wave] at hgrant
  simp only [State.grantTokens, hdie, htok, hneed, hlack, if_false, hparty, Option.getD_some, List.foldl_cons, List.foldl_nil,
    List.length_singleton, hgrant]
  rfl

/-! ### The statement -/

/-- Settles O16: the choice, a pipe with one wave, the ends of the waits, and the grant, one lemma each. -/
theorem issueEvents : Obligations.IssueEvents := by
  refine ⟨fun s core n l h => ?_, fun s i => exec_pipeIssue_alone,
    fun s => ⟨fun h => ?_, fun h => ?_, exec_yieldExpiry_self, fun i hi h => exec_distElapsed_self hi h⟩,
    fun s d r => ?_⟩
  · by_cases h15 : 15 ∈ l
    · rw [State.choose_eq, if_pos (by simpa using h15)] at h
      obtain rfl := Option.some.inj h
      exact ⟨h15, fun _ => rfl, fun hn => absurd h15 hn⟩
    · obtain ⟨hmem, hpromoted, hall⟩ := State.choose_eq_some h h15
      exact ⟨hmem, fun hin => absurd hin h15, fun _ => ⟨hpromoted, hall⟩⟩
  · rw [exec_wavePromote_self, Wave.promote, if_pos h]
  · rw [exec_wavePromote_self, Wave.promote, if_neg (by omega)]
  · intro u hd htok hrest hneed hfree hparty
    exact congrArg Host.Outcome.next ((congrArg u.grantTokens (State.requests_only hd htok hrest)).trans
      (State.grantTokens_only hd htok hrest hneed hfree hparty))

end Sys2Proof.Machine
end

section
/-! PROOF. Completions (R281, R378): the statement O17 fails where a copy's scratchpad is bound and the host has a copy of the bound line.
The model asks the line back first and leaves the copy outstanding; the statement has the copy end at once. -/

namespace Sys2Proof.Machine

/-! ### A bound line that the host has -/

/-- A copy to 16 bytes at offset 0 of the scratchpad, of an element outside its tensor: the zero element (R280). -/
def outsideBulk : Bulk :=
  { id := 0, slot := 0, launch := 0, gslot := 0, obj := 64, st := false, td := 0, spoff := 0, org := [-1], ext := [1, 1, 1, 1], bytes := 16,
    items := none, dropped := [], wait := .ready, vc := [] }

/-- The first 256 bytes of the scratchpad, bound to the page at address 0 (R245). -/
def pageZeroBinding : Binding := { vbase := 0, len := 1, spoff := 0, grp := 0, tr := TransReg.reset, dirty := [] }

/-- A wave of group 0 in focus, whose core has that copy and that binding; the host has a copy of the bound line. -/
def hostHeldLine : State :=
  { State.reset with
    wave := { Wave.reset with slot := 0, gslot := 0, priv := false, idle := false },
    cores := [(0, { Core.reset with bulks := [outsideBulk], smap := [pageZeroBinding] })],
    dir := [(0, { dirReset with host := true })] }

/-- What the engine has once the one element has come. -/
def outsidePull : Pull := { got := [(0, 0, zeroRaw 0)], errs := [], bad := [] }

/-- The copies that a step leaves on core 0. -/
def bulksLeft : Host.Outcome State Fault Refusal → List Nat
  | .next t => (t.core 0).bulks.map Bulk.id
  | _ => []

/-- The line is bound where the copy goes and the host has it (R378), so the copy is still there after its step. -/
theorem hostHeldLine_bulksLeft :
    hostHeldLine.spadHeldIn 0 0 16 = some 0 ∧ bulksLeft (exec (.cpbByteAddition 0 0) hostHeldLine) = [0] := by decide +kernel

/-- The element is outside its tensor, so nothing is read and the engine changes nothing (R281). -/
theorem hostHeldLine_pullElems :
    (hostHeldLine.engineOn 0 []).pullElems outsideBulk (hostHeldLine.myLaunch.tensor 0) outsideBulk.elems { got := [], errs := [], bad := [] } =
      .ok (hostHeldLine.engineOn 0 []) outsidePull := rfl

/-- An instruction with the copy's number. -/
def numberZero : Outst :=
  { id := 0, cls := none, cf := none, pc := 0, issued := 0, holds := false, token := false, eff := .none, wait := .ready, vc := [] }

/-- What the statement promises: the image of the copy is in the scratchpad, and the copy has ended. -/
def promisedEnd : State :=
  let u := hostHeldLine.engineOn 0 []
  let image := outsideBulk.image (hostHeldLine.myLaunch.tensor 0) (u.spadRead 0 0 16) outsidePull.got
  (((u.spadWrite 0 0 0 image).clean (spadPa 0 0) 16).engineOff hostHeldLine).endBulk outsideBulk

/-- There the copy is gone. -/
theorem promisedEnd_bulksLeft : bulksLeft (.next promisedEnd) = [] := by decide +kernel

/-! ### The statement -/

/-- Refutes O17: CPB_BYTE_ADDITION in `hostHeldLine` meets every premise of the clause on bulk copies, which promises that the copy ends;
the model asks the host for the bound line first (R378), and the copy stays. -/
theorem not_completionEvents : ¬ Obligations.CompletionEvents := by
  intro h
  obtain ⟨-, -, -, -, -, -, -, -, -, -, hbulk, -⟩ := h hostHeldLine (hostHeldLine.engineOn 0 []) numberZero numberZero
  have hends : exec (.cpbByteAddition 0 0) hostHeldLine = .next promisedEnd :=
    hbulk outsideBulk (by decide) rfl rfl outsidePull hostHeldLine_pullElems rfl rfl
  obtain ⟨-, hleft⟩ := hostHeldLine_bulksLeft
  rw [hends, promisedEnd_bulksLeft] at hleft
  cases hleft

end Sys2Proof.Machine
end

section
/-! PROOF. Results in flight (R88 to R90, R105): what each kind of write leaves in the registers, which results are due, and where a
new one is queued; together they settle O26. -/

namespace Sys2Proof.Machine

open Sys2Proof.Claims

/-! ### A write of a row of lanes -/

section
variable {n : Nat} (sel : Lanes) (xs : List (BitVec n)) (r : Nat)

/-- Writing the selected ones of some lanes of row `r`, read back in lane `L` of row `q`. -/
theorem cget_foldl_lanes {q L : Nat} (hL : L < 64) {ls : List Nat} (hls : ∀ i ∈ ls, i < 64) {c : Cells n} (hc : cellsWf c = true) :
    cget (ls.foldl (fun c i => if sel.getLsbD i then cset c (64 * r + i) (xs.getD i 0) else c) c) (64 * q + L) =
      if q = r ∧ L ∈ ls ∧ sel.getLsbD L = true then xs.getD L 0 else cget c (64 * q + L) := by
  induction ls generalizing c with
  | nil => simp
  | cons i ls ih =>
    obtain ⟨hi, hls⟩ := List.forall_mem_cons.mp hls
    rw [List.foldl_cons]
    by_cases hsel : sel.getLsbD i = true
    · have hkey : 64 * q + L = 64 * r + i ↔ q = r ∧ L = i := by omega
      rw [if_pos hsel, ih hls (cellsWf_cset _ _ hc), cget_cset hc]
      by_cases hq : q = r <;> by_cases hLi : L = i <;> simp [hkey, hq, hLi, hsel]
    · have hmem : L ∈ i :: ls ∧ sel.getLsbD L = true ↔ L ∈ ls ∧ sel.getLsbD L = true := by
        simp only [List.mem_cons, or_and_right, or_iff_right_iff_imp]
        exact fun ⟨hLi, hL⟩ => absurd (hLi ▸ hL) hsel
      simp only [if_neg hsel, ih hls hc, hmem]

/-- A write of a row of lanes gives the selected lanes of that row and leaves every other lane. -/
theorem cget_setLanes {q L : Nat} (hL : L < 64) {c : Cells n} (hc : cellsWf c = true) :
    cget (setLanes c (64 * r) sel xs) (64 * q + L) =
      if q = r ∧ sel.getLsbD L = true then xs.getD L 0 else cget c (64 * q + L) := by
  rw [setLanes, cget_foldl_lanes sel xs r hL (fun i hi => List.mem_range.mp hi) hc]
  simp only [List.mem_range, hL, true_and]

end

/-! ### Results in the registers of a wave (R105) -/

section
variable {w : Wave}

theorem landWave_vreg_vlane (hw : cellsWf w.v = true) (r : Nat) (sel : Lanes) (xs : List Word) {q L : Nat} (hL : L < 64) :
    (landWave w (.vreg r sel xs)).vlane q L = if q = r ∧ sel.getLsbD L = true then xs.getD L 0 else w.vlane q L :=
  cget_setLanes sel xs r hL hw

theorem landWave_sreg_sreg (hw : cellsWf w.s = true) (n k : Nat) (x : Word) :
    (landWave w (.sreg n x)).sreg k = if k = n then x else w.sreg k := cget_cset hw n k x

/-- A write of em stays within LIVE and the width, and leaves the other masks. -/
theorem Wave.setMask_zero_mask (w : Wave) (sel val : Lanes) (k : Nat) : (w.setMask 0 sel val).mask k =
    if k = 0 then ((w.em &&& ~~~sel) ||| (val &&& sel)) &&& w.live &&& lanesBelow w.width else w.mask k := by
  by_cases hk : k = 0 <;> simp only [Wave.setMask, Wave.mask, Wave.full, hk, if_true, if_false]

/-- A write of another mask stays within the width, and leaves em and the other masks. -/
theorem Wave.setMask_succ_mask (hw : cellsWf w.m = true) {n : Nat} (hn : n ≠ 0) (sel val : Lanes) (k : Nat) :
    (w.setMask n sel val).mask k =
      if k = n then ((w.mask n &&& ~~~sel) ||| (val &&& sel)) &&& lanesBelow w.width else w.mask k := by
  simp only [Wave.setMask, Wave.mask, Wave.full, hn, if_false, cget_cset hw]
  by_cases hk : k = n
  · simp [hk, hn]
  · by_cases h0 : k = 0
    · simp [h0, Ne.symm hn]
    · simp only [h0, hk, if_false, show ¬(k - 1 = n - 1) by omega]

end

/-! ### Results that are due, and their queue (R88, R90) -/

/-- Of two results in flight only the one that is due lands. -/
theorem landDue_first {s : State} {a b : Nat} {x y : WaveWrite} (hp : s.wave.pend = [(a, x), (b, y)]) (ha : a ≤ s.clock)
    (hb : s.clock < b) : landDue s = landOne { s with wave := { s.wave with pend := [(b, y)] } } x := by
  simp [landDue, landAll, hp, ha, hb, Nat.not_lt.mpr ha, Nat.not_le.mpr hb]

/-- Of two results that are due the one that was queued first lands first. -/
theorem landDue_both {s : State} {a b : Nat} {x y : WaveWrite} (hp : s.wave.pend = [(a, x), (b, y)]) (ha : a ≤ s.clock)
    (hb : b ≤ s.clock) : landDue s = landOne (landOne { s with wave := { s.wave with pend := [] } } x) y := by
  simp [landDue, landAll, hp, ha, hb, Nat.not_lt.mpr ha, Nat.not_lt.mpr hb]

/-- A result is queued behind those that land no later and before those that land later. -/
theorem postAt_split (due : Nat) (x : WaveWrite) {l : List (Nat × WaveWrite)} (h : l.Pairwise fun p q => p.1 ≤ q.1) :
    ∃ a b, postAt l due x = a ++ (due, x) :: b ∧ l = a ++ b ∧ (∀ p ∈ a, p.1 ≤ due) ∧ ∀ p ∈ b, due < p.1 := by
  induction l with
  | nil => exact ⟨[], [], rfl, rfl, nofun, nofun⟩
  | cons p l ih =>
    obtain ⟨hp, hl⟩ := List.pairwise_cons.mp h
    by_cases hlt : due < p.1
    · exact ⟨[], p :: l, by simp [postAt, hlt], rfl, nofun,
        List.forall_mem_cons.mpr ⟨hlt, fun q hq => Nat.lt_of_lt_of_le hlt (hp q hq)⟩⟩
    · obtain ⟨a, b, hpost, hab, ha, hb⟩ := ih hl
      exact ⟨p :: a, b, by simp [postAt, hlt, hpost], by simp [hab], List.forall_mem_cons.mpr ⟨Nat.not_lt.mp hlt, ha⟩, hb⟩

/-! ### The statement -/

/-- Settles O26: each kind of write read back, the results that are due, and the queue. -/
theorem resultsLand : Obligations.ResultsLand := by
  refine ⟨fun w r q L sel xs hL hw => landWave_vreg_vlane hw r sel xs hL, fun w n k x hw => landWave_sreg_sreg hw n k x,
    fun w n k sel val hw => ?_, fun s a b x y hp => ⟨landDue_first hp, landDue_both hp⟩, fun l due x h => postAt_split due x h⟩
  intro new
  change (w.setMask n sel val).mask k = _
  by_cases hn : n = 0
  · subst hn
    rw [Wave.setMask_zero_mask]
    by_cases hk : k = 0 <;> simp [hk, new, Wave.mask]
  · rw [Wave.setMask_succ_mask hw hn]
    by_cases hk : k = n <;> simp [hk, hn, new]

end Sys2Proof.Machine
end

section
/-! PROOF. The issue of loads, stores, atomics and CAS (R92, R248, R255, R258, R262, R263): the order in which lanes are captured, the
checks at issue, and the effect of an instruction that passes them; together they settle O49. -/

namespace Sys2Proof.Machine

open Sys2Proof.Claims

/-! ### The lanes in their order (R248, R255) -/

section
variable {t : TransReg}

/-- The 256-byte line of a lane's access. -/
def LaneAcc.line (t : TransReg) (la : LaneAcc) : Nat := t.addr la.off / 256

/-- Lane `x` is performed before lane `y`: by line, and within one by lane. -/
def LaneAcc.Before (t : TransReg) (x y : LaneAcc) : Prop := x.line t < y.line t ∨ (x.line t = y.line t ∧ x.lane < y.lane)

theorem insLane_perm (la : LaneAcc) (l : List LaneAcc) : (insLane t la l).Perm (la :: l) := by
  induction l with
  | nil => exact .refl _
  | cons x l ih =>
    by_cases h : t.addr la.off / 256 < t.addr x.off / 256
    · simp [insLane, h]
    · rw [insLane, if_neg h]
      exact (ih.cons x).trans (.swap la x l)

/-- A lane above those of a list in order is put in its place. -/
theorem insLane_pairwise {la : LaneAcc} {l : List LaneAcc} (hl : l.Pairwise (LaneAcc.Before t)) (hla : ∀ x ∈ l, x.lane < la.lane) :
    (insLane t la l).Pairwise (LaneAcc.Before t) := by
  induction l with
  | nil => exact List.pairwise_singleton ..
  | cons x l ih =>
    obtain ⟨hx, hrest⟩ := List.pairwise_cons.mp hl
    obtain ⟨hlax, hlal⟩ := List.forall_mem_cons.mp hla
    by_cases h : t.addr la.off / 256 < t.addr x.off / 256
    · rw [insLane, if_pos h]
      refine List.pairwise_cons.mpr ⟨List.forall_mem_cons.mpr ⟨.inl h, fun y hy => ?_⟩, hl⟩
      rcases hx y hy with hlt | ⟨heq, -⟩
      · exact .inl (Nat.lt_trans h hlt)
      · exact .inl (Nat.lt_of_lt_of_eq h heq)
    · rw [insLane, if_neg h]
      refine List.pairwise_cons.mpr ⟨fun y hy => ?_, ih hrest hlal⟩
      rcases List.mem_cons.mp ((insLane_perm la l).mem_iff.mp hy) with rfl | hy
      · rcases Nat.lt_or_eq_of_le (Nat.not_lt.mp h) with hlt | heq
        · exact .inl hlt
        · exact .inr ⟨heq, hlax⟩
      · exact hx y hy

/-- Lanes of rising numbers, put one by one into a list of lower lanes that is in order. -/
theorem foldl_insLane (l : List LaneAcc) : ∀ a : List LaneAcc, a.Pairwise (LaneAcc.Before t) →
    (∀ x ∈ a, ∀ y ∈ l, x.lane < y.lane) → l.Pairwise (fun x y => x.lane < y.lane) →
    let r := l.foldl (fun a la => insLane t la a) a
    r.Perm (a ++ l) ∧ r.Pairwise (LaneAcc.Before t) := by
  induction l with
  | nil => exact fun a ha _ _ => ⟨by simp, ha⟩
  | cons la l ih =>
    intro a ha hal hl
    obtain ⟨hla, hrest⟩ := List.pairwise_cons.mp hl
    have hperm := insLane_perm (t := t) la a
    have hbelow : ∀ x ∈ insLane t la a, ∀ y ∈ l, x.lane < y.lane := by
      intro x hx y hy
      rcases List.mem_cons.mp (hperm.mem_iff.mp hx) with rfl | hx
      · exact hla y hy
      · exact hal x hx y (List.mem_cons_of_mem _ hy)
    obtain ⟨hp, hs⟩ := ih (insLane t la a) (insLane_pairwise ha fun x hx => hal x hx la (List.mem_cons_self ..)) hbelow hrest
    refine ⟨hp.trans ((hperm.append_right l).trans ?_), hs⟩
    exact List.perm_middle.symm

/-- Lanes of rising numbers are each captured once, by line and then by lane. -/
theorem sortLanes_spec {l : List LaneAcc} (hl : l.Pairwise fun x y => x.lane < y.lane) :
    (sortLanes t l).Perm l ∧ (sortLanes t l).Pairwise (LaneAcc.Before t) :=
  foldl_insLane l [] .nil nofun hl

end

/-- The active lanes are listed by rising number. -/
theorem laneList_pairwise (m : Lanes) : (laneList m).Pairwise (· < ·) := List.pairwise_lt_range.filter _

section
variable (w : Wave) (f : M64)

theorem offset_eq_memOff (L : Nat) : offset w f L = w.memOff f L := rfl

theorem address_eq_addr (t : TransReg) (off : Int) : address t off = t.addr off := rfl

/-- What an instruction captures has each active lane once, in the order of R248. -/
theorem Wave.capture_lanes (n : Nat) (data : Nat → List Byte) :
    (w.capture f n data).lanes.Perm (w.actList.map fun L => { lane := L, off := offset w f L, data := data L }) ∧
      (w.capture f n data).lanes.Pairwise (LaneAcc.Before (w.treg f.tr.toNat)) :=
  sortLanes_spec (List.pairwise_map.mpr (laneList_pairwise w.act))

theorem captureHoldsTheActiveLanes : CaptureHoldsTheActiveLanes := by
  intro w f n data c t line
  obtain ⟨hperm, hsorted⟩ := w.capture_lanes f n data
  exact ⟨rfl, rfl, rfl, hperm, hsorted⟩

end

/-! ### A page walk reads nothing of the wave in focus (R208) -/

section
variable (s : State) (x : Wave)

theorem State.walkFrom_setWave (va n base : Nat) : State.walkFrom { s with wave := x } base va n = s.walkFrom base va n := by
  induction n generalizing base with
  | zero => rfl
  | succ l ih =>
    have hentry : State.walkEntry { s with wave := x } base va (l + 1) = s.walkEntry base va (l + 1) := rfl
    have hnext : State.nextTable { s with wave := x } base va (l + 1) = s.nextTable base va (l + 1) := rfl
    simp only [State.walkFrom, hentry, hnext, ih]

theorem State.rcLane_setWave (c : MemCap) (la : LaneAcc) : State.rcLane { s with wave := x } c la = s.rcLane c la := by
  simp only [State.rcLane, State.peek, State.walk, State.walkFrom_setWave]

end

/-! ### Issue (R92, R232, R255) -/

section
variable {s : State} {f : M64} {n : Nat} {acc : Access}

/-- An instruction that passes the checks of R255 goes on. -/
theorem memChecks_of_memOk {w : Wave} (h : MemOk w f n acc) (k : Act) : memChecks w (w.treg f.tr.toNat) n acc (w.offs f) k = k := by
  obtain ⟨hvalid, hlanes⟩ := h
  have hall : ∀ p ∈ w.offs f, ∃ L ∈ w.actList, p = (L, offset w f L) := fun p hp => by
    obtain ⟨L, hL, rfl⟩ := List.mem_map.mp hp
    exact ⟨L, hL, rfl⟩
  have haligned : (w.offs f).find? (fun p => (w.treg f.tr.toNat).addr p.2 % n != 0) = none :=
    List.find?_eq_none.mpr fun p hp => by
      obtain ⟨L, hL, rfl⟩ := hall p hp
      simpa [address_eq_addr] using (hlanes L hL).1
  have hbelow : (w.offs f).find? (fun p => (w.treg f.tr.toNat).addr p.2 / 2 ^ 52 != 0) = none :=
    List.find?_eq_none.mpr fun p hp => by
      obtain ⟨L, hL, rfl⟩ := hall p hp
      rw [← address_eq_addr, Nat.div_eq_of_lt (hlanes L hL).2.1]
      exact Bool.false_ne_true
  simp only [memChecks, hvalid, haligned, hbelow, Bool.not_true, Bool.false_eq_true, if_false]
  cases hdirect : (w.offs f).find? fun p => !(w.treg f.tr.toNat).stale && (w.treg f.tr.toNat).within p.2 with
  | none => rfl
  | some p =>
    obtain ⟨L, hL, rfl⟩ := hall p (List.mem_of_find?_eq_some hdirect)
    have hin := List.find?_some hdirect
    simp only [TransReg.within, Bool.and_eq_true, Bool.not_eq_true', decide_eq_true_eq] at hin
    obtain ⟨hperm, hgeom⟩ := (hlanes L hL).2.2 hin
    simp only [hperm, hgeom]

/-- The side log is not asked for room where every lane's page is known; elsewhere it has room (R232). -/
theorem State.needLog_of_room {c : MemCap} (k : Act)
    (h : s.logRoom s.wave.core = true ∨ ∀ la ∈ c.lanes, Direct c.tr la.off) : s.needLog c k = k := by
  cases hfind : c.lanes.find? fun la => c.tr.stale || !c.tr.within la.off with
  | none => simp only [State.needLog, hfind]
  | some la =>
    rcases h with hroom | hdirect
    · simp only [State.needLog, hfind, hroom, if_true]
    · obtain ⟨hstale, hlo, hhi⟩ := hdirect la (List.mem_of_find?_eq_some hfind)
      have hlog := List.find?_some hfind
      simp [hstale, TransReg.within, hlo, hhi] at hlog

/-- An instruction that touches no race-checked page is counted and outstanding, after the release part of its order. -/
theorem State.memIssue_unchecked {c : MemCap} (cls : Nat) (e : Effect) (h : How) (log : Bool) (detail : Nat)
    (horder : c.order = f.order.toNat) (hrc : ∀ la ∈ c.lanes, (released s f).rcLane c la = false) :
    s.memIssue cls (cfCounter f.cf) e c h log detail = (released s f).outAct (some cls) (cfCounter f.cf) e := by
  have hrel : s.tickFor c = released s f := by rw [State.tickFor, horder]; rfl
  have hsame (la : LaneAcc) : (released s f).rcLane c la = s.rcLane c la := by
    unfold released
    split
    · exact State.rcLane_setWave s s.wave.tick c la
    · rfl
  have hnone : c.lanes.any (s.rcLane c) = false := by
    rw [List.any_eq_false]
    intro la hla
    rw [← hsame, hrc la hla]
    exact Bool.false_ne_true
  simp only [State.memIssue, hnone, Bool.false_eq_true, if_false, hrel]

/-- An instruction of 8 bytes that is outstanding on counters has issued. -/
theorem settleNew_outAct {i : Instr} {s1 : State} (hlen : insLen i = 8) (hclock : s1.clock = s.clock) (cls cf : Option Nat) (e : Effect) :
    settleNew s i (s1.outAct cls cf e) = issued s1 cls cf e := by
  cases cls <;> cases cf <;> simp only [State.outAct, settleNew, settle, hlen, ← hclock] <;> rfl

theorem released_clock (s : State) (f : M64) : (released s f).clock = s.clock := by
  unfold released
  split <;> rfl

/-- The memory instructions, run: the checks, and for a write the room in the side log, then its effect. -/
theorem exec_memInstr {p : Instr × Access × Bool × Nat × (Nat → List Byte) × (MemCap → Effect)} (hp : p ∈ memInstrs s.wave f)
    (hr : Ready p.1 s) : ∃ how detail,
      let c := s.wave.capture f (2 ^ f.size.toNat) p.2.2.2.2.1
      let k := s.memIssue p.2.2.2.1 (cfCounter f.cf) (p.2.2.2.2.2 c) c how p.2.2.1 detail
      exec p.1 s = .next (settleNew s p.1 (memChecks s.wave (s.wave.treg f.tr.toNat) (2 ^ f.size.toNat) p.2.1 (s.wave.offs f)
        (if p.2.2.1 then s.needLog c k else k))) := by
  simp only [memInstrs, List.mem_append, List.mem_cons, List.not_mem_nil, or_false] at hp
  rcases hp with (rfl | rfl | rfl | rfl) | hp
  · exact ⟨How.load, 0, congrArg Host.Outcome.next (run_of_ready hr _)⟩
  · exact ⟨How.store, 0, congrArg Host.Outcome.next (run_of_ready hr _)⟩
  · exact ⟨How.atom f.aop.toNat, 2, congrArg Host.Outcome.next (run_of_ready hr _)⟩
  · exact ⟨How.atomn f.aop.toNat, 0, congrArg Host.Outcome.next (run_of_ready hr _)⟩
  · by_cases haop : f.aop = 1
    · simp [haop] at hp
    · simp only [haop, if_false, List.mem_singleton] at hp
      subst hp
      refine ⟨How.cas, 2, congrArg Host.Outcome.next ((run_of_ready hr _).trans ?_)⟩
      simp only [beq_iff_eq, haop, if_false]
      rfl

/-- Every one of them has 8 bytes. -/
theorem insLen_memInstr {w : Wave} {p : Instr × Access × Bool × Nat × (Nat → List Byte) × (MemCap → Effect)}
    (hp : p ∈ memInstrs w f) : insLen p.1 = 8 := by
  simp only [memInstrs, List.mem_append, List.mem_cons, List.not_mem_nil, or_false] at hp
  rcases hp with (rfl | rfl | rfl | rfl) | hp
  · rfl
  · rfl
  · rfl
  · rfl
  · split at hp
    · cases hp
    · rw [List.mem_singleton.mp hp]
      rfl

theorem memoryInstructionsIssue : MemoryInstructionsIssue := by
  intro s f w n s1 p hp
  obtain ⟨i, acc, wr, cls, data, eff⟩ := p
  intro hr hok hroom hrc
  obtain ⟨how, detail, hexec⟩ := exec_memInstr hp hr
  have hlanes : ∀ la ∈ (w.capture f n data).lanes, ∃ L ∈ w.actList, la.off = offset w f L := fun la hla => by
    obtain ⟨L, hL, rfl⟩ := List.mem_map.mp ((w.capture_lanes f n data).1.mem_iff.mp hla)
    exact ⟨L, hL, rfl⟩
  have hneed (k : Act) : (if wr then s.needLog (w.capture f n data) k else k) = k := by
    cases wr
    · rfl
    · refine State.needLog_of_room k ((hroom rfl).imp_right fun hdirect la hla => ?_)
      obtain ⟨L, hL, hoff⟩ := hlanes la hla
      exact hoff ▸ hdirect L hL
  refine hexec.trans (congrArg Host.Outcome.next ?_)
  refine (congrArg (settleNew s i) ((memChecks_of_memOk hok _).trans ((hneed _).trans
    (State.memIssue_unchecked cls (eff (w.capture f n data)) how wr detail rfl hrc)))).trans ?_
  exact settleNew_outAct (insLen_memInstr hp) (released_clock s f) (some cls) (general f.cf) (eff (w.capture f n data))

/-- Settles O49: what the instructions issue with, and what they capture. -/
theorem memoryIssue : Obligations.MemoryIssue := ⟨memoryInstructionsIssue, captureHoldsTheActiveLanes⟩

end

end Sys2Proof.Machine
end

section
/-! PROOF. The wave in focus through a load: neither a translation nor an access that only reads changes it (R208, R214, R225). -/

namespace Sys2Proof.Machine

/-! ### Translation -/

@[simp] theorem State.claimRec_wave (s : State) (pa : Nat) (t : TransReg) : (s.claimRec pa t).wave = s.wave := by
  unfold State.claimRec
  dsimp only
  split <;> rfl

@[simp] theorem State.markRec_wave (s : State) (pa : Nat) (wr : Bool) : (s.markRec pa wr).wave = s.wave := rfl

@[simp] theorem State.walkVia_wave (s : State) (d va : Nat) : (s.walkVia d va).1.wave = s.wave := by
  unfold State.walkVia
  dsimp only
  split
  · split
    · rfl
    · split <;> rfl
  · rfl

@[simp] theorem State.walkMarks_wave (s : State) (va : Nat) : (s.walkMarks va).wave = s.wave :=
  State.foldl_keeps State.wave (fun s b => by
    split
    · rfl
    · rw [State.markRec_wave, State.claimRec_wave]) _ s

@[simp] theorem State.walkFill_wave (s : State) (core va : Nat) : (s.walkFill core va).1.wave = s.wave := by
  have h := (State.walkVia_wave (s.walkMarks va) (dieOf core) va).trans (State.walkMarks_wave s va)
  unfold State.walkFill
  split
  · rename_i e; rw [e] at h; exact h
  · exact h

@[simp] theorem State.translate_wave (s : State) (core va : Nat) : (s.translate core va).1.wave = s.wave := by
  unfold State.translate
  dsimp only
  split
  · split
    · rfl
    · split <;> simp
  · split
    · split
      · rfl
      · split <;> simp
    · simp

theorem State.xlate_wave {s t : State} {core va o : Nat} {r : TransReg} (h : s.xlate core va = .at_ t r o) : t.wave = s.wave := by
  have hw := State.translate_wave s core va
  unfold State.xlate at h
  split at h
  · cases h
  · split at h <;> cases h
    rename_i e
    rw [e] at hw
    exact hw

/-! ### A line that is read -/

@[simp] theorem State.callBack_wave (s : State) (line : Nat) : (s.callBack line).wave = s.wave := by
  unfold State.callBack
  split
  · rfl
  · dsimp only
    split <;> rfl

@[simp] theorem State.carryLease_wave (s : State) (home die line : Nat) : (s.carryLease home die line).wave = s.wave := by
  unfold State.carryLease
  extract_lets e
  split <;> rfl

@[simp] theorem State.noteShare_wave (s : State) (pa : Nat) (only : Bool) : (s.noteShare pa only).wave = s.wave := by
  unfold State.noteShare
  extract_lets f
  split <;> rfl

theorem State.makeRoom_wave {s t : State} {line pa home : Nat} (h : s.makeRoom line pa home = .ok t) : t.wave = s.wave := by
  unfold State.makeRoom at h
  split at h
  · cases h; rfl
  · extract_lets set lru at h
    clear_value lru
    split at h
    · cases h; rfl
    · split at h
      · cases h; rfl
      · split at h
        · cases h
        · split at h <;> cases h
          exact State.callBack_wave s _

theorem State.readLine_wave {s t : State} {r line pa home : Nat} {only : Bool} (h : s.readLine r line pa home only = .ok t) :
    t.wave = s.wave := by
  unfold State.readLine at h
  split at h
  · cases h
  · split at h
    · cases h; rfl
    · split at h
      · cases h
      · rename_i v e
        extract_lets owned u d bs share at h
        split at h
        · cases h
        · have hu : u.wave = v.wave := by
            show (if only && owned then v.callBack line else v).wave = v.wave
            split
            · exact State.callBack_wave v line
            · rfl
          have ht : t.wave = u.wave := by
            cases h
            split
            · split
              · rfl
              · exact State.carryLease_wave ..
            · rfl
            · split <;> rfl
            · rfl
          rw [ht, hu, State.makeRoom_wave e]

/-! ### A load -/

/-- Where an access is performed, the state that it leaves has this wave in focus. -/
def Got.HasWave (w : Wave) : Got → Prop
  | .ok t _ _ => t.wave = w
  | _ => True

variable (s : State) (core : Nat) (t : TransReg) (o n : Nat) (f : List Byte → List Byte)

theorem State.lineAccess_load_wave (key : Nat) : (s.lineAccess core t o n false f key).HasWave s.wave := by
  unfold State.lineAccess
  extract_lets pa r home only u pb
  simp only [Bool.false_eq_true, if_false]
  split
  · trivial
  · rename_i e
    exact (State.readLine_wave e).trans (State.noteShare_wave s pa only)

theorem State.frameAccess_load_wave : (s.frameAccess core t o n false f).HasWave s.wave := by
  unfold State.frameAccess
  extract_lets pa r d
  split
  · split <;> trivial
  · split
    · trivial
    · split
      · trivial
      · split
        · trivial
        · extract_lets key line ask u old bad
          have hu : u.wave = s.wave := State.claimRec_wave s pa t
          split
          · trivial
          · split
            · trivial
            · split
              · trivial
              · split
                · exact hu
                · split
                  · exact hu
                  · have hl := State.lineAccess_load_wave u core t o n f key
                    rw [hu] at hl
                    split
                    · trivial
                    · exact hl

theorem State.hostPerform_load_wave (pa : Nat) (atomic : Bool) : (s.hostPerform pa n false atomic f).HasWave s.wave := by
  unfold State.hostPerform
  extract_lets old done l
  have hd : done.HasWave s.wave := rfl
  split
  · exact hd
  · split
    · split
      · exact hd
      · trivial
    · exact hd

theorem State.access_load_wave (atomic : Bool) : (s.access core t o n false atomic f).HasWave s.wave := by
  unfold State.access
  extract_lets pa old bad
  simp only [Bool.false_eq_true, if_false]
  split
  · rfl
  · split
    · exact State.hostPerform_load_wave ..
    · split
      · split
        · trivial
        · rfl
      · exact State.frameAccess_load_wave ..

variable {s core t o n f}

/-- A load with its permissions checked leaves the wave in focus. -/
theorem State.accessAt_load_wave {v : State} {va : Nat} {bs : List Byte} {bad : Option Nat}
    (h : s.accessAt core t o n va How.load f = .ok v bs bad) : v.wave = s.wave := by
  unfold State.accessAt at h
  split at h
  · cases h
  · cases h
  · extract_lets pa owned at h
    split at h
    · cases h
    · split at h <;> cases h
      rename_i e
      have hw := State.access_load_wave s core t o n f (How.load.rmw && !owned)
      rw [show (false : Bool) = (How.load.acc != .load) from rfl, e] at hw
      exact hw

end Sys2Proof.Machine
end

section
/-! PROOF. RTE and the privileged registers (R98, R249, R317, R386, R391, R393, R394): the frame that RTE accepts and what it restores, the
values that registers hold and refuse; together they settle O55. -/

namespace Sys2Proof.Machine

open Sys2Proof.Claims

/-! ### Numbers in a frame (R387) -/

theorem ofBytes_append (a b : List Byte) : ofBytes (a ++ b) = ofBytes a + 256 ^ a.length * ofBytes b := by
  induction a with
  | nil => simp [ofBytes]
  | cons x a ih =>
    simp only [List.cons_append, ofBytes, ih, List.length_cons, Nat.pow_succ]
    ring

theorem frameNum_lt (bs : List Byte) (i n : Nat) : frameNum bs i n < 256 ^ n :=
  Nat.lt_of_lt_of_le (ofBytes_lt _) (Nat.pow_le_pow_right (by decide) (List.length_take_le ..))

/-- A number of 8 bytes of a frame, by its words. -/
theorem frameNum_words {bs : List Byte} {i : Nat} (h : i + 4 ≤ bs.length) :
    frameNum bs i 8 = frameNum bs i 4 + 2 ^ 32 * frameNum bs (i + 4) 4 := by
  have hsplit : (bs.drop i).take 8 = (bs.drop i).take 4 ++ (bs.drop (i + 4)).take 4 := by
    rw [← List.drop_drop, ← List.take_add]
  have hlen : ((bs.drop i).take 4).length = 4 := by
    rw [List.length_take, List.length_drop]
    omega
  rw [frameNum, hsplit, ofBytes_append, hlen]
  rfl

theorem lo32_bv_words {a b : Nat} : lo32 (bv (a + 2 ^ 32 * b)) = BitVec.ofNat 32 a := by
  refine BitVec.eq_of_toNat_eq ?_
  simp only [lo32, bv, BitVec.toNat_setWidth, BitVec.toNat_ofNat]
  omega

theorem hi32_bv_words {a b : Nat} (ha : a < 2 ^ 32) : hi32 (bv (a + 2 ^ 32 * b)) = BitVec.ofNat 32 b := by
  refine BitVec.eq_of_toNat_eq ?_
  simp only [hi32, bv, BitVec.toNat_setWidth, BitVec.toNat_ofNat, BitVec.toNat_ushiftRight, Nat.shiftRight_eq_div_pow]
  omega

/-! ### RTE (R393) -/

/-- FPCTL has no reserved bit set (R121). -/
theorem specialBad_fpctl {x : Nat} (hx : x < 2 ^ 32) : specialBad 8 (bv x) = false ↔ x % 8 ≤ 4 ∧ x / 8 % 32 = 0 ∧ x < 2 ^ 9 := by
  simp only [specialBad, bits, bv, BitVec.toNat_ofNat, Bool.or_eq_false_iff, decide_eq_false_iff_not, bne_eq_false_iff_eq]
  omega

/-- RTE refuses the frames that are not well-formed, and no others. -/
theorem frameBad_eq_false_iff (bs : List Byte) : frameBad bs = false ↔ FrameOk bs := by
  have hpc := frameNum_lt bs 0 8
  have hfl := frameNum_lt bs 28 4
  have hfp := frameNum_lt bs 48 4
  have hand : (nbit (frameNum bs 28 4) 1 && nbit (frameNum bs 28 4) 8) = false ↔
      ¬(nbit (frameNum bs 28 4) 1 = true ∧ nbit (frameNum bs 28 4) 8 = true) := by
    rw [← Bool.and_eq_true, Bool.not_eq_true]
  simp only [frameBad, Bool.or_eq_false_iff, specialBad_fpctl hfp, hand, beq_eq_false_iff_ne, bne_eq_false_iff_eq, FrameOk]
  change _ ↔ frameNum bs 0 8 % 2 = 0 ∧ frameNum bs 0 8 < 2 ^ 52 ∧ frameNum bs 28 4 < 2 ^ 12 ∧ frameNum bs 48 4 % 8 ≤ 4 ∧
    frameNum bs 48 4 / 8 % 32 = 0 ∧ frameNum bs 48 4 < 2 ^ 9 ∧ _
  constructor
  · rintro ⟨⟨⟨⟨h1, h2⟩, h3⟩, h4⟩, h5⟩
    exact ⟨by omega, by omega, by omega, h4.1, h4.2.1, h4.2.2, h5⟩
  · rintro ⟨h1, h2, h3, h4, h5, h6, h7⟩
    exact ⟨⟨⟨⟨by omega, by omega⟩, by omega⟩, h4, h5, h6⟩, h7⟩

/-- A result that lands leaves what holds the wave. -/
@[simp] theorem landOne_hold (s : State) (x : WaveWrite) : (landOne s x).wave.hold = s.wave.hold := by
  obtain ⟨-, -, -, -, -, -, -, hhold⟩ := landWave_place s.wave x
  cases x <;> exact hhold

@[simp] theorem landEvery_hold (s : State) : (landEvery s).wave.hold = s.wave.hold :=
  State.foldl_keeps (fun s => s.wave.hold) landOne_hold _ _

/-- The wave that RTE leaves, by the fields that it restores. -/
theorem Wave.restore_eq (w : Wave) {bs : List Byte} (clock : Nat) (hlen : bs.length = 64) : w.restore bs clock = { w with
    pc := BitVec.ofNat 64 (frameNum bs 0 8), em := BitVec.ofNat 64 (frameNum bs 8 8) &&& w.live,
    s := cset (cset w.s 62 (BitVec.ofNat 32 (frameNum bs 16 4))) 63 (BitVec.ofNat 32 (frameNum bs 20 4)), scc := nbit (frameNum bs 28 4) 0,
    fpctl := BitVec.ofNat 32 (frameNum bs 48 4), recovery := false,
    resume := if nbit (frameNum bs 28 4) 1 then .rep (frameNum bs 28 4 / 4 % 64)
      else if nbit (frameNum bs 28 4) 8 then .pblk (frameNum bs 28 4 / 512 % 8) (BitVec.ofNat 64 (frameNum bs 40 8)) else .none
    lastIssue := 0, notBefore := clock } := by
  have hlink : w.setSpair 62 (bv (frameNum bs 16 8)) = { w with
      s := cset (cset w.s 62 (BitVec.ofNat 32 (frameNum bs 16 4))) 63 (BitVec.ofNat 32 (frameNum bs 20 4)) } := by
    rw [frameNum_words (by omega), Wave.setSpair, lo32_bv_words, hi32_bv_words (frameNum_lt bs 16 4)]
    rfl
  simp only [Wave.restore, hlink]
  rfl

section
variable {s : State} {f : K32} (h : Ready (.rte f) s)
include h

theorem exec_rte_high (hva : 2 ^ 52 ≤ (s.wave.spair 62).toNat) : exec (.rte f) s = .next (s.faultAt 8 4 (s.wave.spair 62)) := by
  refine congrArg Host.Outcome.next ((run_of_ready h _).trans ?_)
  have hne : ((s.wave.spair 62).toNat / 2 ^ 52 != 0) = true := by
    rw [bne_iff_ne]
    omega
  rw [if_pos hne]
  rfl

theorem exec_rte_misaligned (hva : (s.wave.spair 62).toNat < 2 ^ 52) (hal : (s.wave.spair 62).toNat % 64 ≠ 0) :
    exec (.rte f) s = .next (s.faultAt 5 0 (s.wave.spair 62)) := by
  refine congrArg Host.Outcome.next ((run_of_ready h _).trans ?_)
  rw [if_neg (by rw [Nat.div_eq_of_lt hva]; exact Bool.false_ne_true), if_pos (by simpa using hal)]
  rfl

/-- Once the wave's earlier stores to the frame are performed, the frame is read; it is refused or restored. -/
theorem exec_rte_read {u v : State} {t : TransReg} {o : Nat} {bs : List Byte} (hva : (s.wave.spair 62).toNat < 2 ^ 52)
    (hal : (s.wave.spair 62).toNat % 64 = 0) (hx : s.xlate s.wave.core (s.wave.spair 62).toNat = .at_ u t o)
    (hown : u.ownReady s.wave u.fresh true false false ((t.ppage + o) / 128) = true)
    (hread : u.accessAt s.wave.core t o 64 (s.wave.spair 62).toNat How.load id = .ok v bs none) : exec (.rte f) s = .next
      (if frameBad bs then s.faultAt 2 0 s.wave.insAddr
      else { landEvery v with wave := (landEvery v).wave.restore bs (landEvery v).clock }) := by
  have hhold : (landEvery v).wave.hold = .none := by
    rw [landEvery_hold, State.accessAt_load_wave hread, State.xlate_wave hx]
    exact h.2.1
  refine congrArg Host.Outcome.next ((run_of_ready h _).trans ?_)
  rw [if_neg (by rw [Nat.div_eq_of_lt hva]; exact Bool.false_ne_true), if_neg (by simp [hal])]
  simp only [hx, hown, hread, Bool.not_true, Bool.false_eq_true, if_false]
  split
  · rfl
  · exact settleNew_stay hhold

end

theorem returnFromHandler : ReturnFromHandler := by
  intro s f h w va
  refine ⟨exec_rte_high h, exec_rte_misaligned h, fun u t o v bs hva hal hx hown hread hlen => ?_⟩
  have hexec := exec_rte_read h hva hal hx hown hread
  refine ⟨fun hok => ?_, fun hbad => ?_⟩
  · rw [hexec, (frameBad_eq_false_iff bs).mpr hok, if_neg Bool.false_ne_true, Wave.restore_eq _ _ hlen]
    rfl
  · rw [hexec, if_pos (by simpa using mt (frameBad_eq_false_iff bs).mp hbad)]

/-! ### Privileged registers (R391, R394) -/

/-- A word as the low half of 64 bits. -/
theorem lo32_setWidth (x : Word) : lo32 (x.setWidth 64) = x := by
  refine BitVec.eq_of_toNat_eq ?_
  simp only [lo32, BitVec.toNat_setWidth]
  omega

theorem bits_setWidth (x : Word) {hi lo : Nat} : bits (x.setWidth 64) hi lo = bits x hi lo := by
  have : x.toNat < 2 ^ 64 := by omega
  simp only [bits, BitVec.toNat_setWidth, Nat.mod_eq_of_lt this]

theorem Die.anyOpen_eq_false_iff (d : Die) : d.anyOpen = false ↔ ∀ p ∈ d.geodes, p.2.open_ = none := by
  simp [Die.anyOpen]

section
variable {s : State} {f : K32}

theorem exec_prd (h : Ready (.prd f) s) : exec (.prd f) s = .next (after s 4
    (if privPair (bits f.imm 7 0) then s.wave.setSpair f.d.toNat (s.privRead (bits f.imm 7 0))
    else s.wave.setS f.d.toNat (lo32 (s.privRead (bits f.imm 7 0))))) :=
  congrArg Host.Outcome.next (run_of_ready h _)

theorem State.privWrite_keeps (s : State) (n : Nat) (x : DWord) :
    (s.privWrite n x).wave = s.wave ∧ (s.privWrite n x).clock = s.clock := by
  unfold State.privWrite
  split <;> exact ⟨rfl, rfl⟩

/-- The operand of PWR for a register: a pair, or a word as the low half. -/
def Wave.privOperand (w : Wave) (d : BitVec 8) (n : Nat) : DWord := if privPair n then w.sop64 d else (w.sop d).setWidth 64

/-- PWR of a register whose rule is `P` and whose write leaves `t`. -/
theorem exec_pwr (h : Ready (.pwr f) s) {n : Nat} {P : Prop} {t : State} (hn : bits f.imm 7 0 = n)
    (hrule : s.privBad n (s.wave.privOperand f.d n) = false ↔ P) (hwrite : s.privWrite n (s.wave.privOperand f.d n) = t) :
    (P → exec (.pwr f) s = .next (after t 4 s.wave)) ∧ (¬P → exec (.pwr f) s = .next (s.faultAt 2 0 s.wave.insAddr)) := by
  have hexec : exec (.pwr f) s = .next (settleNew s (.pwr f) (if s.privBad (bits f.imm 7 0) (s.wave.privOperand f.d (bits f.imm 7 0))
      then s.wave.illegal else .state (s.privWrite (bits f.imm 7 0) (s.wave.privOperand f.d (bits f.imm 7 0))))) :=
    congrArg Host.Outcome.next (run_of_ready h _)
  obtain ⟨hwave, hclock⟩ : t.wave = s.wave ∧ t.clock = s.clock := hwrite ▸ s.privWrite_keeps n _
  rw [hn, hwrite] at hexec
  refine ⟨fun hp => ?_, fun hp => ?_⟩
  · rw [hexec, hrule.mpr hp, if_neg Bool.false_ne_true]
    simp only [settleNew, settle, after, hclock, hwave]
    rfl
  · rw [hexec, if_pos (by simpa using mt hrule.mp hp)]
    rfl

end

/-! ### The rules of the registers (R98, R249, R317, R386) -/

section
variable (s : State)

/-- What PRD reads from a register of one word. -/
theorem State.privRead_words : ∀ p ∈ ([(0, s.myCore.lease1), (1, s.myCore.lease2),
      (2, BitVec.ofNat 32 (2 ^ 16 * (s.inuse % 2 ^ 11) + s.pool % 2 ^ 11)), (8, BitVec.ofNat 32 (s.mgmt.featacc.toNat / 2 ^ (32 * 0))),
      (9, BitVec.ofNat 32 (s.mgmt.featacc.toNat / 2 ^ (32 * 1))), (10, BitVec.ofNat 32 (s.mgmt.featacc.toNat / 2 ^ (32 * 2))),
      (11, BitVec.ofNat 32 (s.mgmt.featacc.toNat / 2 ^ (32 * 3))), (0x20, (s.die (s.wave.core / 96)).gcfg),
      (0x21, (s.die (s.wave.core / 96)).grate)] : List (Nat × Word)), privPair p.1 = false ∧ lo32 (s.privRead p.1) = p.2 := by
  have hbv (x : Nat) : lo32 (bv x) = BitVec.ofNat 32 x := by
    refine BitVec.eq_of_toNat_eq ?_
    simp only [lo32, bv, BitVec.toNat_setWidth, BitVec.toNat_ofNat]
    omega
  have hfeature (k : Nat) : lo32 (bv (bits s.mgmt.featacc (32 * k + 31) (32 * k))) = BitVec.ofNat 32 (s.mgmt.featacc.toNat / 2 ^ (32 * k)) := by
    rw [hbv, bits, show 32 * k + 31 + 1 - 32 * k = 32 by omega]
    exact BitVec.eq_of_toNat_eq (by simp)
  simp only [List.forall_mem_cons, List.not_mem_nil, false_implies, implies_true, and_true]
  exact ⟨⟨rfl, lo32_setWidth _⟩, ⟨rfl, lo32_setWidth _⟩, ⟨rfl, hbv _⟩, ⟨rfl, hfeature 0⟩, ⟨rfl, hfeature 1⟩, ⟨rfl, hfeature 2⟩,
    ⟨rfl, hfeature 3⟩, ⟨rfl, lo32_setWidth _⟩, rfl, lo32_setWidth _⟩

/-- No bucket is open on the die of the wave in focus. -/
def State.DieClosed (s : State) : Prop := ∀ p ∈ (s.die (s.wave.core / 96)).geodes, p.2.open_ = none

theorem State.anyOpen_iff : (s.die (dieOf s.wave.core)).anyOpen = false ↔ s.DieClosed := Die.anyOpen_eq_false_iff _

variable (x : Word) (y : DWord)

theorem State.privBad_lease {n : Nat} (hn : n = 0 ∨ n = 1) : s.privBad n (x.setWidth 64) = false ↔ x.toNat < 2 ^ 16 := by
  have hhigh : bits x 31 16 = 0 ↔ x.toNat < 2 ^ 16 := by simp only [bits]; omega
  rcases hn with rfl | rfl <;> simp only [State.privBad, bits_setWidth, bne_eq_false_iff_eq, hhigh]

theorem State.privBad_pool : s.privBad 2 (x.setWidth 64) = false ↔
    bits x 31 27 = 0 ∧ bits x 15 11 = 0 ∧ 4 ≤ bits x 10 0 ∧ bits x 10 0 ≤ 1536 := by
  simp only [State.privBad, bits_setWidth, Bool.or_eq_false_iff, bne_eq_false_iff_eq, decide_eq_false_iff_not, Nat.not_lt, and_assoc]

theorem State.privBad_trapvec : s.privBad 4 y = false ↔ y.toNat < 2 ^ 52 ∧ y.toNat / 2 % 128 = 0 := by
  simp only [State.privBad, bits, Bool.or_eq_false_iff, bne_eq_false_iff_eq]
  omega

theorem State.privBad_trapfrm : s.privBad 6 y = false ↔ y.toNat < 2 ^ 52 ∧ y.toNat % 2 ^ 21 = 0 := by
  simp only [State.privBad, bits, Bool.or_eq_false_iff, bne_eq_false_iff_eq]
  omega

theorem State.privBad_gcfg : s.privBad 0x20 (x.setWidth 64) = false ↔ s.DieClosed ∧ bits x 30 17 = 0 ∧ bits x 9 4 = 0 ∧
    (bits x 16 10 = 0 → x.getLsbD 31 = false) ∧ bits x 16 10 * (16384 * (bits x 3 0 + 1)) ≤ 2 ^ 21 - 2 ^ 14 := by
  have hbit : (x.setWidth 64).getLsbD 31 = x.getLsbD 31 := by simp
  simp only [State.privBad, bits_setWidth, lo32_setWidth, slotBytes, hbit, Bool.or_eq_false_iff, bne_eq_false_iff_eq, State.anyOpen_iff,
    decide_eq_false_iff_not, Nat.not_lt, Bool.and_eq_false_imp, beq_iff_eq, and_assoc]

theorem State.privBad_grate : s.privBad 0x21 (x.setWidth 64) = false ↔
    s.DieClosed ∧ x.getLsbD 31 = false ∧ bits x 30 23 ≠ 255 ∧ bits x 30 0 ≠ 0 := by
  have hbit : (x.setWidth 64).getLsbD 31 = x.getLsbD 31 := by simp
  simp only [State.privBad, bits_setWidth, hbit, Bool.or_eq_false_iff, beq_eq_false_iff_ne, State.anyOpen_iff, and_assoc, ne_eq]

theorem State.privBad_gap : s.privBad 0x22 y = false ↔ s.DieClosed ∧ y.toNat < 2 ^ 52 ∧ y.toNat % 2 ^ 27 = 0 := by
  have hhigh : bits y 63 52 = 0 ↔ y.toNat < 2 ^ 52 := by simp only [bits]; omega
  simp only [State.privBad, hhigh, Bool.or_eq_false_iff, bne_eq_false_iff_eq, State.anyOpen_iff, and_assoc]

theorem State.privBad_gsp : s.privBad 0x24 y = false ↔ s.DieClosed ∧ y.toNat < 2 ^ 52 ∧ y.toNat / 2 ^ 12 % 2 ^ 9 = 0 := by
  have hhigh : bits y 63 52 = 0 ↔ y.toNat < 2 ^ 52 := by simp only [bits]; omega
  simp only [State.privBad, hhigh, Bool.or_eq_false_iff, bne_eq_false_iff_eq, State.anyOpen_iff, and_assoc]
  rfl

end

theorem privilegedRegisters : PrivilegedRegisters := by
  intro s f w core d n x y feature closed onCore onDie
  refine ⟨fun h => ⟨fun p hp hn => ?_, fun p hp hn => ?_⟩, fun h => ?_⟩
  · obtain ⟨hword, hread⟩ := s.privRead_words p hp
    rw [exec_prd h, show bits f.imm 7 0 = p.1 from hn, hword, hread]
    rfl
  · have hpair : privPair p.1 = true ∧ s.privRead p.1 = p.2 := by
      simp only [List.mem_cons, List.not_mem_nil, or_false] at hp
      rcases hp with rfl | rfl | rfl | rfl <;> exact ⟨rfl, rfl⟩
    rw [exec_prd h, show bits f.imm 7 0 = p.1 from hn, hpair.1, hpair.2]
    rfl
  · intro cleared p hp hn
    have hlow {α : Type} (g : Word → α) : g (lo32 (x.setWidth 64)) = g x := congrArg g (lo32_setWidth x)
    simp only [List.mem_cons, List.not_mem_nil, or_false] at hp
    rcases hp with rfl | rfl | rfl | rfl | rfl | rfl | rfl | rfl | rfl
    · exact exec_pwr h hn (s.privBad_lease x (.inl rfl)) (congrArg onCore (hlow fun v => { core with lease1 := v }))
    · exact exec_pwr h hn (s.privBad_lease x (.inr rfl)) (congrArg onCore (hlow fun v => { core with lease2 := v }))
    · exact exec_pwr h hn (s.privBad_pool x) (congrArg (fun k => { s with pool := k }) (bits_setWidth x))
    · exact exec_pwr h hn (s.privBad_trapvec y) rfl
    · exact exec_pwr h hn (s.privBad_trapfrm y) rfl
    · exact exec_pwr h hn (s.privBad_gcfg x) (congrArg onDie (hlow fun v => { d with gcfg := v, geodes := cleared }))
    · exact exec_pwr h hn (s.privBad_grate x) (congrArg onDie (hlow fun v => { d with grate := v }))
    · exact exec_pwr h hn (s.privBad_gap y) rfl
    · exact exec_pwr h hn (s.privBad_gsp y) rfl

/-- Settles O55: what RTE restores and refuses, and the values and rules of the registers. -/
theorem handlersAndPrivilege : Obligations.HandlersAndPrivilege := ⟨returnFromHandler, privilegedRegisters⟩

end Sys2Proof.Machine
end

section
/-! PROOF. The module towards the host (R98, R222, R379, R427 to R432, R434): start-up, the run state and its registers, the frame port, move
requests, power and recovery; together they settle O23. -/

namespace Sys2Proof.Machine

open Sys2Proof.Claims

/-! ### Start-up (R429, R430) -/

/-- A table whose records are changed one by one. -/
theorem tfind_map {α : Type} (g : α → α) (i : Nat) : ∀ t : Table α, tfind (t.map fun p => (p.1, g p.2)) i = (tfind t i).map g
  | [] => rfl
  | (k, x) :: t => by
    simp only [List.map_cons, tfind, tfind_map g i t]
    split
    · rfl
    · split <;> rfl

/-- A die at start-up: only its black box is left (R429). -/
def Die.started (d : Die) : Die := { Die.reset with box := d.box, wcount := d.wcount }

/-- Start-up keeps the records of the black boxes. -/
theorem State.start_box (s : State) (v n d : Nat) : ((s.start v n).die d).box = (s.die d).box := by
  have hdie : (s.start v n).die d = ((tfind s.dies d).map Die.started).getD Die.reset :=
    congrArg (Option.getD · Die.reset) (tfind_map Die.started d s.dies)
  rw [hdie, State.die, tget]
  cases tfind s.dies d <;> rfl

section
variable {s : State}

/-- The management registers are there: READY or RUN (R427). -/
def State.IsLive (s : State) : Prop := s.boot.state = 3 ∨ s.boot.state = 4

theorem State.live_iff : s.live = true ↔ s.IsLive := by simp [State.live, State.IsLive]

theorem State.live_of_isLive (h : s.IsLive) : s.live = true := State.live_iff.mpr h

theorem State.not_live (h : ¬s.IsLive) : s.live = false := by rwa [← Bool.not_eq_true, State.live_iff]

theorem exec_ctrlWarmrst_live (h : s.IsLive) : exec .ctrlWarmrst s = .next s.authenticate :=
  if_pos (by simpa [State.IsLive] using h)

theorem exec_ctrlWarmrst_dead (h : ¬s.IsLive) : exec .ctrlWarmrst s = .next s :=
  if_neg (by simpa [State.IsLive] using h)

/-! ### GO, COMMIT and the frame port (R427, R429, R430, R432) -/

/-- GO gives every core TVEC and TFRM, and sets POOL (R429). -/
theorem exec_ctrlGo_ready (h : s.boot.state = 3) : exec .ctrlGo s = .next { s with
    cores := (List.range Config.cores).foldl (fun t c =>
      tset t c { tget Core.reset t c with
        trapvec := s.mgmt.tvec &&& 0x000FFFFFFFFFFF01, trapfrm := s.mgmt.tfrm &&& 0x000FFFFFFFE00000 }) s.cores,
    boot := { s.boot with state := 4 }, pool := poolOf s.mgmt.plimit, poolSet := poolOf s.mgmt.plimit } := by
  have hne : (s.boot.state != 3) = false := by simp [h]
  have hcores := State.foldl_setCore (fun c => { c with
    trapvec := s.mgmt.tvec &&& bv 0x000FFFFFFFFFFF01, trapfrm := s.mgmt.tfrm &&& bv 0x000FFFFFFFE00000 }) (List.range Config.cores) s
  change execCtrlGo s = _
  simp only [execCtrlGo, hne, Bool.false_eq_true, if_false, hcores]
  rfl

/-- COMMIT raises the fuse count to the VERSION that runs, and never lowers it (R430). -/
theorem exec_ctrlCommit_live (h : s.IsLive) :
    exec .ctrlCommit s = .next { s with boot := { s.boot with fuse := max s.boot.fuse s.boot.version } } := by
  have hlive : (decide (s.boot.state = 3) || decide (s.boot.state = 4)) = true := by simpa [State.IsLive] using h
  change execCtrlCommit s = _
  rw [execCtrlCommit, hlive, Bool.true_and]
  by_cases hlt : s.boot.fuse < s.boot.version
  · rw [if_pos (by simpa using hlt), Nat.max_eq_right (Nat.le_of_lt hlt)]
    rfl
  · rw [if_neg (by simpa using hlt), Nat.max_eq_left (Nat.not_lt.mp hlt)]
    rfl

theorem exec_fpcmdRead_live (h : s.IsLive) : exec .fpcmdRead s = .next { s with mgmt := { s.mgmt with
    fpdata := if inFrame s.mgmt.fpaddr.toNat then s.frameRec s.mgmt.fpaddr.toNat else 0 } } :=
  if_pos (State.live_of_isLive h)

theorem exec_fpcmdWrite_live (h : s.IsLive) (hin : inFrame s.mgmt.fpaddr.toNat = true) : exec .fpcmdWrite s = .next { s with
    frames := cset s.frames (s.mgmt.fpaddr.toNat / 4096) (BitVec.ofNat 64 (s.mgmt.fpdata.toNat % 2 ^ 54)) } :=
  if_pos (by rw [State.live_of_isLive h, hin]; rfl)

end

/-! ### Move requests (R379, R432) -/

/-- Words written one by one from s[d + k] on are written as a list. -/
theorem foldl_setS (ws : List Word) : ∀ (w : Wave) (d k : Nat),
    (ws.zipIdx k).foldl (fun w x => w.setS (d + x.2) x.1) w = { w with s := csetList w.s (d + k) ws } := by
  induction ws with
  | nil => exact fun _ _ _ => rfl
  | cons x ws ih => exact fun w d k => ih (w.setS (d + k) x) d (k + 1)

/-- The state in which core 0's agent, in focus, has taken the request. -/
def State.requested (s : State) : State := { s with
  wave := { s.wave with s := csetList s.wave.s 40 s.mgmt.mvreq }, mgmt := { s.mgmt with mvdone := false } }

/-- The result of the routine `mv_start`: s32 and s33, which the request's answer takes with s34 and s35. -/
theorem State.moveReturns_start {u : State} (hu : cellsWf u.wave.s = true) (x : Word) (f : Bool) :
    let w := { u.wave with s := csetList u.wave.s 32 [x, if f then 1 else 0], scc := f }
    State.moveReturns (State.agentResult (u, x, f) 32) = { u with
      wave := w, mgmt := { u.mgmt with mvresp := [x, if f then 1 else 0, cget w.s 34, cget w.s 35], mvdone := true } } := by
  intro w
  have h32 : cget w.s 32 = x := by simp [w, cget_csetList _ _ _ hu]
  have h33 : cget w.s 33 = if f then 1 else 0 := by simp [w, cget_csetList _ _ _ hu]
  refine Eq.trans (b := { u with wave := w, mgmt := { u.mgmt with mvresp := [cget w.s 32, cget w.s 33, cget w.s 34, cget w.s 35], mvdone := true } })
    rfl ?_
  rw [h32, h33]

/-- The result of the routine `mv_end`: s34 and s35. -/
theorem State.moveReturns_end {u : State} (hu : cellsWf u.wave.s = true) (x : Word) :
    let w := { u.wave with s := csetList u.wave.s 34 [x, 1], scc := true }
    State.moveReturns (State.agentResult (u, x, true) 34) = { u with
      wave := w, mgmt := { u.mgmt with mvresp := [cget w.s 32, cget w.s 33, x, 1], mvdone := true } } := by
  intro w
  have h34 : cget w.s 34 = x := by simp [w, cget_csetList _ _ _ hu]
  have h35 : cget w.s 35 = 1 := by simp [w, cget_csetList _ _ _ hu]
  refine Eq.trans (b := { u with wave := w, mgmt := { u.mgmt with mvresp := [cget w.s 32, cget w.s 33, cget w.s 34, cget w.s 35], mvdone := true } })
    rfl ?_
  rw [h34, h35]

section
variable {s : State} (hcore : s.wave.core = 0) (hslot : s.wave.slot = 15)
include hcore hslot

/-- Core 0's agent is in focus. -/
theorem State.focus_agent : s.focus 0 15 = s := by
  have hself := s.focus_self
  rwa [hcore, hslot] at hself

theorem State.takeRequest_agent : s.takeRequest = s.requested := by
  simp only [State.takeRequest, State.focus_agent hcore hslot, foldl_setS, State.requested]

end

section
variable {s : State} (hlive : s.IsLive) (hdone : s.mgmt.mvdone = true) (hcore : s.wave.core = 0) (hslot : s.wave.slot = 15)
  (hwf : cellsWf s.wave.s = true) {r0 r1 r2 r3 r4 r5 r6 r7 : Word} (hreq : s.mgmt.mvreq = [r0, r1, r2, r3, r4, r5, r6, r7])

include hwf hreq in
/-- The request's words stand in s40 to s47. -/
theorem State.requested_sreg (i : Nat) (hi : i < 8) : s.requested.wave.sreg (40 + i) = [r0, r1, r2, r3, r4, r5, r6, r7].getD i 0 := by
  have hin : 40 ≤ 40 + i ∧ 40 + i < 40 + [r0, r1, r2, r3, r4, r5, r6, r7].length :=
    ⟨by omega, by simp only [List.length_cons, List.length_nil]; omega⟩
  rw [State.requested, Wave.sreg, hreq, cget_csetList _ _ _ hwf, if_pos hin, Nat.add_sub_cancel_left]

include hlive hdone hcore hslot hwf hreq

/-- The start request is CPR.start on the request's words, or the agent's trap where CPR refuses them as operands. -/
theorem exec_mvdoorStart_agent : exec .mvdoorStart s = .next
    (if r7 ≠ 0 ∨ 5 < r6.toNat then s.requested.faultAt 2 0 s.wave.pc
    else State.moveReturns (State.agentResult (s.requested.moveStart (r1 ++ r0).toNat (r3 ++ r2).toNat r4 r5 r6.toNat) 32)) := by
  have hx := State.requested_sreg hwf hreq
  change execMvdoorStart s = _
  simp only [execMvdoorStart, State.live_of_isLive hlive, hdone, State.takeRequest_agent hcore hslot, Bool.not_true, Bool.or_self,
    Bool.false_eq_true, if_false]
  have h7 := hx 7 (by decide)
  have h6 := hx 6 (by decide)
  have h5 := hx 5 (by decide)
  have h4 := hx 4 (by decide)
  have h3 := hx 3 (by decide)
  have h2 := hx 2 (by decide)
  have h1 := hx 1 (by decide)
  have h0 := hx 0 (by decide)
  simp only [Nat.reduceAdd, List.getD_cons_succ, List.getD_cons_zero] at h0 h1 h2 h3 h4 h5 h6 h7
  simp only [Nat.reduceAdd, h0, h1, h2, h3, h4, h5, h6, h7, Bool.or_eq_true, bne_iff_ne, decide_eq_true_eq]
  rw [apply_ite Host.Outcome.next]
  rfl

/-- The end request queries the move; once its copy is complete CPR.end ends it. -/
theorem exec_mvdoorEnd_agent : exec .mvdoorEnd s = .next
    (let q := s.requested.moveQuery r0.toNat
    let v : State := { s.requested with wave := { s.requested.wave with s := cset s.requested.wave.s 33 q.2.1, scc := q.2.2 } }
    if q.2.2 then State.moveReturns (State.agentResult (v.moveEnd r0.toNat) 34) else v) := by
  have hx : s.requested.wave.sreg 40 = r0 := State.requested_sreg hwf hreq 0 (by decide)
  have hfocus : s.requested.focus 0 15 = s.requested := State.focus_agent hcore hslot
  change execMvdoorEnd s = _
  simp only [execMvdoorEnd, State.live_of_isLive hlive, hdone, State.takeRequest_agent hcore hslot, Bool.not_true, Bool.or_self,
    Bool.false_eq_true, if_false, State.moveRoutine, hfocus, hx]
  rfl

end

/-! ### Power (R98, R434) -/

section
variable {s : State}

theorem exec_plimitWrite_live (h : s.IsLive) {w : Word} (hlo : 300 ≤ w.toNat) (hhi : w.toNat ≤ 1800) :
    exec (.plimitWrite w) s = .next { s with mgmt := { s.mgmt with plimit := w }, pool := poolOf w, poolSet := poolOf w } :=
  if_neg (by simp [State.live_of_isLive h, hlo, hhi])

theorem exec_plimitWrite_refused {w : Word} (hw : w.toNat < 300 ∨ 1800 < w.toNat) : exec (.plimitWrite w) s = .next s :=
  if_pos (by simpa [or_assoc] using .inr hw)

/-- The state in which POWER shows `n` watts. -/
def State.withPower (s : State) (n : Nat) : State := { s with mgmt := { s.mgmt with power := BitVec.ofNat 32 n } }

theorem exec_powerThrottle_within {n : Nat} (hn : n ≤ s.mgmt.plimit.toNat) : exec (.powerThrottle n) s = .next (s.withPower n) :=
  if_pos (by simp [hn])

theorem exec_powerThrottle_above (h : s.IsLive) {n : Nat} (hn : s.mgmt.plimit.toNat < n) : exec (.powerThrottle n) s = .next
    (State.boxRecord { s.withPower n with pool := max 4 (s.pool - s.pool / 8) } 0 (unitRecord 6 0 0 s.clock 0)) := by
  have hlive : (s.withPower n).live = true := State.live_of_isLive h
  have hcond : ¬(!(s.withPower n).live || decide (n ≤ s.mgmt.plimit.toNat)) = true := by simpa [hlive] using hn
  exact if_neg hcond

theorem exec_powerRecover_within {n : Nat} (hn : 95 * s.mgmt.plimit.toNat ≤ 100 * n) :
    exec (.powerRecover n) s = .next (s.withPower n) :=
  if_pos (by simp [hn])

theorem exec_powerRecover_below (h : s.IsLive) {n : Nat} (hn : 100 * n < 95 * s.mgmt.plimit.toNat) (hpool : s.pool ≤ s.poolSet) :
    exec (.powerRecover n) s = .next { s.withPower n with pool := min s.poolSet (s.pool + s.pool / 8) } := by
  have hlive : (s.withPower n).live = true := State.live_of_isLive h
  have hcond : ¬(!(s.withPower n).live || decide (95 * s.mgmt.plimit.toNat ≤ 100 * n)) = true := by simpa [hlive] using hn
  have hmax : max s.pool (min s.poolSet (s.pool + s.pool / 8)) = min s.poolSet (s.pool + s.pool / 8) := by omega
  rw [← hmax]
  exact if_neg hcond

/-! ### Management registers (R427, R428) -/

/-- The low word of a 64-bit register replaced. -/
theorem setHalf_low (x : DWord) (v : Word) : setHalf x false v = x.extractLsb' 32 32 ++ v := by
  have hhi : hi32 x = x.extractLsb' 32 32 := BitVec.eq_of_toNat_eq (by simp [hi32])
  rw [← hhi]
  rfl

/-- Before READY a register takes no write (R427). -/
theorem exec_registerWrite_dead (h : ¬s.IsLive) {off : Nat} (hoff : off < 0x10000) (v : Word) :
    exec (.registerWrite off v) s = .next s := by
  have hdead : (s.boot.state != 3 && s.boot.state != 4) = true := by simpa [State.IsLive] using h
  change execRegisterWrite off v s = _
  rw [execRegisterWrite, if_neg (by omega), if_pos hdead]
  rfl

/-- A register below those of the heads takes a write: one marked RWL in READY alone (R427). -/
theorem exec_registerWrite_live (h : s.IsLive) {off : Nat} (hoff : off < 0x200) (v : Word) :
    exec (.registerWrite off v) s = .next { s with
      mgmt := (if s.boot.state = 3 then s.mgmt.lockedWrite off v else s.mgmt).openWrite off v } := by
  have hlive : ¬(s.boot.state != 3 && s.boot.state != 4) = true := by
    simp only [Bool.and_eq_true, bne_iff_ne]
    exact fun hne => h.elim hne.1 hne.2
  have hheads : ¬(decide (0x200 ≤ off) && decide (off < 0x280)) = true := by simp; omega
  change execRegisterWrite off v s = _
  rw [execRegisterWrite, if_neg (by omega), if_neg hlive, if_neg hheads]
  rfl

end

/-! ### Recovery (R431) -/

section
variable {s : State}

theorem exec_recoveryBoot : exec .recoveryBoot s = .next
    (if s.boot.state ≠ 5 then s.status 5 else if 2 ^ 22 < s.boot.staged.len + 256 then s.status 6
    else if s.boot.staged.verdict s.boot.fuse ≠ 0 then s.status (s.boot.staged.verdict s.boot.fuse)
    else s.start s.boot.staged.version s.boot.slot) := by
  change execRecoveryBoot s = _
  simp only [execRecoveryBoot, bne_iff_ne, apply_ite Host.Outcome.next]
  rfl

/-- The slot that ARG names is its lowest bit. -/
theorem bits_slot (x : Word) : bits x 0 0 = (x.extractLsb' 0 1).toNat := bits_eq_extractLsb' x 0 0

/-- Bits of ARG above bit `lo` are clear where its value is below 2^lo. -/
theorem bits_arg_ne_zero (x : Word) {lo : Nat} (hlo : lo ≤ 31) : bits x 31 lo ≠ 0 ↔ 2 ^ lo ≤ x.toNat := by
  have hlt : x.toNat / 2 ^ lo < 2 ^ (31 + 1 - lo) := by
    rw [Nat.div_lt_iff_lt_mul (by positivity), ← pow_add, Nat.sub_add_cancel (by omega)]
    exact x.isLt
  rw [bits, Nat.mod_eq_of_lt hlt, Ne, Nat.div_eq_zero_iff]
  have hpos : 2 ^ lo ≠ 0 := by positivity
  omega

theorem exec_recoveryBootslot : let n := (s.boot.arg.extractLsb' 0 1).toNat
    let v := (s.boot.image n).verdict s.boot.fuse
    exec .recoveryBootslot s = .next
      (if s.boot.state ≠ 5 then s.status 5 else if 2 ≤ s.boot.arg.toNat then s.status 4
      else if v ≠ 0 then s.status v else s.start (s.boot.image n).version n) := by
  intro n v
  have harg := bits_arg_ne_zero s.boot.arg (lo := 1) (by decide)
  change execRecoveryBootslot s = _
  simp only [execRecoveryBootslot, bits_slot, bne_iff_ne, harg, pow_one, apply_ite Host.Outcome.next]
  rfl

theorem exec_recoveryProgram_badArg (h : 16 ≤ s.boot.arg.toNat) : exec .recoveryProgram s = .next (s.status 4) :=
  if_pos (bne_iff_ne.mpr ((bits_arg_ne_zero s.boot.arg (lo := 4) (by decide)).mpr h))

/-- PROGRAM of a whole image into the slot that ARG names. -/
theorem exec_recoveryProgram_whole (harg : s.boot.arg.toNat < 2) (hlen : s.boot.staged.len + 256 ≤ partSize) :
    exec .recoveryProgram s = .next (s.programWhole (s.boot.arg.extractLsb' 0 1).toNat 0) := by
  have hk : bits s.boot.arg 3 1 = 0 := by rw [bits]; omega
  have hhigh : ¬(bits s.boot.arg 31 4 != 0) = true := by
    rw [bne_iff_ne, bits_arg_ne_zero _ (by decide)]
    omega
  have hnot : ¬(s.boot.part == some (bits s.boot.arg 0 0, 0) && (0 : Nat) != 0) = true := by simp
  change execRecoveryProgram s = _
  simp only [execRecoveryProgram, hk]
  rw [if_neg hhigh, if_neg hnot, if_pos hlen, bits_slot]
  rfl

/-- A whole image is written to its slot, the rest of the first part erased, where it is accepted. -/
theorem State.programWhole_zero (n : Nat) : let v := s.boot.staged.verdict s.boot.fuse
    let bytes := cgetList s.boot.staging 0 (s.boot.staged.len + 256) ++ List.replicate (partSize - (s.boot.staged.len + 256)) Config.erased
    s.programWhole n 0 = { s with boot := if v ≠ 0 then { s.boot with status := v } else { s.boot with
      status := 0, part := none, flash := csetList s.boot.flash (n * slotSize) bytes } } := by
  intro v bytes
  have hzero : ¬((0 : Nat) != 0) = true := by simp
  rw [State.programWhole, if_neg hzero]
  by_cases hv : v = 0
  · rw [if_neg (not_not.mpr hv), if_neg (by simpa using hv)]
    simp only [State.program, zero_mul, add_zero, bytes]
  · rw [if_pos hv, if_pos (by simpa using hv)]
    rfl

end

/-- Settles O23, clause by clause from the lemmas above, one per event. -/
theorem managementEvents : Obligations.ManagementEvents := by
  unfold Obligations.ManagementEvents
  intro s b live to_ managed accepted slot starts
  refine ⟨fun h => if_pos h, fun h => if_neg h, exec_ctrlWarmrst_live, exec_ctrlWarmrst_dead,
    fun v n => ⟨rfl, rfl, rfl, rfl, rfl, rfl, rfl, rfl, rfl, State.start_box s v n⟩, exec_ctrlGo_ready, fun _ => rfl,
    exec_ctrlCommit_live, exec_fpcmdRead_live, exec_fpcmdWrite_live, ?moves,
    fun w => ⟨fun hlive hlo hhi => exec_plimitWrite_live hlive hlo hhi, exec_plimitWrite_refused⟩, ?power, ?registers,
    exec_recoveryBoot, exec_recoveryBootslot, exec_recoveryProgram_badArg, ?program⟩
  case moves =>
    intro hlive hdone hcore hslot hwf r0 r1 r2 r3 r4 r5 r6 r7 hreq t
    have hstart := exec_mvdoorStart_agent hlive hdone hcore hslot hwf hreq
    have hend := exec_mvdoorEnd_agent hlive hdone hcore hslot hwf hreq
    refine ⟨fun h7 h6 u x f hmove hu => ?_, fun hbad => ?_, fun u x p hquery => ?_, fun p hquery => ?_⟩
    · have hok : ¬(r7 ≠ 0 ∨ 5 < r6.toNat) := by simpa [h7] using h6
      have hanswer : s.requested.moveStart (r1 ++ r0).toNat (r3 ++ r2).toNat r4 r5 r6.toNat = (u, x, f) := hmove
      rw [hstart, if_neg hok, hanswer]
      exact congrArg Host.Outcome.next (State.moveReturns_start hu x f)
    · rw [hstart, if_pos hbad]
      rfl
    · intro v hmove hu
      have hanswer : s.requested.moveQuery r0.toNat = (s.requested, p, true) := hquery
      rw [hend, hanswer]
      exact congrArg Host.Outcome.next ((congrArg (fun a => State.moveReturns (State.agentResult a 34)) hmove).trans
        (State.moveReturns_end hu x))
    · have hanswer : s.requested.moveQuery r0.toNat = (s.requested, p, false) := hquery
      rw [hend, hanswer]
      rfl
  case power =>
    intro n m
    exact ⟨exec_powerThrottle_within, fun hlive hn => ⟨_, exec_powerThrottle_above hlive hn, rfl, rfl, rfl, rfl,
      congrArg Die.wcount (tget_tset_self _ _ _ _)⟩, exec_powerRecover_within,
      fun hlive hn hpool => exec_powerRecover_below hlive hn hpool⟩
  case registers =>
    intro v
    refine ⟨fun hdead => ⟨exec_registerWrite_dead hdead (by decide) v, exec_registerWrite_dead hdead (by decide) v⟩,
      fun h3 => ?_, fun h4 => ?_, fun hlive => ?_, rfl⟩
    · rw [exec_registerWrite_live (.inl h3) (by decide), if_pos h3]
      rfl
    · rw [exec_registerWrite_live (.inr h4) (by decide), if_neg (by rw [h4]; decide)]
      rfl
    · have hlocked : (if s.boot.state = 3 then s.mgmt.lockedWrite 0x78 v else s.mgmt) = s.mgmt := ite_self _
      rw [exec_registerWrite_live hlive (by decide), hlocked, ← setHalf_low]
      rfl
  case program =>
    intro harg hpart hlen v bytes
    rw [exec_recoveryProgram_whole harg hlen, State.programWhole_zero, ← hpart]
    rfl

end Sys2Proof.Machine
end

section
/-! PROOF. Scalar instructions with and without an immediate (R104, R107, R108): what each posts, as an operation on words; together they
settle O33 and O34. -/

namespace Sys2Proof.Machine

open Sys2Proof.Claims

section
variable {s : State} {i : Instr}

/-- A ready instruction whose effect in the state is `a`. -/
theorem exec_of_effect {eff : State → Act} {a : Act} (h : Ready i s) (he : exec i s = .next (run i s eff)) (ha : eff s = a) :
    exec i s = .next (settleNew s i a) := by
  rw [he, run_of_ready h, ha]

/-- An instruction of the scalar path posts its results for 2 clocks later and retires (R88). -/
theorem exec_scalar {len : Nat} {g : Wave → List WaveWrite} {xs : List WaveWrite} (h : Ready i s)
    (he : exec i s = .next (runScalar i s g)) (hl : insLen i = len) (hg : g s.wave = xs) :
    exec i s = .next (after s len (landing s 2 xs)) := by
  rw [he, runScalar_of_ready h, hl, hg]

/-! ### Immediates (R108) -/

/-- One with an 11-bit immediate replaces its register by its operation on the register and the immediate. -/
theorem exec_scalarImm {f : K32} {op : Nat → Nat → Nat} {y : Word} (h : Ready i s) (he : exec i s = .next (scalarImm i f s op))
    (hl : insLen i = 4) (hy : BitVec.ofNat 32 (op (s.wave.sreg f.d.toNat).toNat (f.imm.signExtend 32).toNat) = y) :
    exec i s = .next (after s 4 (landing s 2 [.sreg f.d.toNat y])) :=
  exec_scalar h he hl (congrArg (fun x => [WaveWrite.sreg f.d.toNat x]) hy)

/-! ### Results of 32 and of 64 bits (R104) -/

/-- A number written as a result of the scalar path, by the word that it is at the width of the result. -/
theorem swrite_eq_scalar {d : BitVec 8} {wide : Bool} {x : Nat} {y : DWord} (hwide : wide = true → BitVec.ofNat 64 x = y)
    (hnarrow : wide = false → BitVec.ofNat 32 x = y.setWidth 32) : swrite d.toNat wide x = scalar d wide y := by
  cases wide
  · simp [swrite, scalar, hnarrow]
  · obtain rfl := hwide rfl
    have hhigh : BitVec.ofNat 32 (x / 2 ^ 32) = (BitVec.ofNat 64 x >>> 32).setWidth 32 := by
      apply BitVec.eq_of_toNat_eq
      simp only [BitVec.toNat_ofNat, BitVec.toNat_setWidth, BitVec.toNat_ushiftRight, Nat.shiftRight_eq_div_pow]
      omega
    have hlow : BitVec.ofNat 32 x = (BitVec.ofNat 64 x).setWidth 32 := (BitVec.setWidth_ofNat_of_le (by decide) x).symm
    simp only [swrite, scalar, if_true, hhigh, hlow]

theorem swrite_toNat (d : BitVec 8) (wide : Bool) (y : DWord) : swrite d.toNat wide y.toNat = scalar d wide y :=
  swrite_eq_scalar (fun _ => by simp) fun _ => by simp

/-- A scalar operand as a number, at either width. -/
theorem swrite_sopN (w : Wave) (d f : BitVec 8) (wide : Bool) : swrite d.toNat wide (w.sopN wide f) = scalar d wide (operand w wide f) := by
  cases wide
  · exact swrite_eq_scalar nofun fun _ => by simp [Wave.sopN, operand]
  · exact swrite_toNat d true (w.sop64 f)

/-- An operation on numbers of 32 or 64 bits that is `r` on words: on words of 32 bits, zero-extended, as far as the low word goes
(R104). -/
structure ComputesAt (op : Nat → Nat → Nat → Nat) (r : DWord → DWord → DWord) : Prop where
  wide : ∀ a b : DWord, BitVec.ofNat 64 (op 64 a.toNat b.toNat) = r a b
  narrow : ∀ a b : Word, BitVec.ofNat 32 (op 32 a.toNat b.toNat) = (r (a.setWidth 64) (b.setWidth 64)).setWidth 32

theorem computesAt_and : ComputesAt (fun _ a b => a &&& b) fun a b => a &&& b where
  wide a b := by simp [BitVec.ofNat_and]
  narrow a b := by simp [BitVec.ofNat_and]

theorem computesAt_or : ComputesAt (fun _ a b => a ||| b) fun a b => a ||| b where
  wide a b := by simp [BitVec.ofNat_or]
  narrow a b := by simp [BitVec.ofNat_or]

theorem computesAt_xor : ComputesAt (fun _ a b => a ^^^ b) fun a b => a ^^^ b where
  wide a b := by simp [BitVec.ofNat_xor]
  narrow a b := by simp [BitVec.ofNat_xor]

theorem computesAt_mul : ComputesAt (fun _ a b => a * b) fun a b => a * b where
  wide a b := by simp [BitVec.ofNat_mul]
  narrow a b := by simp [BitVec.ofNat_mul, BitVec.setWidth_mul]

theorem ofNat_mod_two_pow (n x : Nat) : BitVec.ofNat n (x % 2 ^ n) = BitVec.ofNat n x :=
  BitVec.eq_of_toNat_eq (by simp)

/-- A two-operand instruction of the scalar path. -/
theorem exec_scalarBin {f : G64} {op : Nat → Nat → Nat → Nat} {r : DWord → DWord → DWord} (h : Ready i s) (hop : ComputesAt op r)
    (he : exec i s = .next (scalarBin i f s op)) (hl : insLen i = 8) :
    exec i s = .next (after s 8 (landing s 2 (scalar f.d (wbit f) (r (operand s.wave (wbit f) f.a) (operand s.wave (wbit f) f.b))))) := by
  refine exec_scalar h he hl (swrite_eq_scalar (fun hw => ?_) fun hw => ?_)
  · simp only [spWidth, hw, if_true, ofNat_mod_two_pow]
    exact hop.wide _ _
  · simp only [spWidth, hw, Bool.false_eq_true, if_false, ofNat_mod_two_pow]
    exact hop.narrow _ _

end

theorem scalarImmediateResults : ScalarImmediateResults := by
  intro s f a b n
  have hn : bits f.imm 4 0 = n := bits_eq_extractLsb' f.imm 4 0
  simp only [List.forall_mem_cons, List.not_mem_nil, false_implies, implies_true, and_true]
  refine ⟨?_, ?_, ?_, ?_, ?_, ?_, ?_, ?_, ?_⟩
  · exact fun h => exec_scalar h rfl rfl rfl
  · exact fun h => exec_scalarImm h rfl rfl (computes_add _ _)
  · exact fun h => exec_scalarImm h rfl rfl (ofNat_subMod _ _)
  · exact fun h => exec_scalarImm h rfl rfl (computes_mul _ _)
  · exact fun h => exec_scalarImm h rfl rfl (computes_and _ _)
  · exact fun h => exec_scalarImm h rfl rfl (computes_or _ _)
  · exact fun h => exec_scalarImm h rfl rfl (computes_xor _ _)
  · exact fun h => exec_scalarImm h rfl rfl (hn ▸ ofNat_shiftL a _)
  · exact fun h => exec_scalarImm h rfl rfl (hn ▸ ofNat_shiftR a _ _)

theorem nopAndLongImmediate : NopAndLongImmediate := by
  refine ⟨fun s f h => exec_scalar (xs := []) h rfl rfl rfl, fun s f h => exec_scalar (xs := []) h rfl rfl rfl,
    fun s f h => exec_scalar h rfl rfl ?_⟩
  cases hw : f.sub7.getLsbD 0
  · have hlow : (f.imm.signExtend 64).setWidth 32 = f.imm := by
      apply BitVec.eq_of_getLsbD_eq
      intro i hi
      simp [BitVec.getElem_signExtend, hi, show i < 64 by omega]
    simp [scalar, hlow]
  · exact swrite_toNat f.d true _

/-- Settles O33: each instruction with an immediate makes an operation on numbers that is one on words. -/
theorem scalarMovesAndImmediates : Obligations.ScalarMovesAndImmediates := ⟨scalarImmediateResults, nopAndLongImmediate⟩

/-! ### Sums and differences (R107) -/

section
variable {w : Wave} {f : G64} (c : Bool)

theorem swrite_addC : swrite f.d.toNat (wbit f) (addC (spWidth f) (w.sopN (wbit f) f.a) (w.sopN (wbit f) f.b) c).1 =
    scalar f.d (wbit f) (operand w (wbit f) f.a + operand w (wbit f) f.b + BitVec.ofNat 64 (if c then 1 else 0)) := by
  refine swrite_eq_scalar (fun hw => ?_) fun hw => ?_
  · simp only [spWidth, hw, if_true]
    exact ofNat_addC _ _ c
  · simp only [spWidth, hw, Bool.false_eq_true, if_false]
    refine (ofNat_addC _ _ c).trans ?_
    simp [operand, BitVec.setWidth_add]

theorem swrite_subB : swrite f.d.toNat (wbit f) (subB (spWidth f) (w.sopN (wbit f) f.a) (w.sopN (wbit f) f.b) c).1 =
    scalar f.d (wbit f) (operand w (wbit f) f.a - operand w (wbit f) f.b - BitVec.ofNat 64 (if c then 1 else 0)) := by
  refine swrite_eq_scalar (fun hw => ?_) fun hw => ?_
  · simp only [spWidth, hw, if_true]
    exact ofNat_subB _ _ c
  · simp only [spWidth, hw, Bool.false_eq_true, if_false]
    refine (ofNat_subB _ _ c).trans ?_
    simp [operand, BitVec.sub_eq_add_neg, BitVec.setWidth_add]

/-- A scalar operand is the same number at the width of the operation and zero-extended. -/
theorem operand_toNat (w : Wave) (wide : Bool) (x : BitVec 8) : (operand w wide x).toNat = w.sopN wide x := by
  cases wide
  · exact BitVec.toNat_setWidth_of_le (w := 32) (w' := 64) (by decide)
  · rfl

theorem addC_sopN_carry : (addC (spWidth f) (w.sopN (wbit f) f.a) (w.sopN (wbit f) f.b) c).2 =
    decide (2 ^ spWidth f ≤ w.sopN (wbit f) f.a + w.sopN (wbit f) f.b + if c then 1 else 0) := by
  unfold spWidth
  cases wbit f
  · exact addC_carry (w.sop f.a) (w.sop f.b) c
  · exact addC_carry (w.sop64 f.a) (w.sop64 f.b) c

theorem subB_sopN_borrow : (subB (spWidth f) (w.sopN (wbit f) f.a) (w.sopN (wbit f) f.b) c).2 =
    decide (w.sopN (wbit f) f.a < w.sopN (wbit f) f.b + if c then 1 else 0) := by
  unfold spWidth
  cases wbit f
  · exact subB_borrow (w.sop f.a) (w.sop f.b) c
  · exact subB_borrow (w.sop64 f.a) (w.sop64 f.b) c

end

theorem scalarSums : ScalarSums := by
  intro s f w wide a b c size flag
  have hc : c = if f.sub == 2 && w.scc then 1 else 0 := by simp [c]
  have ha : a.toNat = w.sopN wide f.a := operand_toNat w wide f.a
  have hb : b.toNat = w.sopN wide f.b := operand_toNat w wide f.b
  have hflag (x : Bool) : (if f.sub == 0 then [] else [WaveWrite.scc x]) = flag x := by simp [flag]
  refine ⟨fun h => exec_scalar h rfl rfl ?_, fun h => exec_scalar h rfl rfl ?_⟩
  · simp only [swrite_addC, addC_sopN_carry, hflag, hc, ha, hb]
    rfl
  · simp only [swrite_subB, subB_sopN_borrow, hflag, hc, ha, hb]
    rfl

/-! ### Shifts, selections (R107) -/

/-- A scalar instruction of the scalar path that can issue meets the condition of its entry on SUB and on W (R83, R106). -/
theorem scalarFields_of_ready {s : State} {i : Instr} {f : G64} {n : Nat} {wide : Bool} {d a b c : Role} (h : Ready i s)
    (hi : shapeOf i = spShape f n wide d a b c) : f.sub.toNat ≤ n ∧ (wide = false → wbit f = false) := by
  obtain ⟨-, -, hcheck, -⟩ := h
  have hok := fieldsOk_of_check hcheck
  simp only [fieldsOk, hi, spShape, Shape.ok, Bool.and_eq_true, subLe, modLe, decide_eq_true_eq] at hok
  obtain ⟨⟨⟨⟨⟨⟨⟨hsub, hmod⟩, -⟩, -⟩, -⟩, -⟩, -⟩, -⟩ := hok
  refine ⟨hsub, fun hw => ?_⟩
  have hzero : f.mod = 0 := by
    rw [hw, if_neg Bool.false_ne_true] at hmod
    exact BitVec.eq_of_toNat_eq (by simpa using hmod)
  rw [wbit, hzero]
  rfl

theorem setWidth_ushiftRight_zeroExtend (a : Word) (n : Nat) : (a.setWidth 64 >>> n).setWidth 32 = a >>> n := by
  rw [← BitVec.setWidth_ushiftRight (by decide), BitVec.setWidth_setWidth_of_le _ (by decide), BitVec.setWidth_eq]

theorem setWidth_shiftLeft_zeroExtend (a : Word) (n : Nat) : (a.setWidth 64 <<< n).setWidth 32 = a <<< n := by
  apply BitVec.eq_of_getLsbD_eq
  intro i hi
  simp [hi]

theorem ule_zeroExtend (a b : Word) : (a.setWidth 64).ule (b.setWidth 64) = a.ule b := by
  rw [BitVec.ule, BitVec.toNat_setWidth_of_le (by decide), BitVec.toNat_setWidth_of_le (by decide), BitVec.ule]

section
variable {w : Wave} {f : G64}

theorem swrite_shiftL (n : Nat) : swrite f.d.toNat (wbit f) (shiftL (spWidth f) (w.sopN (wbit f) f.a) n) =
    scalar f.d (wbit f) (operand w (wbit f) f.a <<< n) := by
  refine swrite_eq_scalar (fun hw => ?_) fun hw => ?_
  · simp only [spWidth, hw, if_true]
    exact ofNat_shiftL _ n
  · simp only [spWidth, hw, Bool.false_eq_true, if_false]
    exact (ofNat_shiftL _ n).trans (setWidth_shiftLeft_zeroExtend _ n).symm

theorem swrite_shiftR (n : Nat) (arith : Bool) : swrite f.d.toNat (wbit f) (shiftR (spWidth f) (w.sopN (wbit f) f.a) n arith) =
    scalar f.d (wbit f) (if arith then
      (if wbit f then (operand w (wbit f) f.a).sshiftRight n else ((w.sop f.a).sshiftRight n).setWidth 64)
      else operand w (wbit f) f.a >>> n) := by
  refine swrite_eq_scalar (fun hw => ?_) fun hw => ?_
  · simp only [spWidth, hw, if_true]
    exact ofNat_shiftR _ n arith
  · simp only [spWidth, hw, Bool.false_eq_true, if_false]
    refine (ofNat_shiftR _ n arith).trans ?_
    cases arith
    · exact (setWidth_ushiftRight_zeroExtend _ n).symm
    · simp

/-- The lesser or the greater of two words, signed for SUB 0 and 1, unsigned for 2 and 3. -/
theorem ofNat_minmax_sub {n : Nat} {sub : BitVec 4} (hsub : sub.toNat ≤ 3) (a b : BitVec n) :
    BitVec.ofNat n (minmax sub.toNat n a.toNat b.toNat) =
      if (if sub.toNat ≤ 1 then a.sle b else a.ule b) = sub.getLsbD 0 then b else a := by
  have hle : a.sle b = decide (sgn n a.toNat ≤ sgn n b.toNat) := by rw [sgn_toNat, sgn_toNat, BitVec.sle]
  have hbit : sub.getLsbD 0 = decide (sub.toNat % 2 = 1) := by rw [← nbit_toNat]; simp [nbit]
  rw [hle, hbit, BitVec.ule]
  generalize sub.toNat = k at hsub
  match k, hsub with
  | 0, _ => by_cases h : sgn n a.toNat ≤ sgn n b.toNat <;> simp [minmax, h]
  | 1, _ => by_cases h : sgn n a.toNat ≤ sgn n b.toNat <;> simp [minmax, h]
  | 2, _ => by_cases h : a.toNat ≤ b.toNat <;> simp [minmax, h, Nat.min_def]
  | 3, _ => by_cases h : a.toNat ≤ b.toNat <;> simp [minmax, h, Nat.max_def]

theorem swrite_minmax (hsub : f.sub.toNat ≤ 3) :
    swrite f.d.toNat (wbit f) (minmax f.sub.toNat (spWidth f) (w.sopN (wbit f) f.a) (w.sopN (wbit f) f.b) % 2 ^ spWidth f) =
      scalar f.d (wbit f) (if (if f.sub.toNat ≤ 1 then
          (if wbit f then (operand w (wbit f) f.a).sle (operand w (wbit f) f.b) else (w.sop f.a).sle (w.sop f.b))
          else (operand w (wbit f) f.a).ule (operand w (wbit f) f.b)) = f.sub.getLsbD 0
        then operand w (wbit f) f.b else operand w (wbit f) f.a) := by
  refine swrite_eq_scalar (fun hw => ?_) fun hw => ?_
  · simp only [spWidth, hw, if_true, ofNat_mod_two_pow]
    exact ofNat_minmax_sub hsub _ _
  · simp only [spWidth, hw, Bool.false_eq_true, if_false, ofNat_mod_two_pow]
    refine (ofNat_minmax_sub hsub _ _).trans ?_
    simp [operand, apply_ite (BitVec.setWidth 32), ule_zeroExtend]

end

theorem scalarOperations : ScalarOperations := by
  intro s f w wide a b n less
  simp only [List.forall_mem_cons, List.not_mem_nil, false_implies, implies_true, and_true]
  refine ⟨?_, ?_, ?_, ?_, ?_, ?_, ?_, ?_, ?_⟩
  · exact fun h => exec_scalar h rfl rfl (swrite_sopN w f.d f.a wide)
  · exact fun h => exec_scalarBin h computesAt_and rfl rfl
  · exact fun h => exec_scalarBin h computesAt_or rfl rfl
  · exact fun h => exec_scalarBin h computesAt_xor rfl rfl
  · exact fun h => exec_scalarBin h computesAt_mul rfl rfl
  · exact fun h => exec_scalar h rfl rfl (swrite_shiftL n)
  · refine fun h => exec_scalar h rfl rfl ((swrite_shiftR n (f.sub == 1)).trans ?_)
    simp only [beq_iff_eq]
    rfl
  · refine fun h => exec_scalar h rfl rfl ?_
    rw [← apply_ite, swrite_sopN]
    exact congrArg _ (apply_ite _ _ _ _)
  · intro h
    obtain ⟨hsub, -⟩ := scalarFields_of_ready h rfl
    exact exec_scalar h rfl rfl (swrite_minmax hsub)

/-! ### High product, fields (R107) -/

theorem ofNat_mulHigh (signed : Bool) (a b : Word) : BitVec.ofNat 32 (mulHigh signed a.toNat b.toNat) =
    ((if signed then a.signExtend 64 * b.signExtend 64 else a.setWidth 64 * b.setWidth 64) >>> 32).setWidth 32 := by
  apply BitVec.eq_of_toNat_eq
  cases signed
  · simp only [mulHigh, Bool.false_eq_true, if_false, ← toNat_mul_toNat, BitVec.toNat_ofNat, BitVec.toNat_setWidth,
      BitVec.toNat_ushiftRight, Nat.shiftRight_eq_div_pow]
    omega
  · simp only [mulHigh, if_true, sgn_toNat, ofNat_wrap, ← toInt_mul_toInt, BitVec.toNat_ofInt, BitVec.toNat_setWidth,
      BitVec.toNat_ushiftRight, Nat.shiftRight_eq_div_pow]
    omega

theorem ofNat_bitField (a : Word) (pos wid : Nat) (signed : Bool) : BitVec.ofNat 32 (bitField a.toNat pos wid signed) =
    if signed then (a.extractLsb' pos (min wid (32 - pos))).signExtend 32 else (a.extractLsb' pos (min wid (32 - pos))).setWidth 32 := by
  have hfield : a.toNat / 2 ^ pos % 2 ^ min wid (32 - pos) = (a.extractLsb' pos (min wid (32 - pos))).toNat := by
    rw [BitVec.extractLsb'_toNat, Nat.shiftRight_eq_div_pow]
  simp only [bitField, hfield]
  split
  case isTrue h => rw [h, BitVec.eq_nil (a.extractLsb' pos 0)]; cases signed <;> rfl
  case isFalse =>
    cases signed
    · exact BitVec.ofNat_toNat 32 _
    · simp only [if_true, ofNat_wrap, sgn_toNat]
      rfl

theorem scalarHighProductAndField : ScalarHighProductAndField := by
  intro s f w a b pos wid high field
  refine ⟨fun h => exec_scalar h rfl rfl ?_, fun h => exec_scalar h rfl rfl ?_⟩
  · obtain ⟨-, hnarrow⟩ := scalarFields_of_ready h rfl
    have hw : wbit f = false := hnarrow rfl
    simp only [spWidth, hw, Bool.false_eq_true, if_false, swrite, ofNat_mod_two_pow]
    refine congrArg (fun x => [WaveWrite.sreg f.d.toNat x]) ((ofNat_mulHigh (f.sub == 0) a b).trans ?_)
    simp only [beq_iff_eq]
    rfl
  · refine congrArg (fun x => [WaveWrite.sreg f.d.toNat x]) ((ofNat_bitField a pos _ (f.sub == 1)).trans ?_)
    simp only [beq_iff_eq]
    rfl

/-- Settles O34: the operations on numbers of 32 or 64 bits are operations on words. -/
theorem scalarArithmetic : Obligations.ScalarArithmetic := ⟨scalarSums, scalarOperations, scalarHighProductAndField⟩

end Sys2Proof.Machine
end

section
/-! PROOF. Branches, calls, returns and LOOP (R110 to R113): what a control transfer comes to by its target (R111); together they settle O2
and O36. -/

namespace Sys2Proof.Machine

open Sys2Proof.Claims

section
variable {s : State} {i : Instr} {target : DWord} {v : Wave}

/-! ### The target (R111) -/

theorem transfer_reachable (w : Wave) (h : Reachable target) : w.transfer target v = .jump v target := by
  obtain ⟨heven, hnear⟩ := h
  obtain ⟨hodd, -⟩ | ⟨-, hfar, -⟩ | ⟨-, -, hjump⟩ := transfer_cases w v target
  · exact absurd (heven.symm.trans hodd) Bool.false_ne_true
  · omega
  · exact hjump

theorem transfer_odd (w : Wave) (h : target.getLsbD 0 = true) : w.transfer target v = .trap 5 0 target := if_pos h

theorem transfer_outOfReach (w : Wave) (heven : target.getLsbD 0 = false) (hfar : 2 ^ 52 ≤ target.toNat) :
    w.transfer target v = .trap 8 4 target := by
  obtain ⟨hodd, -⟩ | ⟨-, -, htrap⟩ | ⟨-, hnear, -⟩ := transfer_cases w v target
  · exact absurd (heven.symm.trans hodd) Bool.false_ne_true
  · exact htrap
  · omega

/-! ### Instructions that transfer control -/

/-- What a transfer to `target` comes to, where the wave that goes there is `v` (R111). -/
structure Transfers (i : Instr) (s : State) (v : Wave) (target : DWord) : Prop where
  goes : Reachable target → exec i s = .next (gone s v target)
  misaligned : target.getLsbD 0 = true → exec i s = .next (s.faultAt 5 0 target)
  outOfReach : target.getLsbD 0 = false → 2 ^ 52 ≤ target.toNat → exec i s = .next (s.faultAt 8 4 target)

theorem transfers_of_effect {eff : State → Act} (h : Ready i s) (he : exec i s = .next (run i s eff))
    (heff : eff s = s.wave.transfer target v) : Transfers i s v target where
  goes ht := by
    rw [he, run_of_ready h, heff, transfer_reachable _ ht]
    rfl
  misaligned hodd := by
    rw [he, run_of_ready h, heff, transfer_odd _ hodd]
    rfl
  outOfReach heven hfar := by
    rw [he, run_of_ready h, heff, transfer_outOfReach _ heven hfar]
    rfl

variable {c : Wave → Bool} {dest : Wave → DWord}

/-- The effect of a branch. -/
def branchEffect (c : Wave → Bool) (dest : Wave → DWord) (s : State) : Act :=
  if c s.wave then s.wave.transfer (dest s.wave) s.wave else .wave s.wave

theorem branch_taken (h : Ready i s) (he : exec i s = .next (branch i s c dest)) (hc : c s.wave = true) :
    Transfers i s s.wave (dest s.wave) := transfers_of_effect (eff := branchEffect c dest) h he (if_pos hc)

theorem branch_notTaken (h : Ready i s) (he : exec i s = .next (branch i s c dest)) (hc : c s.wave = false) :
    exec i s = .next (after s (insLen i) s.wave) := by
  have heff : branchEffect c dest s = .wave s.wave := if_neg (by rw [hc]; exact Bool.false_ne_true)
  refine he.trans (congrArg Host.Outcome.next ((run_of_ready h (branchEffect c dest)).trans ?_))
  rw [heff]
  rfl

theorem call_transfers (h : Ready i s) (he : exec i s = .next (callTo i s dest)) :
    Transfers i s (s.wave.setSpair 62 (s.wave.pc + BitVec.ofNat 64 (insLen i))) (dest s.wave) :=
  transfers_of_effect (eff := fun s => s.wave.transfer (dest s.wave) (s.wave.setSpair 62 (s.wave.pc + BitVec.ofNat 64 (insLen i)))) h he rfl

end

/-! ### Branches (R110, R112) -/

/-- No lane lies outside the mask where all of them lie in it. -/
theorem and_not_beq_zero (lanes x : Lanes) : (lanes &&& ~~~x == 0) = (lanes &&& x == lanes) := by
  rw [Bool.eq_iff_iff, beq_iff_eq, beq_iff_eq]
  constructor
  · intro h
    calc lanes &&& x = lanes &&& x ||| lanes &&& ~~~x := by rw [h]; exact (BitVec.or_zero).symm
      _ = lanes := by rw [← BitVec.and_or_distrib_left, BitVec.or_not_self, BitVec.and_allOnes]
  · intro h
    rw [← h, BitVec.and_assoc]
    simp

/-- The condition of BRM as R110 words it: none, any, all, not all of the lanes have the mask's bit set. -/
theorem brmCond_eq (c : Nat) (lanes x : Lanes) : brmCond c lanes x = match c with
    | 0 => lanes &&& x == 0
    | 1 => lanes &&& x != 0
    | 2 => lanes &&& x == lanes
    | _ => lanes &&& x != lanes := by
  match c with
  | 0 => rfl
  | 1 => rfl
  | 2 => exact and_not_beq_zero lanes x
  | _ + 3 => exact congrArg not (and_not_beq_zero lanes x)

theorem brm_eq (w : Wave) (m c : Nat) : w.brm m c = brmCond c (if m = 0 then w.live else w.em) (if m = 0 then w.em else w.mask m) := by
  by_cases hm : m = 0 <;> simp [Wave.brm, hm]

/-- Every entry of the list of branches is a branch with that condition and target. -/
theorem exec_eq_branch (s : State) (b : B32) (l : L64) (k : K32) : ∀ p ∈ branches s b l k, ∃ c dest,
    exec p.1 s = .next (branch p.1 s c dest) ∧ c s.wave = p.2.1 ∧ dest s.wave = p.2.2 := by
  simp only [branches, List.forall_mem_cons, List.not_mem_nil, false_implies, implies_true, and_true]
  refine ⟨⟨_, _, rfl, rfl, rfl⟩, ⟨_, _, rfl, rfl, rfl⟩, ⟨_, _, rfl, rfl, rfl⟩, ⟨_, _, rfl, rfl, rfl⟩, ⟨_, _, rfl, ?_, rfl⟩,
    ⟨_, _, rfl, ?_, rfl⟩, ⟨_, _, rfl, rfl, rfl⟩, ⟨_, _, rfl, rfl, rfl⟩⟩
  · rw [bits_eq_extractLsb', bits_eq_extractLsb', brm_eq]
    exact brmCond_eq _ _ _
  · rw [bits_eq_extractLsb', brm_eq]
    exact brmCond_eq _ _ _

theorem branchesGoToTheirTarget : BranchesGoToTheirTarget := by
  intro s b l k p hp h
  obtain ⟨c, dest, he, hc, hdest⟩ := exec_eq_branch s b l k p hp
  rw [← hc, ← hdest]
  exact ⟨fun htaken => (branch_taken h he htaken).goes, branch_notTaken h he⟩

theorem branchTargetTraps : BranchTargetTraps := by
  intro s b l k p hp h
  obtain ⟨c, dest, he, hc, hdest⟩ := exec_eq_branch s b l k p hp
  rw [← hc, ← hdest]
  exact fun htaken => ⟨(branch_taken h he htaken).misaligned, (branch_taken h he htaken).outOfReach⟩

/-! ### Calls (R110, R112) -/

theorem callsLinkAndGo : CallsLinkAndGo := by
  intro s b l
  simp only [List.forall_mem_cons, List.not_mem_nil, false_implies, implies_true, and_true]
  exact ⟨fun h => (call_transfers (dest := fun w => w.target b.off) h rfl).goes,
    fun h => (call_transfers (dest := fun w => w.target l.imm) h rfl).goes⟩

/-- Settles O36: a branch that is taken and a call transfer control, and what that comes to goes by the target. -/
theorem controlTransfers : Obligations.ControlTransfers := ⟨branchesGoToTheirTarget, branchTargetTraps, callsLinkAndGo⟩

/-! ### LOOP (R113) -/

theorem fieldsOk_loop (l : Limits) (f : L64) : fieldsOk l (.loop f) = true ↔ f.d.toNat < 64 ∧ f.sub7 = 0 ∧ f.cf = 15 := by
  change (decide (f.d.toNat < 64) && f.sub7 == 0 && f.cf == 15) = true ↔ _
  simp only [Bool.and_eq_true, decide_eq_true_eq, beq_iff_eq, and_assoc]

section
variable {s : State} {f : L64}

/-- LOOP whose counter comes to zero goes on. -/
theorem exec_loop_last (h : Ready (.loop f) s) (hx : s.wave.sreg f.d.toNat - 1 = 0) :
    exec (.loop f) s = .next (after s 8 (landing s 2 [.sreg f.d.toNat (s.wave.sreg f.d.toNat - 1)])) := by
  refine congrArg Host.Outcome.next ((run_of_ready h _).trans ?_)
  rw [if_neg (by simpa using hx)]
  rfl

/-- LOOP whose counter does not come to zero transfers control, with the counter in flight. -/
theorem loop_transfers (h : Ready (.loop f) s) (hx : s.wave.sreg f.d.toNat - 1 ≠ 0) :
    Transfers (.loop f) s (landing s 2 [.sreg f.d.toNat (s.wave.sreg f.d.toNat - 1)]) (s.wave.pc + 2 * f.imm.signExtend 64) :=
  transfers_of_effect h rfl (if_pos (bne_iff_ne.mpr hx))

end

/-- Settles O2: LOOP goes on where its counter comes to zero, and otherwise transfers control. -/
theorem loopCountsDown : Obligations.LoopCountsDown := by
  intro s f x w target
  refine ⟨rfl, fieldsOk_loop s.limits f, fun h => ⟨exec_loop_last h, fun hx => ?_, fun hx => ?_, fun hx => ?_⟩⟩
  · exact (loop_transfers h hx).goes
  · exact (loop_transfers h hx).misaligned
  · exact (loop_transfers h hx).outOfReach

end Sys2Proof.Machine
end

section
/-! PROOF. Mask instructions and special registers (R114 to R118): the lowest and the highest lane of a set, what MLOG, MMOV, MCNT and SRD
post, and which values SWR writes; together they settle O37. -/

namespace Sys2Proof.Machine

open Sys2Proof.Claims

/-! ### The lanes of a set -/

section
variable {n : Nat} {x : BitVec n}

theorem lowBit_zero : lowBit (0 : BitVec n) = none := by simp [lowBit]

theorem highBit_zero : highBit (0 : BitVec n) = none := by simp [highBit]

theorem exists_getLsbD_of_ne_zero (hx : x ≠ 0) : ∃ j < n, x.getLsbD j = true := by
  by_contra hnone
  refine hx (BitVec.eq_of_getLsbD_eq fun j hj => ?_)
  rw [Bool.eq_false_iff.mpr fun hbit => hnone ⟨j, hj, hbit⟩, BitVec.ofNat_eq_ofNat, BitVec.getLsbD_zero]

/-- The lowest bit of a set that is not empty. -/
theorem lowBit_of_ne_zero (hx : x ≠ 0) :
    ∃ j < n, lowBit x = some j ∧ x.getLsbD j = true ∧ ∀ k < n, x.getLsbD k = true → j ≤ k := by
  have hsome : (lowBit x).isSome := by
    obtain ⟨j, hj, hbit⟩ := exists_getLsbD_of_ne_zero hx
    exact List.find?_isSome.mpr ⟨j, List.mem_range.mpr hj, hbit⟩
  obtain ⟨j, hj⟩ := Option.isSome_iff_exists.mp hsome
  obtain ⟨hbit, hlt, hbelow⟩ := List.find?_range_eq_some.mp hj
  refine ⟨j, List.mem_range.mp hlt, hj, hbit, fun k _ hk => Nat.le_of_not_lt fun hkj => ?_⟩
  have hclear := hbelow k hkj
  rw [hk] at hclear
  exact absurd hclear (by decide)

/-- The highest bit of a set that is not empty. -/
theorem highBit_of_ne_zero (hx : x ≠ 0) :
    ∃ j < n, highBit x = some j ∧ x.getLsbD j = true ∧ ∀ k < n, x.getLsbD k = true → k ≤ j := by
  obtain ⟨k, hk, hbit⟩ := exists_getLsbD_of_ne_zero hx
  let j := Nat.findGreatest (fun k => x.getLsbD k = true) (n - 1)
  have hj : x.getLsbD j = true := Nat.findGreatest_spec (P := fun k => x.getLsbD k = true) (Nat.le_sub_one_of_lt hk) hbit
  have hlt : j < n := BitVec.lt_of_getLsbD hj
  have hmax : ∀ k < n, x.getLsbD k = true → k ≤ j := fun k hk hbit =>
    Nat.le_findGreatest (P := fun k => x.getLsbD k = true) (Nat.le_sub_one_of_lt hk) hbit
  exact ⟨j, hlt, highBit_eq_some hlt hj hmax, hj, hmax⟩

end

/-! ### Mask instructions (R114 to R116) -/

/-- What MCNT counts or finds in the set `a` (R116). -/
def mcntResult (sub : Nat) (a : Lanes) : Nat :=
  match sub with
  | 0 => popcount a
  | 1 => (lowBit a).getD 0xFFFFFFFF
  | _ => (highBit a).getD 0xFFFFFFFF

theorem exec_mcnt {s : State} {f : G64} (h : Ready (.mcnt f) s) : exec (.mcnt f) s = .next (after s 8 (landing s 2
    [.sreg f.d.toNat (BitVec.ofNat 32 (mcntResult f.sub.toNat (s.wave.mask f.a.toNat))), .scc (s.wave.mask f.a.toNat != 0)])) :=
  exec_scalar h rfl rfl rfl

theorem mcntResult_zero (a : Lanes) : mcntResult 0 a = (List.range 64).countP fun L => a.getLsbD L :=
  List.countP_eq_length_filter.symm

theorem mcntResult_empty {sub : Nat} (hsub : sub ≠ 0) : mcntResult sub 0 = 0xFFFFFFFF := by
  match sub, hsub with
  | 1, _ => exact (congrArg (Option.getD · 0xFFFFFFFF) (lowBit_zero (n := 64))).trans Option.getD_none
  | _ + 2, _ => exact (congrArg (Option.getD · 0xFFFFFFFF) (highBit_zero (n := 64))).trans Option.getD_none

/-- With SUB 1 the lowest lane, with SUB 2 the highest. -/
theorem mcntResult_bound {sub : Nat} {a : Lanes} (hsub : sub ≠ 0) (ha : a ≠ 0) : a.getLsbD (mcntResult sub a) = true ∧
    ∀ L < 64, a.getLsbD L = true → (sub = 1 → mcntResult sub a ≤ L) ∧ (sub ≠ 1 → L ≤ mcntResult sub a) := by
  match sub, hsub with
  | 1, _ =>
    obtain ⟨j, -, hj, hbit, hmin⟩ := lowBit_of_ne_zero ha
    have hresult : mcntResult 1 a = j := congrArg (Option.getD · 0xFFFFFFFF) hj
    rw [hresult]
    exact ⟨hbit, fun L hL hset => ⟨fun _ => hmin L hL hset, fun hne => absurd rfl hne⟩⟩
  | k + 2, _ =>
    obtain ⟨j, -, hj, hbit, hmax⟩ := highBit_of_ne_zero ha
    have hresult : mcntResult (k + 2) a = j := congrArg (Option.getD · 0xFFFFFFFF) hj
    rw [hresult]
    exact ⟨hbit, fun L hL hset => ⟨fun heq => by omega, fun _ => hmax L hL hset⟩⟩

theorem maskOperations : MaskOperations := by
  intro s f w a b d
  have hsub (k : BitVec 4) : f.sub = k ↔ f.sub.toNat = k.toNat := BitVec.toNat_inj.symm
  refine ⟨fun h r hr => ?_, fun h hx r hr => ?_, fun h => ⟨_, exec_mcnt h, fun hzero => ?_, fun hsome hempty => ?_, fun hsome hlane => ?_⟩⟩
  · refine (congrArg Host.Outcome.next (runScalar_of_ready h _)).trans ?_
    generalize f.sub.toNat = k at hr
    match k, hr with
    | 0, rfl | 1, rfl | 2, rfl | 3, rfl | 4, rfl | 5, rfl | 6, rfl | 7, rfl => rfl
  · refine (congrArg Host.Outcome.next ((run_of_ready h _).trans (congrArg _ (withIndex_of_indexOk hx _)))).trans ?_
    unfold mmovLat
    generalize f.sub.toNat = k at hr
    match k, hr with
    | 0, rfl | 1, rfl | 2, rfl | 3, rfl | 4, rfl => rfl
  · rw [hzero]
    exact mcntResult_zero a
  · rw [show s.wave.mask f.a.toNat = 0 from hempty]
    exact mcntResult_empty (mt (hsub 0).mpr hsome)
  · obtain ⟨hset, hbound⟩ := mcntResult_bound (mt (hsub 0).mpr hsome) hlane
    refine ⟨hset, fun L hL hbit => ?_⟩
    obtain ⟨hlow, hhigh⟩ := hbound L hL hbit
    split
    case isTrue hone => exact hlow ((hsub 1).mp hone)
    case isFalse hne => exact hhigh (mt (hsub 1).mpr hne)

/-! ### Special registers (R117, R118) -/

/-- The values that a register software writes can hold (R119 to R121). -/
def specialHolds (n : Nat) (x : DWord) : Bool :=
  match n with
  | 8 => x.toNat % 8 ≤ 4 ∧ x.toNat / 8 % 32 = 0 ∧ x.toNat / 512 = 0
  | 9 => x.toNat < 4
  | 11 => x.toNat < 2 ^ 24
  | _ => true

theorem specialRw_iff {n : Nat} : specialRw n = true ↔ n = 8 ∨ n = 9 ∨ n = 11 ∨ n = 12 := by simp [specialRw, or_assoc]

/-- A register that software writes refuses the values that it cannot hold, and no others. -/
theorem specialBad_eq_false_iff {n : Nat} {x : DWord} (hn : specialRw n = true) (hx : n ≠ 12 → x.toNat < 2 ^ 32) :
    specialBad n x = false ↔ specialHolds n x = true := by
  obtain rfl | rfl | rfl | rfl := specialRw_iff.mp hn
  · have hfields := specialBad_fpctl (hx (by decide))
    rw [bv, BitVec.ofNat_toNat, BitVec.setWidth_eq] at hfields
    rw [hfields, specialHolds, decide_eq_true_iff]
    omega
  · have hhigh : bits x 31 2 = x.toNat / 4 := Nat.mod_eq_of_lt (by have := hx (by decide); omega)
    rw [specialBad, hhigh, bne_eq_false_iff_eq, specialHolds, decide_eq_true_iff]
    omega
  · have hhigh : bits x 31 24 = x.toNat / 2 ^ 24 := Nat.mod_eq_of_lt (by have := hx (by decide); omega)
    rw [specialBad, hhigh, bne_eq_false_iff_eq, specialHolds, decide_eq_true_iff]
    omega
  · exact iff_of_true rfl rfl

section
variable {s : State} {f : K32}

/-- SRD of the scalar form posts the register, as a pair where it is one. -/
theorem exec_srd_scalar (h : Ready (.srd f) s) (hform : f.imm.getLsbD 8 = false) : exec (.srd f) s = .next (after s 4 (landing s 2
    (scalar f.d (specialPair (f.imm.extractLsb' 0 8).toNat) (s.special (f.imm.extractLsb' 0 8).toNat)))) := by
  refine congrArg Host.Outcome.next ((run_of_ready h _).trans ?_)
  rw [if_neg (by rw [hform]; exact Bool.false_ne_true), bits_eq_extractLsb', swrite_toNat]
  rfl

/-- SRD of the vector form posts the register to every active lane, for LANEID the number of the lane. -/
theorem exec_srd_vector (h : Ready (.srd f) s) (hform : f.imm.getLsbD 8 = true) :
    let n := (f.imm.extractLsb' 0 8).toNat
    exec (.srd f) s = .next (after s 4 (landing s (Claims.vlat s.wave)
      ((vector s.wave f.d.toNat fun L => if n = 1 then BitVec.ofNat 32 L else lo32 (s.special n)) ::
        if specialPair n then [vector s.wave (f.d.toNat + 1) fun L => if n = 1 then BitVec.ofNat 32 L else hi32 (s.special n)] else []))) := by
  intro n
  have hn : bits f.imm 7 0 = n := bits_eq_extractLsb' f.imm 7 0
  refine congrArg Host.Outcome.next ((run_of_ready h _).trans ?_)
  rw [if_pos hform, hn]
  rfl

/-- SWR that can issue names a register that software writes (R83, R118). -/
theorem specialRw_of_ready (h : Ready (.swr f) s) : specialRw (f.imm.extractLsb' 0 8).toNat = true := by
  obtain ⟨-, -, hcheck, -⟩ := h
  have hok := fieldsOk_of_check hcheck
  simp only [fieldsOk, shapeOf, Shape.ok, Bool.and_eq_true, bits_eq_extractLsb'] at hok
  obtain ⟨⟨-, hrw⟩, -⟩ := hok
  exact hrw

/-- SWR from a scalar posts the value, or traps where the register cannot hold it. -/
theorem exec_swr_scalar (h : Ready (.swr f) s) (hform : f.imm.getLsbD 8 = false) :
    let n := (f.imm.extractLsb' 0 8).toNat
    let x := if n = 12 then s.wave.sop64 f.d else (s.wave.sop f.d).setWidth 64
    exec (.swr f) s = .next (if specialHolds n x then after s 4 (landing s 2 [.special n x]) else s.faultAt 2 0 s.wave.insAddr) := by
  intro n x
  have hn : bits f.imm 7 0 = n := bits_eq_extractLsb' f.imm 7 0
  have hrw : specialRw n = true := specialRw_of_ready h
  have hx : (if specialPair n then s.wave.sop64 f.d else (s.wave.sop f.d).setWidth 64) = x := by
    obtain hn | hn | hn | hn := specialRw_iff.mp hrw <;> simp [x, specialPair, hn]
  have hword : n ≠ 12 → x.toNat < 2 ^ 32 := fun hne => by
    simp only [x, if_neg hne]
    rw [BitVec.toNat_setWidth_of_le (by decide)]
    exact (s.wave.sop f.d).isLt
  refine congrArg Host.Outcome.next ((run_of_ready h _).trans ?_)
  rw [if_neg (by rw [hform]; exact Bool.false_ne_true), hn, hx]
  have hbad := specialBad_eq_false_iff hrw hword
  by_cases hholds : specialHolds n x = true
  · rw [if_pos hholds]
    exact congrArg (settleNew s (.swr f)) (if_neg (by rw [hbad.mpr hholds]; exact Bool.false_ne_true))
  · rw [if_neg hholds]
    exact congrArg (settleNew s (.swr f)) (if_pos (by rwa [← hbad, Bool.not_eq_false] at hholds))

end

theorem specialRegisters : SpecialRegisters := by
  intro s f w n scalarForm value x held
  refine ⟨fun h hform v hv => ?_, fun h hform => exec_swr_scalar h hform⟩
  have hpair : specialPair n = decide (n = 0 ∨ n = 7 ∨ n = 12) := by
    rw [Bool.eq_iff_iff]
    simp [specialPair, or_assoc]
  have hspecial : s.special n = v := by
    change List.getD _ n none = some v at hv
    generalize n = k at hv ⊢
    match k, hv with
    | 0, rfl | 2, rfl | 4, rfl | 5, rfl | 6, rfl | 8, rfl | 9, rfl | 10, rfl | 11, rfl | 12, rfl => rfl
    | 3, hv =>
      obtain ⟨hpriv, hvalue⟩ : s.wave.priv = false ∧ BitVec.ofNat 64 s.wave.gslot = v := by simpa [w] using hv
      simp [State.special, hpriv, hvalue]
  rw [exec_srd_scalar h hform, hspecial, hpair]

theorem specialRegistersByLane : SpecialRegistersByLane := by
  intro s f w n h
  refine ⟨fun hform hn => ?_, fun hform hn => ?_, fun hform hn => ?_, fun hform hn => ?_⟩
  · rw [exec_srd_vector h hform, show (f.imm.extractLsb' 0 8).toNat = 1 from hn]
    rfl
  · rw [exec_srd_vector h hform, show (f.imm.extractLsb' 0 8).toNat = 6 from hn]
    have hwidth : lo32 (s.special 6) = BitVec.ofNat 32 w.width := BitVec.setWidth_ofNat_of_le (by decide) _
    rw [← hwidth]
    rfl
  · rw [exec_srd_vector h hform, show (f.imm.extractLsb' 0 8).toNat = 0 from hn]
    rfl
  · refine ⟨Config.clockSkew (dieOf w.core) % 16, Nat.mod_lt _ (by decide), ?_⟩
    rw [exec_srd_scalar h hform, show (f.imm.extractLsb' 0 8).toNat = 7 from hn]
    rfl

/-- Settles O37: each mask instruction and SRD posts what it reads, and SWR what its register can hold. -/
theorem masksAndSpecialRegisters : Obligations.MasksAndSpecialRegisters := ⟨maskOperations, specialRegisters, specialRegistersByLane⟩

end Sys2Proof.Machine
end

section
/-! PROOF. The end of a wave, EXIT and YIELD (R126 to R128), and BART with the phases of its tags (R123, R124); together they settle O4 and
O38. -/

namespace Sys2Proof.Machine

open Sys2Proof.Claims

/-! ### Phases of a tag (R123) -/

theorem Wave.alive_of_ended {w : Wave} (h : w.ended = true) (l : Nat) : w.alive l = false := by simp [Wave.alive, h]

section
variable {s : State} {l tag : Nat}

/-- A phase that is not full stays open. -/
theorem State.phaseCheck_open (h : s.phaseFull l tag = false) : s.phaseCheck l tag = s := if_neg (by rw [h]; exact Bool.false_ne_true)

/-- While a wave of the launch has still to arrive, the phase is not full. -/
theorem State.phaseFull_of_missing {v : Wave} (hv : v ∈ s.waves) (hal : v.alive l = true) (harr : v.arrived ≠ some tag) :
    s.phaseFull l tag = false := by
  have hall : ((s.allWaves.filter fun w => w.alive l).all fun w => w.arrived == some tag) = false := by
    rw [List.all_eq_false]
    exact ⟨v, List.mem_filter.mpr ⟨List.mem_cons_of_mem _ hv, hal⟩, by simpa using harr⟩
  rw [State.phaseFull, hall, Bool.and_false, Bool.false_and]

/-- The release of a launch on cores of one die stands 40 clocks ahead. -/
theorem Launch.bartDelay_oneDie {la : Launch} {d : Nat} (h : ∀ c ∈ la.cmask, dieOf c = d) : la.bartDelay = 40 := by
  unfold Launch.bartDelay
  split
  case h_1 => rfl
  case h_2 c cs hc =>
    rw [hc] at h
    obtain ⟨hd, hds⟩ := List.forall_mem_cons.mp h
    refine if_pos (List.all_eq_true.mpr fun x hx => ?_)
    rw [hds x hx, hd, beq_self_eq_true]

/-- The wave in focus, alone in its launch, is every wave of it. -/
theorem State.alive_alone (hal : s.wave.alive l = true) (hothers : ∀ v ∈ s.waves, v.alive l = false) :
    s.allWaves.filter (fun w => w.alive l) = [s.wave] := by
  have hnone : s.waves.filter (fun w => w.alive l) = [] := List.filter_eq_nil_iff.mpr fun v hv => by simp [hothers v hv]
  rw [State.allWaves, List.filter_cons_of_pos (by exact hal), hnone]

/-- What the end of a phase leaves of a wave that had arrived; `ord` is what lies before the waves that arrived in order. -/
def Wave.phaseDone (l tag : Nat) (ord : Vec) (w : Wave) : Wave :=
  if w.alive l && w.arrived == some tag then
    { (if w.arrOrd then w.tick else w).joinHb ord with arrived := none, arrOrd := false, pc := w.pc + 4 }
  else w

/-- A wave that is not of the launch has no part in its phases. -/
theorem Wave.phaseDone_of_not_alive {w : Wave} {ord : Vec} (h : w.alive l = false) : w.phaseDone l tag ord = w := if_neg (by simp [h])

/-- What lies before the waves that have arrived in order at a tag. -/
def State.phaseOrd (s : State) (l tag : Nat) : Vec :=
  (s.allWaves.filter fun w => w.alive l && w.arrived == some tag && w.arrOrd).foldl (fun v w => vecJoin v w.hb) []

/-- A phase that is full ends. -/
theorem State.phaseCheck_full (h : s.phaseFull l tag = true) : s.phaseCheck l tag =
    (s.setLaunch l { s.launch l with phase := (s.launch l).phase ++ [(tag, s.clock + (s.launch l).bartDelay)] }).mapWaves
      (Wave.phaseDone l tag (s.phaseOrd l tag)) := if_pos h

/-- The arrival of a wave alone in its launch completes the phase: the arrival is cleared, its BART has retired, and the release
stands ahead. -/
theorem State.phaseCheck_lastArrival (hal : s.wave.alive l = true) (harr : s.wave.arrived = some tag) (hnot : s.wave.arrOrd = false)
    (hothers : ∀ v ∈ s.waves, v.alive l = false) (hsusp : s.suspended = []) :
    s.phaseCheck l tag = { s with
      launches := tset s.launches l { s.launch l with phase := (s.launch l).phase ++ [(tag, s.clock + (s.launch l).bartDelay)] },
      wave := { s.wave with arrived := none, arrOrd := false, pc := s.wave.pc + 4 } } := by
  have hfull : s.phaseFull l tag = true := by
    simp [State.phaseFull, State.alive_alone hal hothers, harr, hsusp]
  have hord : s.phaseOrd l tag = [] := by
    have hnone : (s.allWaves.filter fun w => w.alive l && w.arrived == some tag && w.arrOrd) = [] := by
      refine List.filter_eq_nil_iff.mpr (List.forall_mem_cons.mpr ⟨?_, fun v hv => ?_⟩)
      · simp [hnot]
      · simp [hothers v hv]
    rw [State.phaseOrd, hnone]
    rfl
  have hwave : s.wave.phaseDone l tag [] = { s.wave with arrived := none, arrOrd := false, pc := s.wave.pc + 4 } := by
    rw [Wave.phaseDone, if_pos (by simp [hal, harr]), hnot]
    rfl
  have hwaves : s.waves.map (Wave.phaseDone l tag []) = s.waves :=
    (List.map_congr_left fun v hv => Wave.phaseDone_of_not_alive (hothers v hv)).trans (List.map_id s.waves)
  rw [State.phaseCheck_full hfull, hord]
  change { s.setLaunch l _ with wave := s.wave.phaseDone l tag [], waves := s.waves.map (Wave.phaseDone l tag []) } = _
  rw [hwave, hwaves]
  rfl

/-- A wave in focus that is not of the launch keeps what it has. -/
theorem State.phaseCheck_wave (h : s.wave.alive l = false) : (s.phaseCheck l tag).wave = s.wave := by
  cases hfull : s.phaseFull l tag
  · rw [State.phaseCheck_open hfull]
  · rw [State.phaseCheck_full hfull]
    exact Wave.phaseDone_of_not_alive h

theorem State.phaseChecks_wave (h : s.wave.alive l = false) : (s.phaseChecks l).wave = s.wave :=
  List.foldlRecOn (motive := fun t : State => t.wave = s.wave) (List.range 8) (fun t n => t.phaseCheck l n) rfl
    fun t ht n _ => (State.phaseCheck_wave (by rwa [ht])).trans ht

end

/-! ### The end of a wave (R126, R127) -/

/-- The state in which the open batch of the wave in focus has been committed (R126, R271). -/
def State.batchCommitted (s : State) : State := if s.wave.batch.isEmpty then s else s.commitBatch s.wave.pc none 0

/-- What an end leaves of a wave. -/
def Wave.atEnd (w : Wave) : Wave :=
  { w with
    ended := true, hold := .none, held := none, dropped := [], trap := none, reports := [], pend := w.pend.filter fun p => p.2.toGroup, rep := none,
    pblk := none, resume := .none, arrived := none, requested := false, granted := false, promoted := false, waited := 0 }

theorem State.batchCommitted_pend (s : State) : s.batchCommitted.wave.pend = s.wave.pend := by
  unfold State.batchCommitted
  split <;> rfl

theorem State.batchCommitted_batch (s : State) : s.batchCommitted.wave.batch = [] := by
  unfold State.batchCommitted
  split
  case isTrue hempty => exact List.isEmpty_iff.mp hempty
  case isFalse => rfl

theorem State.endWave_wave (s : State) : s.endWave.wave = s.batchCommitted.wave.atEnd := by
  change (State.phaseChecks (if s.batchCommitted.wave.priv then { s.batchCommitted with wave := s.batchCommitted.wave.atEnd } else _) _).wave = _
  rw [State.phaseChecks_wave]
  · split <;> rfl
  · split <;> exact Wave.alive_of_ended rfl _

/-! ### EXIT (R126) -/

section
variable {s : State} {f : K32}

theorem exec_exit_privileged (h : Ready (.exit f) s) (hp : s.wave.priv = true) : exec (.exit f) s = .next (after s 4 s.wave) :=
  exec_of_effect h rfl (if_pos hp)

section
variable (h : Ready (.exit f) s) (hp : s.wave.priv = false)
include h hp

/-- EXIT of the wave ends it. -/
theorem exec_exit_wave (hf : f.imm.getLsbD 0 = false) : exec (.exit f) s = .next s.endWave := by
  have hact := exec_of_effect h rfl ((if_neg (Bool.not_eq_true _ ▸ hp)).trans (if_neg (Bool.not_eq_true _ ▸ hf)))
  rw [hact, settleNew_stay (congrArg Wave.hold s.endWave_wave)]

/-- EXIT of some lanes takes them from LIVE. -/
theorem exec_exit_lanes (hf : f.imm.getLsbD 0 = true) (hleft : s.wave.live &&& ~~~s.wave.em ≠ 0) :
    exec (.exit f) s = .next (after s 4 { s.wave with live := s.wave.live &&& ~~~s.wave.em, em := 0 }) :=
  exec_of_effect h rfl ((if_neg (Bool.not_eq_true _ ▸ hp)).trans ((if_pos hf).trans (if_neg (mt beq_iff_eq.mp hleft))))

/-- EXIT of all the lanes that are left ends the wave. -/
theorem exec_exit_lastLanes (hf : f.imm.getLsbD 0 = true) (hnone : s.wave.live &&& ~~~s.wave.em = 0) :
    exec (.exit f) s = .next (State.endWave { s with wave := { s.wave with live := 0, em := 0 } }) := by
  have hact := exec_of_effect h rfl ((if_neg (Bool.not_eq_true _ ▸ hp)).trans ((if_pos hf).trans (if_pos (beq_iff_eq.mpr hnone))))
  rw [hact, settleNew_stay (congrArg Wave.hold (State.endWave_wave _))]

end

/-! ### YIELD (R128) -/

theorem exec_yield (h : Ready (.yield f) s) : exec (.yield f) s = .next (after
    { s with cores := tset s.cores s.wave.core { s.core s.wave.core with nextAge := (s.core s.wave.core).nextAge + 1 } } 4
    { s.wave with age := (s.core s.wave.core).nextAge, waited := 0, promoted := false,
                  notBefore := s.clock + (f.imm.extractLsb' 0 10).toNat + 1 }) := by
  refine congrArg Host.Outcome.next ((run_of_ready h _).trans ?_)
  rw [bits_eq_extractLsb']
  rfl

end

/-- Settles O4: the cases of EXIT, the wave that an end leaves, and YIELD. -/
theorem exitAndYield : Obligations.ExitAndYield := by
  intro s f w
  refine ⟨exec_exit_privileged, exec_exit_lanes, exec_exit_wave, exec_exit_lastLanes, fun _ => ?_, exec_yield⟩
  rw [State.endWave_wave]
  exact ⟨rfl, congrArg (List.filter fun p : Nat × WaveWrite => p.2.toGroup) s.batchCommitted_pend, s.batchCommitted_batch, rfl⟩

/-! ### BART (R123, R124) -/

section
variable {s : State} {f : K32} {t : Nat}

/-- The wave in focus has arrived at tag `t` and is held there. -/
def Wave.arrivedAt (w : Wave) (t : Nat) (ord : Bool) (clock : Nat) : Wave :=
  { w with arrived := some t, arrOrd := ord, hold := .bart t, lastIssue := clock + 1, resume := .none }

/-- An instruction that leaves its wave at a tag is not kept as a held one (R88). -/
theorem settleNew_stay_bart {i : Instr} {u : State} (hu : u.wave.hold = .bart t) : settleNew s i (.stay u) = u := by
  simp [settleNew, State.holdOn, hu, Hold.goesOn, Hold.inside]

theorem exec_bart_foreignTag (h : Ready (.bart f) s) (ht : s.myLaunch.btags.getLsbD (f.imm.extractLsb' 0 3).toNat = false) :
    exec (.bart f) s = .next (s.faultAt 2 0 s.wave.insAddr) := by
  have hbad : (s.wave.priv || !s.myLaunch.btags.getLsbD (bits f.imm 2 0)) = true := by
    rw [bits_eq_extractLsb', ht, Bool.not_false, Bool.or_true]
  exact exec_of_effect h rfl (if_pos hbad)

theorem bart_allowed (hp : s.wave.priv = false) (ht : s.myLaunch.btags.getLsbD (f.imm.extractLsb' 0 3).toNat = true) :
    ¬(s.wave.priv || !s.myLaunch.btags.getLsbD (bits f.imm 2 0)) = true := by
  rw [bits_eq_extractLsb', hp, ht]
  exact Bool.false_ne_true

variable (h : Ready (.bart f) s) (hp : s.wave.priv = false)
  (ht : s.myLaunch.btags.getLsbD (f.imm.extractLsb' 0 3).toNat = true)
include h hp ht

/-- BART.ord whose wave has accesses that have not been performed holds the wave before its arrival. -/
theorem exec_bart_waits (hord : f.imm.getLsbD 3 = true) (hdone : s.accessesDone s.fresh = false) :
    exec (.bart f) s = .next (heldAt s (.bart f) { s with wave := { s.wave with hold := .pipeline } }) := by
  have hwait : (f.imm.getLsbD 3 && !s.accessesDone s.fresh) = true := by rw [hord, hdone]; rfl
  exact exec_of_effect h rfl ((if_neg (bart_allowed hp ht)).trans (if_pos hwait))

/-- BART that can arrive makes its arrival, and the phase is looked at: the wave stays where that leaves it. -/
theorem exec_bart_arrives (hord : f.imm.getLsbD 3 = true → s.accessesDone s.fresh = true) {u : State}
    (hu : State.phaseCheck { s with wave := s.wave.arrivedAt (f.imm.extractLsb' 0 3).toNat (f.imm.getLsbD 3) s.clock }
      s.wave.launch (f.imm.extractLsb' 0 3).toNat = u) (hhold : u.wave.hold = .bart (f.imm.extractLsb' 0 3).toNat) :
    exec (.bart f) s = .next u := by
  have hgo : ¬(f.imm.getLsbD 3 && !s.accessesDone s.fresh) = true := by
    cases h3 : f.imm.getLsbD 3
    · exact Bool.false_ne_true
    · rw [hord h3]
      exact Bool.false_ne_true
  have hact := exec_of_effect h rfl ((if_neg (bart_allowed hp ht)).trans (if_neg hgo))
  rw [bits_eq_extractLsb'] at hact
  exact hact.trans (congrArg Host.Outcome.next ((settleNew_stay_bart (hu ▸ hhold)).trans hu))

end

theorem bartArrivesAndHolds : BartArrivesAndHolds := by
  intro s f h w t
  refine ⟨exec_bart_foreignTag h, fun hp ht hord ⟨v, hv, hal, harr⟩ => ?_, exec_bart_waits h⟩
  exact exec_bart_arrives h hp ht hord (State.phaseCheck_open (State.phaseFull_of_missing hv hal harr)) rfl

theorem bartLastArrivalCompletes : BartLastArrivalCompletes := by
  intro s f h w t la hp ht hord hidle hended hothers hsusp hdie
  have htag : s.myLaunch.btags.getLsbD t = true := by rwa [State.myLaunch, hp]
  have hal : (w.arrivedAt t false s.clock).alive w.launch = true := by simp [Wave.alive, Wave.arrivedAt, hp, hidle, hended]
  have hdelay : la.bartDelay = 40 := Launch.bartDelay_oneDie hdie
  rw [← hdelay]
  refine exec_bart_arrives h hp htag (by rw [hord]; exact nofun) ?_ rfl
  rw [hord]
  exact State.phaseCheck_lastArrival hal rfl rfl hothers hsusp

/-- Settles O38: BART traps, waits or arrives, and an arrival leaves the phase open or completes it. -/
theorem barrierRouteTags : Obligations.BarrierRouteTags := ⟨bartArrivesAndHolds, bartLastArrivalCompletes⟩

end Sys2Proof.Machine
end

section
/-! PROOF. Vector integer instructions (R133, R143 to R145, R149, R150, R155): operations on numbers, by lane and by element, as operations on
words, and the sequence of Sobol's dimension 0; together they settle O40 and O41. -/

namespace Sys2Proof.Machine

open Sys2Proof.Claims

/-! ### Lane-wise results (R131) -/

section
variable {s : State} {i : Instr} {f : G64}

/-- An instruction of the vector class posts its results for the latency of the class and retires (R88). -/
theorem exec_vectorResults {eff : State → Act} {xs : List WaveWrite} (h : Ready i s) (he : exec i s = .next (run i s eff))
    (hl : insLen i = 8) (ha : eff s = .wave (s.wave.postIn s.clock s.wave.vlat xs)) :
    exec i s = .next (after s 8 (landing s (Claims.vlat s.wave) xs)) := by
  rw [he, run_of_ready h, ha]
  exact congrArg (fun n => Host.Outcome.next (after s n (landing s (Claims.vlat s.wave) xs))) hl

/-- One that writes `v[D]` in each active lane. -/
theorem exec_lanewise {g : Wave → Nat → Word} {op : Nat → Word} (h : Ready i s) (hx : IndexOk s.wave f)
    (he : exec i s = .next (lanewise i f s g)) (hl : insLen i = 8) (hg : ∀ L, g s.wave L = op L) :
    exec i s = .next (after s 8 (landing s (Claims.vlat s.wave) [vector s.wave f.d.toNat op])) := by
  obtain rfl : g s.wave = op := funext hg
  exact exec_vectorResults h he hl (withIndex_of_indexOk hx _)

/-- One whose result is an operation on the operands a and b. -/
theorem exec_intBin {g : Nat → Nat → Nat} {op : Word → Word → Word} (h : Ready i s) (hx : IndexOk s.wave f)
    (he : exec i s = .next (intBin i f s g)) (hl : insLen i = 8) (hg : Computes g op) :
    exec i s = .next (after s 8 (landing s (Claims.vlat s.wave)
      [vector s.wave f.d.toNat fun L => op (s.wave.opA f L) (s.wave.opB f L)])) :=
  exec_lanewise h hx he hl fun _ => hg _ _

theorem sound_of_ready (h : Ready i s) : s.wave.vbad = [] := by
  obtain ⟨-, -, -, -, -, hsound⟩ := h
  exact hsound

/-- The field B of a G64 instruction that can issue meets its role (R78, R83). -/
theorem roleOk_b_of_ready {ok cf xe : Bool} {d a b c : Role} (h : Ready i s) (hi : shapeOf i = .gWord f ok cf xe d a b c) :
    roleOk s.limits f.sb f.b.toNat b = true := by
  obtain ⟨-, -, hcheck, -⟩ := h
  have hok := fieldsOk_of_check hcheck
  simp only [fieldsOk, hi, Shape.ok, Bool.and_eq_true] at hok
  obtain ⟨⟨-, hb⟩, -⟩ := hok
  exact hb

end

/-! ### Operations on whole words (R133, R145) -/

theorem computes_shiftR (arith : Bool) :
    Computes (fun a b => shiftR 32 a b arith) fun a b => if arith then a.sshiftRight b.toNat else a >>> b.toNat :=
  fun a b => ofNat_shiftR a b.toNat arith

/-- Element `i` of `e` bits, as a number. -/
theorem toNat_element {n : Nat} (x : BitVec n) (e i : Nat) : (x.extractLsb' (e * i) e).toNat = x.toNat / (2 ^ e) ^ i % 2 ^ e := by
  rw [BitVec.extractLsb'_toNat, Nat.shiftRight_eq_div_pow, Nat.pow_mul]

theorem vectorOperationResults : VectorOperationResults := by
  intro s f w a b c high field
  simp only [List.forall_mem_cons, List.not_mem_nil, false_implies, implies_true, and_true]
  refine ⟨?_, ?_, ?_, ?_, ?_, ?_, ?_, ?_, ?_, ?_, ?_, ?_, ?_⟩
  · exact fun h hx => (exec_intBin h hx rfl rfl computes_mul :)
  · intro h hx
    refine (exec_intBin h hx rfl rfl (ofNat_mulHigh (f.sub == 0)) :).trans ?_
    simp only [beq_iff_eq]
    rfl
  · exact fun h hx => exec_lanewise h hx rfl rfl fun _ => rfl
  · exact fun h hx => (exec_intBin h hx rfl rfl computes_and :)
  · exact fun h hx => (exec_intBin h hx rfl rfl computes_or :)
  · exact fun h hx => (exec_intBin h hx rfl rfl computes_xor :)
  · exact fun h hx => (exec_intBin h hx rfl rfl fun a b => ofNat_shiftL a b.toNat :)
  · intro h hx
    refine (exec_intBin h hx rfl rfl (computes_shiftR (f.sub == 1)) :).trans ?_
    simp only [beq_iff_eq]
    rfl
  · refine fun h hx => exec_lanewise h hx rfl rfl fun L => (ofNat_bitField _ _ _ (f.sub == 1)).trans ?_
    simp only [beq_iff_eq]
    rfl
  · exact fun h hx => exec_lanewise h hx rfl rfl fun _ => rfl
  · exact fun h hx => exec_lanewise h hx rfl rfl fun _ => rfl
  · intro h _
    have hscalar : f.sb = true := (Bool.and_eq_true_iff.mp (roleOk_b_of_ready h rfl)).1
    refine exec_vectorResults h rfl rfl ((reading_sound (sound_of_ready h) _ _).trans ?_)
    simp only [b, Wave.opB, Wave.vop, hscalar, if_true]
    rfl
  · intro h _
    refine exec_vectorResults h rfl rfl ((reading_sound (sound_of_ready h) _ _).trans ?_)
    simp only [toNat_element]
    rfl

/-! ### Elements (R133) -/

/-- Two numbers, one above the other. -/
theorem toNat_append_eq_add {m n : Nat} (x : BitVec m) (y : BitVec n) : (x ++ y).toNat = x.toNat * 2 ^ n + y.toNat := by
  rw [BitVec.toNat_append, ← Nat.shiftLeft_add_eq_or_of_lt y.isLt, Nat.shiftLeft_eq]

theorem ofNat_halves (x y : BitVec 16) : BitVec.ofNat 32 (x.toNat + 65536 * y.toNat) = y ++ x := by
  apply BitVec.eq_of_toNat_eq
  rw [BitVec.toNat_ofNat, toNat_append_eq_add]
  omega

theorem ofNat_bytes (x y z u : BitVec 8) :
    BitVec.ofNat 32 (x.toNat + y.toNat * 256 + z.toNat * 256 ^ 2 + u.toNat * 256 ^ 3) = u ++ z ++ y ++ x := by
  apply BitVec.eq_of_toNat_eq
  simp only [BitVec.toNat_ofNat, toNat_append_eq_add]
  omega

/-- A number of four digits. -/
theorem foldl_range_four (g : Nat → Nat) (base : Nat) :
    (List.range 4).foldl (fun r i => r + g i * base ^ i) 0 = g 0 + g 1 * base + g 2 * base ^ 2 + g 3 * base ^ 3 := by
  have hdigits : List.range 4 = [0, 1, 2, 3] := rfl
  simp only [hdigits, List.foldl_cons, List.foldl_nil, Nat.zero_add, Nat.pow_zero, Nat.pow_one, Nat.mul_one]

section
variable {k : Nat → Nat → Nat} {g : (n : Nat) → BitVec n → BitVec n → BitVec n}

/-- An operation on the numbers of each element is one on the elements, at each size of element. -/
theorem ofNat_elementwise_32 (hk : ∀ x y : Word, k x.toNat y.toNat = (g 32 x y).toNat) :
    Computes (fun a b => elementwise 32 a b k) (packed 0 g) := by
  intro a b
  have hword (x : Word) : x.toNat % 4294967296 = x.toNat := Nat.mod_eq_of_lt x.isLt
  simp [elementwise, packed, hword, hk]

theorem ofNat_elementwise_16 (hk : ∀ x y : BitVec 16, k x.toNat y.toNat = (g 16 x y).toNat) :
    Computes (fun a b => elementwise 16 a b k) (packed 1 g) := by
  intro a b
  simp only [elementwise, Nat.pow_mul, ← toNat_element, hk, packed, ← ofNat_halves]
  simp [List.range_succ, Nat.mul_comm]

theorem ofNat_elementwise_8 (hk : ∀ x y : BitVec 8, k x.toNat y.toNat = (g 8 x y).toNat) :
    Computes (fun a b => elementwise 8 a b k) (packed 2 g) := by
  intro a b
  simp only [elementwise, Nat.pow_mul, ← toNat_element, hk]
  exact (congrArg (BitVec.ofNat 32) (foldl_range_four _ (2 ^ 8))).trans (ofNat_bytes _ _ _ _)

theorem ofNat_elementwise {mod : BitVec 4} (hmod : mod.toNat ≤ 2)
    (hk : ∀ x y : BitVec (elemBits mod), k x.toNat y.toNat = (g (elemBits mod) x y).toNat) :
    Computes (fun a b => elementwise (elemBits mod) a b k) (packed mod.toNat g) := by
  have hcases : mod = 0 ∨ mod = 1 ∨ mod = 2 := by
    simp only [← BitVec.toNat_inj]
    change mod.toNat = 0 ∨ mod.toNat = 1 ∨ mod.toNat = 2
    omega
  rcases hcases with rfl | rfl | rfl
  · exact ofNat_elementwise_32 hk
  · exact ofNat_elementwise_16 hk
  · exact ofNat_elementwise_8 hk

end

theorem wrap_eq_toNat_ofInt (n : Nat) (z : Int) : wrap n z = (BitVec.ofInt n z).toNat := (BitVec.toNat_ofInt z).symm

/-- Sums and differences of elements, wrapped or clamped. -/
theorem addSub_toNat (sub : Bool) (how n : Nat) (x y : BitVec n) :
    addSub sub how n x.toNat y.toNat = (clamped sub how n x y).toNat := by
  match how with
  | 0 =>
    simp only [addSub, clamped, wrap_eq_toNat_ofInt]
    cases sub
    · simp [BitVec.ofInt_add]
    · simp [Int.sub_eq_add_neg, BitVec.ofInt_add, BitVec.sub_eq_add_neg, ← BitVec.neg_ofNat_eq_ofInt_neg]
  | 1 => simp only [addSub, clamped, wrap_eq_toNat_ofInt, sgn_toNat, clampS]
  | _ + 2 => simp only [addSub, clamped, wrap_eq_toNat_ofInt, clampU]

/-- The lesser and the greater of elements. -/
theorem elemMinMax_toNat (greater unsigned : Bool) (n : Nat) (x y : BitVec n) :
    elemMinMax greater unsigned n x.toNat y.toNat = (extreme greater unsigned n x y).toNat := by
  cases unsigned
  · have hle : x.sle y = decide (sgn n x.toNat ≤ sgn n y.toNat) := by rw [sgn_toNat, sgn_toNat, BitVec.sle]
    cases greater <;> by_cases h : sgn n x.toNat ≤ sgn n y.toNat <;> simp [elemMinMax, minmax, extreme, hle, h]
  · cases greater <;> by_cases h : x.toNat ≤ y.toNat <;> simp [elemMinMax, minmax, extreme, BitVec.ule, h] <;> omega

/-- The signed difference of two numbers of `n` bits has `n` bits. -/
theorem natAbs_toInt_sub_lt {n : Nat} (x y : BitVec n) : (x.toInt - y.toInt).natAbs < 2 ^ n := by
  have hx := BitVec.toInt_lt (x := x)
  have hy := BitVec.toInt_lt (x := y)
  have hx' := BitVec.le_toInt (x := x)
  have hy' := BitVec.le_toInt (x := y)
  cases n with
  | zero => simp [BitVec.eq_nil x, BitVec.eq_nil y]
  | succ n =>
    rw [Nat.add_sub_cancel] at hx hy hx' hy'
    rw [Nat.pow_succ]
    have hcast : ((2 ^ n : Nat) : Int) = 2 ^ n := by norm_cast
    omega

theorem toNat_absDiff {n : Nat} (x y : BitVec n) :
    max x.toNat y.toNat - min x.toNat y.toNat = (if x.ule y then y - x else x - y).toNat := by
  by_cases h : x.toNat ≤ y.toNat
  · have hle : x.ule y = true := decide_eq_true h
    rw [if_pos hle, BitVec.toNat_sub_of_le h, Nat.max_eq_right h, Nat.min_eq_left h]
  · have hle : ¬ x.ule y = true := by simpa [BitVec.ule] using h
    rw [if_neg hle, BitVec.toNat_sub_of_le (Nat.le_of_not_le h), Nat.max_eq_left (Nat.le_of_not_le h), Nat.min_eq_right (Nat.le_of_not_le h)]

section
variable {s : State} {i : Instr} {f : G64}

/-- An instruction on elements is its operation on each of them (R133). -/
theorem exec_elementwise {n : Nat} {k : Nat → Nat → Nat} {g : (n : Nat) → BitVec n → BitVec n → BitVec n} (h : Ready i s)
    (hx : IndexOk s.wave f) (hi : shapeOf i = vShape f (modLe f 2 && subLe f n) V0 V0 .zero)
    (he : exec i s = .next (intBin i f s fun a b => elementwise (elemBits f.mod) a b k)) (hl : insLen i = 8)
    (hk : ∀ x y : BitVec (elemBits f.mod), k x.toNat y.toNat = (g (elemBits f.mod) x y).toNat) :
    exec i s = .next (after s 8 (landing s (Claims.vlat s.wave)
      [vector s.wave f.d.toNat fun L => packed f.mod.toNat g (s.wave.opA f L) (s.wave.opB f L)])) := by
  have hmod : f.mod.toNat ≤ 2 := of_decide_eq_true (Bool.and_eq_true_iff.mp (fields_of_ready h hi)).1
  exact exec_intBin h hx he hl (ofNat_elementwise hmod hk)

end

theorem vectorElementResults : VectorElementResults := by
  intro s f w a b on apart
  simp only [List.forall_mem_cons, List.not_mem_nil, false_implies, implies_true, and_true]
  refine ⟨?_, ?_, ?_, ?_, ?_⟩
  · exact fun h hx => (exec_elementwise h hx rfl rfl rfl (addSub_toNat false f.sub.toNat _) :)
  · exact fun h hx => (exec_elementwise h hx rfl rfl rfl (addSub_toNat true f.sub.toNat _) :)
  · exact fun h hx => (exec_elementwise h hx rfl rfl rfl (elemMinMax_toNat false (f.sub == 1) _) :)
  · exact fun h hx => (exec_elementwise h hx rfl rfl rfl (elemMinMax_toNat true (f.sub == 1) _) :)
  · refine fun h hx => (exec_elementwise (g := apart) h hx rfl rfl rfl fun x y => ?_ :)
    by_cases hsub : f.sub = 0
    · simp only [apart, hsub, beq_self_eq_true, if_true, sgn_toNat, BitVec.toNat_ofNat, Nat.mod_eq_of_lt (natAbs_toInt_sub_lt x y)]
    · simp only [apart, beq_iff_eq, hsub, if_false, toNat_absDiff]

/-- Settles O40: each instruction makes, lane by lane or element by element, an operation on numbers that is one on words. -/
theorem vectorArithmetic : Obligations.VectorArithmetic := ⟨vectorOperationResults, vectorElementResults⟩

/-! ### Bits (R133) -/

theorem countP_range_ge (k n : Nat) : (List.range n).countP (fun i => decide (k ≤ i)) = n - k := by
  induction n with
  | zero => simp
  | succ n ih =>
    rw [List.range_succ, List.countP_append, ih, List.countP_singleton]
    by_cases h : k ≤ n
    · rw [if_pos (decide_eq_true h)]
      omega
    · rw [if_neg (by simpa using h)]
      omega

theorem bitLen_le_iff {n p : Nat} : bitLen n ≤ p ↔ n < 2 ^ p := by
  refine ⟨fun h => ?_, bitLen_le⟩
  by_cases hn : n = 0
  · exact hn ▸ Nat.two_pow_pos p
  · rw [bitLen, if_neg hn] at h
    exact (Nat.log2_lt hn).mp h

/-- The leading zeros of a word: the shifts that leave nothing of it. -/
theorem countP_ushiftRight_eq_zero {n : Nat} (a : BitVec n) :
    (List.range n).countP (fun i => a >>> i == 0) = n - bitLen a.toNat := by
  rw [← countP_range_ge]
  congr 1
  funext i
  rw [beq_eq_decide, decide_eq_decide, ← BitVec.toNat_inj, BitVec.toNat_ushiftRight, Nat.shiftRight_eq_div_pow, bitLen_le_iff]
  exact Nat.div_eq_zero_iff_lt (Nat.two_pow_pos i)

/-- Shifted left by `i` nothing is left exactly where the lowest `n - i` bits are clear. -/
theorem shiftLeft_eq_zero_iff {n : Nat} (a : BitVec n) (i : Nat) : a <<< i = 0 ↔ ∀ k, k + i < n → a.getLsbD k = false := by
  refine ⟨fun h k hk => ?_, fun h => BitVec.eq_of_getLsbD_eq fun j hj => ?_⟩
  · have hbit := congrArg (BitVec.getLsbD · (k + i)) h
    simpa [hk, BitVec.getLsbD_eq_getElem (show k < n by omega)] using hbit
  · by_cases hji : j < i
    · simp [hji]
    · simpa [hj, hji, BitVec.getLsbD_eq_getElem (show j - i < n by omega)] using h (j - i) (by omega)

/-- The trailing zeros of a word: the shifts left that leave nothing of it are those that pass its lowest one. -/
theorem shiftLeft_eq_zero_iff_lowBit {n i : Nat} (a : BitVec n) : a <<< i = 0 ↔ n - (lowBit a).getD n ≤ i := by
  by_cases ha : a = 0
  · rw [ha, lowBit_zero, Option.getD_none, Nat.sub_self]
    simp
  · obtain ⟨j, hj, hlow, hbit, hmin⟩ := lowBit_of_ne_zero ha
    rw [shiftLeft_eq_zero_iff, hlow, Option.getD_some]
    refine ⟨fun h => Nat.le_of_not_lt fun hlt => ?_, fun h k hk => Bool.eq_false_iff.mpr fun hk' => ?_⟩
    · rw [h j (by omega)] at hbit
      exact Bool.false_ne_true hbit
    · have := hmin k (by omega) hk'
      omega

theorem countP_shiftLeft_eq_zero {n : Nat} (a : BitVec n) :
    (List.range n).countP (fun i => a <<< i == 0) = (lowBit a).getD n := by
  have hle : (lowBit a).getD n ≤ n := by
    by_cases ha : a = 0
    · rw [ha, lowBit_zero, Option.getD_none]
    · obtain ⟨j, hj, hlow, -⟩ := lowBit_of_ne_zero ha
      rw [hlow]
      exact hj.le
  have hshift : (fun i => a <<< i == 0) = fun i => decide (n - (lowBit a).getD n ≤ i) := by
    funext i
    rw [beq_eq_decide, decide_eq_decide, shiftLeft_eq_zero_iff_lowBit]
  rw [hshift, countP_range_ge]
  omega

/-- Reversing a number bit by bit, as far as bit `k`. -/
theorem foldl_bitRev {n : Nat} (a : BitVec n) {k : Nat} (hk : k ≤ n) :
    (List.range k).foldl (fun r j => r + if nbit a.toNat j then 2 ^ (n - 1 - j) else 0) 0 =
      (a.setWidth k).reverse.toNat * 2 ^ (n - k) := by
  induction k with
  | zero => simp [BitVec.eq_nil (BitVec.reverse _)]
  | succ k ih =>
    have hrev : (a.setWidth (k + 1)).reverse = ((a.setWidth k).reverse).concat (a.getLsbD k) := by
      rw [BitVec.reverse, BitVec.truncate_eq_setWidth, BitVec.setWidth_setWidth_of_le _ (Nat.le_succ k), BitVec.msb_setWidth]
      simp
    have hpow : 2 ^ (n - k) = 2 * 2 ^ (n - (k + 1)) := by
      rw [← Nat.pow_succ']
      congr 1
      omega
    rw [List.range_succ, List.foldl_append, ih (by omega), List.foldl_cons, List.foldl_nil, hrev, BitVec.toNat_concat, hpow, nbit_toNat,
      show n - 1 - k = n - (k + 1) by omega]
    cases a.getLsbD k <;> simp <;> ring

theorem bitRev_toNat (a : Word) : bitRev a.toNat = a.reverse.toNat := by
  rw [bitRev, foldl_bitRev a (Nat.le_refl 32)]
  simp

theorem popcount_eq_countP {n : Nat} (a : BitVec n) : popcount a = (List.range n).countP fun i => a.getLsbD i :=
  List.countP_eq_length_filter.symm

/-! ### Halves and bytes (R149) -/

/-- A number clamped to an unsigned half is one. -/
theorem clampU_toNat (z : Int) : (clampU 16 z).toNat = (BitVec.ofInt 16 (max 0 (min z 65535))).toNat := by
  rw [clampU, BitVec.toNat_ofInt]
  omega

theorem unpackOp_toNat (n : Nat) (a : Word) : BitVec.ofNat 32 (unpackOp n a.toNat) =
    (let h := a.extractLsb' (16 * (n / 2)) 16
      let y := a.extractLsb' (8 * (n % 4)) 8
      if n < 4 then (if n % 2 = 1 then h.signExtend 32 else h.setWidth 32)
      else if n < 8 then y.setWidth 32 else y.signExtend 32) := by
  have hhalf : a.toNat / 65536 ^ (n / 2) % 65536 = (a.extractLsb' (16 * (n / 2)) 16).toNat := (toNat_element a 16 (n / 2)).symm
  have hbyte : a.toNat / 256 ^ (n % 4) % 256 = (a.extractLsb' (8 * (n % 4)) 8).toNat := (toNat_element a 8 (n % 4)).symm
  simp only [unpackOp, hhalf, hbyte, sgn_toNat]
  by_cases hlow : n < 4
  · rw [if_pos hlow, if_pos hlow, apply_ite (BitVec.ofNat 32), ofNat_wrap, BitVec.ofNat_toNat]
    rfl
  · by_cases hmid : n < 8
    · rw [if_neg hlow, if_neg hlow, if_pos hmid, if_neg (Nat.not_le.mpr hmid), BitVec.ofNat_toNat]
    · rw [if_neg hlow, if_neg hlow, if_neg hmid, if_pos (Nat.le_of_not_lt hmid), ofNat_wrap]
      rfl

/-- The byte that a nibble chooses. -/
def chosenByte (a b c : Word) (i : Nat) : BitVec 8 :=
  let n := (b.extractLsb' (4 * i) 4).toNat
  if n < 4 then a.extractLsb' (8 * n) 8 else if n < 8 then c.extractLsb' (8 * (n - 4)) 8 else 0

theorem byteSelect_toNat (a b c : Word) : BitVec.ofNat 32 (byteSelect a.toNat b.toNat c.toNat) =
    chosenByte a b c 3 ++ chosenByte a b c 2 ++ chosenByte a b c 1 ++ chosenByte a b c 0 := by
  have hbyte (i : Nat) : (let n := b.toNat / 16 ^ i % 16
      if n < 4 then a.toNat / 256 ^ n % 256 else if n < 8 then c.toNat / 256 ^ (n - 4) % 256 else 0) = (chosenByte a b c i).toNat := by
    have hnibble : b.toNat / 16 ^ i % 16 = (b.extractLsb' (4 * i) 4).toNat := (toNat_element b 4 i).symm
    simp only [chosenByte, hnibble, apply_ite BitVec.toNat, toNat_element]
    rfl
  simp only [byteSelect, hbyte]
  exact (congrArg (BitVec.ofNat 32) (foldl_range_four _ 256)).trans (ofNat_bytes _ _ _ _)

theorem vectorBitAndByteResults : VectorBitAndByteResults := by
  intro s f w a b c count pop half part chosen
  simp only [List.forall_mem_cons, List.not_mem_nil, false_implies, implies_true, and_true]
  refine ⟨?_, ?_, ?_, ?_⟩
  · refine fun h hx => exec_lanewise h hx rfl rfl fun L => ?_
    simp only [pop, count, ← popcount_eq_countP, countP_ushiftRight_eq_zero, countP_shiftLeft_eq_zero]
    match f.sub.toNat with
    | 0 => rfl
    | 1 => rfl
    | 2 => rfl
    | n + 3 => exact (congrArg (BitVec.ofNat 32) (bitRev_toNat (a L))).trans (by simp)
  · refine fun h hx => exec_lanewise h hx rfl rfl fun L => ?_
    rw [← ofNat_halves]
    simp only [half]
    match f.sub.toNat with
    | 0 => rfl
    | 1 => simp only [wrap_eq_toNat_ofInt, sgn_toNat, clampS]; rfl
    | n + 2 => simp only [clampU_toNat, sgn_toNat]; rfl
  · exact fun h hx => exec_lanewise h hx rfl rfl fun L => unpackOp_toNat f.sub.toNat (a L)
  · exact fun h hx => exec_lanewise h hx rfl rfl fun L => byteSelect_toNat (a L) (b L) (c L)

/-! ### Sequences (R143, R144) -/

/-- The raw sequence of dimension 0, as far as bit `k` of the index: bit `j` stands in place `31 - j`. -/
theorem getLsbD_foldl_twoPow (i : Word) {k m : Nat} (hk : k ≤ 32) (hm : m < 32) :
    ((List.range k).foldl (fun (r : Word) j => if i.getLsbD j then r ^^^ BitVec.twoPow 32 (31 - j) else r) 0).getLsbD m =
      (decide (31 - m < k) && i.getLsbD (31 - m)) := by
  induction k with
  | zero => simp
  | succ k ih =>
    have hplace : (BitVec.twoPow 32 (31 - k)).getLsbD m = decide (k = 31 - m) := by
      rw [BitVec.getLsbD_twoPow, ← Bool.decide_and, decide_eq_decide]
      omega
    have hlt : decide (31 - m < k + 1) = (decide (31 - m < k) ^^ decide (k = 31 - m)) := by
      by_cases hkm : k = 31 - m
      · simp [hkm]
      · rw [decide_eq_false hkm, Bool.xor_false, decide_eq_decide]
        omega
    rw [List.range_succ, List.foldl_append, List.foldl_cons, List.foldl_nil, apply_ite (BitVec.getLsbD · m), BitVec.getLsbD_xor, hplace,
      ih (by omega), hlt]
    by_cases hkm : k = 31 - m
    · subst hkm
      cases i.getLsbD (31 - m) <;> simp
    · simp [hkm]

theorem sobolRaw_zero (i : Word) : sobolRaw i 0 = i.reverse := by
  have hrow (r : Word) : ∀ j ∈ List.range 32, (if i.getLsbD j then r ^^^ BitVec.ofNat 32 ((sobolM 0).getD j 0 * 2 ^ (31 - j)) else r) =
      if i.getLsbD j then r ^^^ BitVec.twoPow 32 (31 - j) else r := fun j hj => by
    have hpow : BitVec.ofNat 32 (2 ^ (31 - j)) = BitVec.twoPow 32 (31 - j) :=
      BitVec.eq_of_toNat_eq (by rw [BitVec.toNat_ofNat, BitVec.toNat_twoPow])
    rw [sobolM, if_pos rfl, List.getD_replicate _ (List.mem_range.mp hj), Nat.one_mul, hpow]
  apply BitVec.eq_of_getLsbD_eq
  intro m hm
  rw [sobolRaw, List.foldl_ext _ _ _ hrow, getLsbD_foldl_twoPow i (Nat.le_refl 32) hm, BitVec.getLsbD_reverse, BitVec.getMsbD,
    decide_eq_true hm, decide_eq_true (show 31 - m < 32 by omega)]

theorem vectorSequenceResults : VectorSequenceResults := by
  refine ⟨fun s f => ?_, sobolRaw_zero⟩
  have hunit (x : Word) : unitFloat x = fround 0 (.num false (x >>> 8).toNat (-24)) := by
    rw [unitFloat, BitVec.toNat_ushiftRight, Nat.shiftRight_eq_div_pow]
  have hdim : BitVec.ofNat 32 f.sub.toNat = f.sub.setWidth 32 := BitVec.ofNat_toNat 32 f.sub
  simp only [List.forall_mem_cons, List.not_mem_nil, false_implies, implies_true, and_true]
  refine ⟨fun h hx => exec_lanewise h hx rfl rfl fun L => ?_, fun h hx => exec_lanewise h hx rfl rfl fun L => ?_⟩
  · simp only [hunit, beq_iff_eq]
  · simp only [hunit, hdim]

/-- Settles O41: the operations on bits, halves and bytes by number are those on words, and so is the sequence of dimension 0. -/
theorem vectorBitsAndSequences : Obligations.VectorBitsAndSequences := ⟨vectorBitAndByteResults, vectorSequenceResults⟩

end Sys2Proof.Machine
end

section
/-! PROOF. Index registers, one lane and blocks of lanes (R132, R146, R150, R151), and the trap of an index that reaches its bound; together
they settle O42. -/

namespace Sys2Proof.Machine

open Sys2Proof.Claims

/-! ### Moves (R146, R150, R151) -/

/-- An index register holds 16 bits: what does not fit is its greatest number. -/
theorem ofNat_min_eq_setWidth (x : Word) :
    BitVec.ofNat 16 (min x.toNat 0xFFFF) = if x.toNat ≤ 0xFFFF then x.setWidth 16 else 0xFFFF := by
  by_cases h : x.toNat ≤ 0xFFFF
  · rw [Nat.min_eq_left h, if_pos h, BitVec.ofNat_toNat]
  · rw [Nat.min_eq_right (Nat.le_of_not_le h), if_neg h]
    rfl

/-- A trap at the instruction itself is taken there. -/
theorem exec_trapHere {s : State} {i : Instr} {eff : State → Act} {code detail : Nat} (h : Ready i s)
    (he : exec i s = .next (run i s eff)) (ha : eff s = s.wave.trapHere code detail) :
    exec i s = .next (s.faultAt code detail s.wave.insAddr) :=
  exec_of_effect h he ha

theorem vectorIndexLaneAndBlockMoves : VectorIndexLaneAndBlockMoves := by
  intro s f l w d n to_ put size
  refine ⟨fun h hsub hx => ?_, fun h hsub hx => ?_, fun h hx => ?_, fun h => ?_, fun h hxe => ?_, fun h => ?_, fun h hsize => ?_,
    fun h hsize => ?_⟩
  · refine exec_vectorResults h rfl rfl ?_
    simp only [hsub, beq_self_eq_true, if_true]
    rw [hx]
    rfl
  · refine exec_vectorResults h rfl rfl ?_
    simp only [hsub, show ((1 : BitVec 4) == 0) = false from rfl, Bool.false_eq_true, if_false]
    rw [hx]
    rfl
  · refine exec_vectorResults h rfl rfl ((withIndex_of_indexOk hx _).trans ?_)
    simp only [ofNat_min_eq_setWidth]
    rfl
  · have hnum (hi lo : Nat) : bits l.imm hi lo = (l.imm.extractLsb' lo (hi + 1 - lo)).toNat := bits_eq_extractLsb' l.imm hi lo
    by_cases hfit : (l.imm.extractLsb' 0 8).toNat + (l.imm.extractLsb' 8 9).toNat ≤ w.vregs
    · rw [if_pos hfit]
      refine exec_vectorResults h rfl rfl ((if_neg ?_).trans ?_)
      · rw [hnum, hnum]
        exact Nat.not_lt.mpr hfit
      · rw [hnum, hnum]
    · rw [if_neg hfit]
      refine exec_trapHere h rfl (if_pos ?_)
      rw [hnum, hnum]
      exact Nat.lt_of_not_le hfit
  · refine exec_vectorResults h rfl rfl ?_
    simp only [hxe, Bool.false_and, Bool.false_eq_true, if_false, reading_sound (sound_of_ready h)]
    rfl
  · exact exec_vectorResults h rfl rfl rfl
  · exact exec_vectorResults h rfl rfl (if_neg (Nat.not_lt.mpr hsize))
  · exact exec_trapHere h rfl (if_pos hsize)

/-! ### The bound of an index (R132) -/

section
variable {s : State} {i : Instr} {f : G64} {L : Nat}

/-- An instruction with an indirect operand A traps before its effect where an index reaches the bound. -/
theorem exec_withIndex_of_xFail (hxe : f.xe = true) (hfail : s.wave.xFail f.xi.toNat = some L) {a : State → Act}
    (he : exec i s = .next (run i s fun s => s.wave.withIndex f (a s))) (h : Ready i s) :
    exec i s = .next (s.faultAt 4 (L + 256 * f.xi.toNat) s.wave.insAddr) := by
  refine exec_trapHere h he ?_
  rw [Wave.withIndex, if_pos hxe, hfail]
  rfl

theorem exec_lanewise_of_xFail (hxe : f.xe = true) (hfail : s.wave.xFail f.xi.toNat = some L) {g : Wave → Nat → Word}
    (he : exec i s = .next (lanewise i f s g)) (h : Ready i s) :
    exec i s = .next (s.faultAt 4 (L + 256 * f.xi.toNat) s.wave.insAddr) := exec_withIndex_of_xFail hxe hfail he h

theorem exec_floatLanes_of_xFail (hxe : f.xe = true) (hfail : s.wave.xFail f.xi.toNat = some L) {engine : Nat}
    {g : Wave → Nat → Word × Bool} (he : exec i s = .next (floatLanes i f s engine g)) (h : Ready i s) :
    exec i s = .next (s.faultAt 4 (L + 256 * f.xi.toNat) s.wave.insAddr) := exec_withIndex_of_xFail hxe hfail he h

theorem exec_sfuLanes_of_xFail (hxe : f.xe = true) (hfail : s.wave.xFail f.xi.toNat = some L) {g : Wave → Nat → Word × Bool}
    (he : exec i s = .next (sfuLanes i f s g)) (h : Ready i s) :
    exec i s = .next (s.faultAt 4 (L + 256 * f.xi.toNat) s.wave.insAddr) := exec_withIndex_of_xFail hxe hfail he h

/-- The lane that an index fails in is the lowest active one whose index reaches the bound. -/
theorem xFail_eq_some {w : Wave} {k : Nat} (h : w.xFail k = some L) :
    w.act.getLsbD L = true ∧ (w.bnd k).xl ≤ w.xlane k L ∧ ∀ j < L, w.act.getLsbD j = true → w.xlane k j < (w.bnd k).xl := by
  rw [Wave.xFail, Wave.actList, laneList, List.find?_filter, List.find?_range_eq_some] at h
  obtain ⟨hL, -, hbelow⟩ := h
  obtain ⟨hact, hreach⟩ := of_decide_eq_true hL
  refine ⟨hact, of_decide_eq_true hreach, fun j hj hjact => ?_⟩
  simpa [hjact] using hbelow j hj

end

theorem indexBoundTraps : IndexBoundTraps := by
  intro s f L w
  refine ⟨fun hxe hfail => ?_, xFail_eq_some⟩
  have htrap {i : Instr} {a : State → Act} := exec_withIndex_of_xFail (i := i) (a := a) hxe hfail
  have hlane {i : Instr} {g : Wave → Nat → Word} := exec_lanewise_of_xFail (i := i) (g := g) hxe hfail
  have hfloat {i : Instr} {engine : Nat} {g : Wave → Nat → Word × Bool} :=
    exec_floatLanes_of_xFail (i := i) (engine := engine) (g := g) hxe hfail
  have hsfu {i : Instr} {g : Wave → Nat → Word × Bool} := exec_sfuLanes_of_xFail (i := i) (g := g) hxe hfail
  simp only [List.forall_mem_cons, List.not_mem_nil, false_implies, implies_true, and_true]
  exact ⟨hlane rfl, hlane rfl, hlane rfl, hlane rfl, hlane rfl, hlane rfl, hlane rfl, hlane rfl, hlane rfl, hlane rfl, hlane rfl,
    hlane rfl, hlane rfl, hlane rfl, hlane rfl, htrap rfl, hlane rfl, htrap rfl, hfloat rfl, hfloat rfl, hfloat rfl, hfloat rfl, hlane rfl,
    hlane rfl, htrap rfl, hlane rfl, hlane rfl, hlane rfl, hfloat rfl, hfloat rfl, hlane rfl, hfloat rfl, hfloat rfl, hfloat rfl,
    htrap rfl, hfloat rfl, hsfu rfl, hsfu rfl, hsfu rfl, hsfu rfl, hsfu rfl, hsfu rfl, hsfu rfl, hsfu rfl, hsfu rfl, hsfu rfl, hlane rfl,
    hlane rfl, htrap rfl, hlane rfl, hlane rfl, hlane rfl, htrap rfl, htrap rfl, htrap rfl, htrap rfl, htrap rfl⟩

/-- Settles O42: the moves through index registers and between lanes, and the trap of an index. -/
theorem indexedMoves : Obligations.IndexedMoves := ⟨vectorIndexLaneAndBlockMoves, indexBoundTraps⟩

end Sys2Proof.Machine
end

section
/-! PROOF. Paired halves, minima, maxima, comparisons and classes of FP32 numbers (R136, R137), and conversions with their bounds (R138 to
R140, R167, R174); together they settle O44 and O45. -/

namespace Sys2Proof.Machine

open Sys2Proof.Claims

section
variable {s : State} {i : Instr} {f : G64} {engine : Nat} {g : Wave → Nat → Word × Bool} {op : Nat → Word}

/-- A floating-point instruction that does not trap writes `v[D]` in each active lane (R135). -/
theorem exec_floatLanes (h : Ready i s) (hx : IndexOk s.wave f) (he : exec i s = .next (floatLanes i f s engine g)) (hl : insLen i = 8)
    (hmade : s.wave.fpctl.getLsbD 8 = false ∨ ∀ L < 64, s.wave.act.getLsbD L = true → (g s.wave L).2 = false)
    (hg : ∀ L, (g s.wave L).1 = op L) :
    exec i s = .next (after s 8 (landing s (Claims.vlat s.wave) [vector s.wave f.d.toNat op])) := by
  obtain rfl : (fun L => (g s.wave L).1) = op := funext hg
  refine exec_vectorResults h he hl ((withIndex_of_indexOk hx _).trans ?_)
  rw [firstNan_eq_none hmade]
  rfl

/-- An instruction that writes a mask in each active lane (R115). -/
theorem exec_lanePred {p : Wave → Nat → Bool} {holds : Nat → Bool} (h : Ready i s) (hx : IndexOk s.wave f)
    (he : exec i s = .next (lanePred i f s p)) (hl : insLen i = 8) (hp : ∀ L, p s.wave L = holds L) :
    exec i s = .next (after s 8 (landing s (Claims.vlat s.wave) [maskLanes s.wave f.d.toNat holds])) := by
  obtain rfl : p s.wave = holds := funext hp
  exact exec_vectorResults h he hl (withIndex_of_indexOk hx _)

/-- The compact forms that make no NaN (R72). -/
theorem exec_compactFloat {f : C16} {r : Word → Word → Word} (h : Ready i s)
    (he : exec i s = .next (compactFloat i f s fun _ a b => (r a b, false))) (hl : insLen i = 2) :
    exec i s = .next (after s 2 (landing s (Claims.vlat s.wave)
      [vector s.wave f.vd.toNat fun L => r (s.wave.vlane f.vd.toNat L) (s.wave.vlane f.vb.toNat L)])) := by
  have hx : IndexOk s.wave (c16Equiv f) := nofun
  have hd : (c16Equiv f).d.toNat = f.vd.toNat := BitVec.toNat_setWidth_of_le (by decide)
  rw [he, compactFloat, floatLanes_of_ready h hx, firstNan_eq_none (.inr fun _ _ _ => rfl), hl, hd]

end

/-! ### Paired halves (R136) -/

/-- A condition of an entry that bounds MOD and SUB bounds SUB (R135). -/
theorem mode_of_ready {s : State} {i : Instr} {f : G64} {n : Nat} {a b c : Role} (h : Ready i s)
    (hi : shapeOf i = vShape f (modLe f n && subLe f 5) a b c) : s.wave.roundMode f.sub.toNat = Claims.mode s.wave f.sub :=
  roundMode_eq_mode (Bool.and_eq_true_iff.mp (fields_of_ready h hi)).2

theorem pairedHalfResults : PairedHalfResults := by
  intro s f w fmt m a b c
  simp only [List.forall_mem_cons, List.not_mem_nil, false_implies, implies_true, and_true]
  refine ⟨fun h hx ht => ?_, fun h hx ht => ?_, fun h hx ht => ?_⟩
  · rw [show m = _ from (mode_of_ready h rfl).symm]
    exact exec_floatLanes h hx rfl rfl (.inl ht) fun _ => rfl
  · rw [show m = _ from (mode_of_ready h rfl).symm]
    exact exec_floatLanes h hx rfl rfl (.inl ht) fun _ => rfl
  · rw [show m = _ from (mode_of_ready h rfl).symm]
    exact exec_floatLanes h hx rfl rfl (.inl ht) fun _ => rfl

/-! ### Minima, maxima and comparisons (R137) -/

/-- The lesser or the greater of two numbers: −0 stands below +0, and a NaN yields the other operand. -/
theorem fminmax_eq (greater : Bool) (x y : Word) : fminmax greater x y =
    if (fval x).isNan && (fval y).isNan then 0x7FC00000
    else if (fval x).isNan then y
    else if (fval y).isNan then x
    else if (decide ((fval x).cmp (fval y) < 0) || ((fval x).cmp (fval y) == 0 && (fval x).neg && !(fval y).neg)) = greater then y
    else x := by
  have hless : (if (fval x).cmp (fval y) = 0 then (fval x).neg && !(fval y).neg else decide ((fval x).cmp (fval y) < 0)) =
      (decide ((fval x).cmp (fval y) < 0) || ((fval x).cmp (fval y) == 0 && (fval x).neg && !(fval y).neg)) := by
    by_cases hc : (fval x).cmp (fval y) = 0 <;> simp [hc]
  have hval (z : Word) : fp32.val z.toNat = fval z := rfl
  have hnan : BitVec.ofNat 32 fp32.nanBits = 0x7FC00000 := rfl
  have hpick (less : Bool) : (if (less != greater) = true then x else y) = if less = greater then y else x := by
    cases less <;> cases greater <;> rfl
  simp only [fminmax, Fmt.minmax, hval, hless, hnan, apply_ite (BitVec.ofNat 32), BitVec.ofNat_toNat, BitVec.setWidth_eq, hpick]

theorem floatCompareResults : FloatCompareResults := by
  intro s w below pick
  have hpick (greater : Bool) (x y : Word) : fminmax greater x y = pick greater x y := fminmax_eq greater x y
  refine ⟨fun f => ?_, fun f => ?_⟩
  · simp only [List.forall_mem_cons, List.not_mem_nil, false_implies, implies_true, and_true]
    refine ⟨?_, ?_, ?_, ?_, ?_, fun h hx => ?_, fun h hx => ?_⟩
    · exact fun h hx => exec_lanewise h hx rfl rfl fun _ => hpick false _ _
    · exact fun h hx => exec_lanewise h hx rfl rfl fun _ => hpick true _ _
    · refine fun h hx => exec_lanewise h hx rfl rfl fun L => ?_
      simp only [hpick]
      rfl
    · exact fun h hx => exec_lanePred h hx rfl rfl fun _ => rfl
    · exact fun h hx => exec_lanewise h hx rfl rfl fun _ => rfl
    · rw [← mode_of_ready h rfl]
      exact exec_lanewise h hx rfl rfl fun _ => rfl
    · rw [← mode_of_ready h rfl]
      exact exec_lanewise h hx rfl rfl fun _ => rfl
  · simp only [List.forall_mem_cons, List.not_mem_nil, false_implies, implies_true, and_true, ← hpick]
    exact ⟨fun h => exec_compactFloat h rfl rfl, fun h => exec_compactFloat h rfl rfl⟩

/-- Settles O44: each half is rounded once, and the minima, maxima and comparisons are those of R137. -/
theorem pairedHalvesAndCompares : Obligations.PairedHalvesAndCompares := ⟨pairedHalfResults, floatCompareResults⟩

/-! ### Conversions (R138 to R140, R174) -/

/-- The rounding mode that a field names (R135, R138). -/
theorem roundMode_sub (w : Wave) (sub : BitVec 4) :
    w.roundMode sub.toNat = if sub = 0 then w.fpctl.toNat % 8 else if sub = 6 then 6 else sub.toNat - 1 := by
  simp only [Wave.roundMode, ← BitVec.toNat_inj]
  rfl

theorem conversionResults : ConversionResults := by
  intro s f w src dst x v m r made y n q put
  refine ⟨fun h hx hmade => ?_, fun h hx ht L hL => ?_, fun h hx ht hmod => ?_, fun h hx hmod => ?_⟩
  · refine exec_vectorResults h rfl rfl ((withIndex_of_indexOk hx _).trans ?_)
    simp only [show s.wave.firstNan (fun L => (s.wave.cvtLane f L).2) = none from firstNan_eq_none hmade]
    rfl
  · refine exec_of_effect (a := nanFirst L 5) h rfl ((withIndex_of_indexOk hx _).trans ?_)
    simp only [show s.wave.firstNan (fun L => (s.wave.cvtLane f L).2) = some L from firstNan_eq_some ht hL]
  · refine exec_floatLanes h hx rfl rfl (.inl ht) fun L => ?_
    simp only [beq_iff_eq, hmod, if_false, roundMode_sub]
    rfl
  · refine exec_floatLanes h hx rfl rfl (.inr fun L _ _ => ?_) fun L => ?_
    · simp only [beq_iff_eq, hmod, if_true]
    · simp only [beq_iff_eq, hmod, if_true, roundMode_sub]
      rfl

/-! ### Bounds (R139) -/

/-- An integer converts to itself before any bound. -/
theorem roundInt_ofInt (m r : Nat) (y : Int) : roundInt m r (decide (y < 0)) y.natAbs 0 = y := by
  simp only [roundInt, roundTo_self, decide_eq_true_eq]
  split <;> omega

/-- What is between two bounds is not moved by them. -/
theorem max_min_of_le {lo hi y : Int} (hlo : lo ≤ y) (hhi : y ≤ hi) : max lo (min hi y) = y := by
  rw [min_eq_right hhi, max_eq_right hlo]

theorem conversionBounds : ConversionBounds := by
  intro w m r signed v hw lo hi x
  have hlo : lo ≤ 0 := by
    cases signed
    · exact Int.le_refl 0
    · exact Int.neg_nonpos_of_nonneg (Int.natCast_nonneg _)
  have hhi : 0 ≤ hi := by
    have hpos (p : Nat) : 0 ≤ ((2 ^ p : Nat) : Int) - 1 := Int.sub_nonneg_of_le (Int.ofNat_le.mpr (Nat.two_pow_pos p))
    cases signed
    · exact hpos w
    · exact hpos (w - 1)
  cases v with
  | nan => exact ⟨hlo, hhi, fun _ => rfl, nofun, nofun, nofun⟩
  | inf neg =>
    have hx : x = if neg then lo else hi := by cases signed <;> rfl
    rw [hx]
    cases neg
    · exact ⟨hlo.trans hhi, Int.le_refl hi, nofun, fun _ => rfl, nofun, nofun⟩
    · exact ⟨Int.le_refl lo, hlo.trans hhi, nofun, nofun, fun _ => rfl, nofun⟩
  | num neg n k =>
    have hx : x = max lo (min hi (roundInt m r neg n k)) := by cases signed <;> rfl
    rw [hx]
    refine ⟨Int.le_max_left .., Int.max_le.mpr ⟨hlo.trans hhi, Int.min_le_left ..⟩, nofun, nofun, nofun, fun y hy hylo hyhi => ?_⟩
    cases hy
    rw [roundInt_ofInt, max_min_of_le hylo hyhi]

/-- Settles O45: CVT and CVTQ convert exact values, and what they give stays within the bounds. -/
theorem conversions : Obligations.Conversions := ⟨conversionResults, conversionBounds⟩

end Sys2Proof.Machine
end

section
/-! PROOF. The special-function unit (R141, R142): its instructions issue and their results land at completion; integer division on numbers is
that on words; its corners. Together they settle O46. -/

namespace Sys2Proof.Machine

open Sys2Proof.Claims

/-! ### Issue (R141) -/

section
variable {s : State} {i : Instr} {f : G64} {g : Wave → Nat → Word × Bool} {r : Nat → Word × Bool}

/-- An instruction of the unit issues, or a NaN that it makes traps at the lowest lane that makes one (R141, R178). -/
theorem exec_sfuLanes (h : Ready i s) (hx : IndexOk s.wave f) (he : exec i s = .next (sfuLanes i f s g)) (hl : insLen i = 8)
    (hg : ∀ L, g s.wave L = r L) :
    ((s.wave.fpctl.getLsbD 8 = false ∨ ∀ L < 64, s.wave.act.getLsbD L = true → (r L).2 = false) →
      exec i s = .next (issued s none (general f.cf) (.writes [vector s.wave f.d.toNat fun L => (r L).1]))) ∧
    (s.wave.fpctl.getLsbD 8 = true → ∀ L, LowestLane s.wave (fun L => (r L).2) L → exec i s = .next (s.faultAt 0x0E L 1)) := by
  obtain rfl : g s.wave = r := funext hg
  refine ⟨fun hmade => ?_, fun ht L hL => ?_⟩
  · refine (exec_of_effect h he ((withIndex_of_indexOk hx _).trans ?_)).trans (congrArg _ (settleNew_outAct hl rfl none (general f.cf) _))
    rw [firstNan_eq_none hmade]
    rfl
  · refine exec_of_effect (a := nanFirst L 1) h he ((withIndex_of_indexOk hx _).trans ?_)
    rw [firstNan_eq_some ht hL]

end

/-! ### Integer division (R142) -/

theorem ofInt_tdiv_toInt {n : Nat} (a b : BitVec n) : BitVec.ofInt n (a.toInt.tdiv b.toInt) = a.sdiv b := by
  apply BitVec.eq_of_toInt_eq
  rw [BitVec.toInt_ofInt, BitVec.toInt_sdiv]

theorem ofInt_tmod_toInt {n : Nat} (a b : BitVec n) : BitVec.ofInt n (a.toInt.tmod b.toInt) = a.srem b := by
  rw [← BitVec.toInt_srem, BitVec.ofInt_toInt]

theorem ofNat_div_toNat {n : Nat} (a b : BitVec n) : BitVec.ofNat n (a.toNat / b.toNat) = a / b := by
  rw [← BitVec.toNat_udiv, BitVec.ofNat_toNat, BitVec.setWidth_eq]

theorem ofNat_mod_toNat {n : Nat} (a b : BitVec n) : BitVec.ofNat n (a.toNat % b.toNat) = a % b := by
  rw [← BitVec.toNat_umod, BitVec.ofNat_toNat, BitVec.setWidth_eq]

theorem specialFunctionResults : SpecialFunctionResults := by
  intro s f w m a b x y unary quotient whole
  have hwhole (L : Nat) : (idivOp f.sub.toNat (w.opA f L) (w.opB f L), false) = whole L := by
    simp only [whole, idivOp, ofInt_tdiv_toInt, ofInt_tmod_toInt, ofNat_div_toNat, ofNat_mod_toNat]
    rfl
  simp only [List.forall_mem_cons, List.not_mem_nil, false_implies, implies_true, and_true]
  refine ⟨?_, ?_, ?_, ?_, ?_, ?_, ?_, ?_, ?_, ?_⟩
  · exact fun h hx => exec_sfuLanes h hx rfl rfl fun _ => rfl
  · exact fun h hx => exec_sfuLanes h hx rfl rfl fun _ => rfl
  · exact fun h hx => exec_sfuLanes h hx rfl rfl fun _ => rfl
  · exact fun h hx => exec_sfuLanes h hx rfl rfl fun _ => rfl
  · exact fun h hx => exec_sfuLanes h hx rfl rfl fun _ => rfl
  · exact fun h hx => exec_sfuLanes h hx rfl rfl fun _ => rfl
  · exact fun h hx => exec_sfuLanes h hx rfl rfl fun _ => rfl
  · exact fun h hx => exec_sfuLanes h hx rfl rfl fun _ => rfl
  · exact fun h hx => exec_sfuLanes h hx rfl rfl fun _ => rfl
  · exact fun h hx => exec_sfuLanes h hx rfl rfl hwhole

/-! ### Corners (R142) -/

section
variable {op mod m : Nat} {x : Word}

theorem sfuOp_of_nan (h : fval x = .nan) : sfuOp op mod m x = 0x7FC00000 := by
  simp only [sfuOp, h]
  rfl

theorem eq_nan_of_isNan {v : FV} (h : v.isNan = true) : v = .nan := by
  cases v with
  | nan => rfl
  | inf neg => nomatch h
  | num neg n k => nomatch h

/-- A word below the infinities that is not zero, with the sign set, is a negative number. -/
theorem fval_or_sign (hlt : x.toNat < 0x7F800000) (hx : x ≠ 0) : ∃ n k, n ≠ 0 ∧ fval (x ||| 0x80000000) = .num true n k := by
  have hpos : x.toNat ≠ 0 := fun h => hx (BitVec.eq_of_toNat_eq h)
  have hbits : (x ||| 0x80000000).toNat = 2 ^ 31 * 1 + x.toNat := by
    rw [BitVec.toNat_or, Nat.or_comm]
    exact (Nat.two_pow_add_eq_or_of_lt (i := 31) (by omega) 1).symm
  have hsign : nbit (2 ^ 31 * 1 + x.toNat) 31 = true := decide_eq_true (by omega)
  rw [fval, hbits, fp32_val _ hsign rfl rfl, if_neg (by omega)]
  split
  case isTrue hex => exact ⟨_, _, by omega, rfl⟩
  case isFalse => exact ⟨_, _, by omega, rfl⟩

/-- The roots and the logarithm of a negative number are NaN. -/
theorem sfuOp_of_negative (hop : op ∈ [0x43, 0x44, 0x45]) {n : Nat} {k : Int} (hn : n ≠ 0) (h : fval x = .num true n k) :
    sfuOp op mod m x = 0x7FC00000 := by
  simp only [List.mem_cons, List.not_mem_nil, or_false] at hop
  rcases hop with rfl | rfl | rfl
  · simp only [sfuOp, h, if_neg hn]
    rfl
  · simp only [sfuOp, h, if_neg hn]
    rfl
  · simp only [sfuOp, h, if_neg hn]
    rfl

end

theorem specialFunctionCorners : SpecialFunctionCorners := by
  intro mod m nan inf neg
  refine ⟨fun op _ x hx => sfuOp_of_nan (eq_nan_of_isNan hx), ?_, ?_, fun op hop x hlt hx => ?_⟩
  · have hpos : fval inf = .inf false := by decide
    have hneg : fval (inf ||| neg) = .inf true := by decide
    simp only [List.forall_mem_cons, List.not_mem_nil, false_implies, implies_true, and_true, sfuOp, hpos, hneg]
    decide
  · have hpos : fval 0 = .num false 0 (-149) := by decide
    have hneg : fval neg = .num true 0 (-149) := by decide
    simp only [List.forall_mem_cons, List.not_mem_nil, false_implies, implies_true, and_true, sfuOp, hpos, hneg, if_true]
    decide
  · obtain ⟨n, k, hn, hval⟩ := fval_or_sign hlt hx
    exact sfuOp_of_negative hop hn hval

/-- Settles O46: the unit's instructions issue with their results, and the corners are those of R142. -/
theorem specialFunctions : Obligations.SpecialFunctions := ⟨specialFunctionResults, specialFunctionCorners⟩

end Sys2Proof.Machine
end

section
/-! PROOF. Lanes that read one another (R154 to R160) and the long accumulator (R161 to R165): the lanes of a set and the rank of a lane in
it, reductions by rising lane, exact sums and the words they are stored in; together they settle O7 and O47. -/

namespace Sys2Proof.Machine

open Sys2Proof.Claims

/-! ### What an instruction leaves its wave -/

section
variable {s : State} {i : Instr} {f : G64}

/-- An instruction that changes its wave alone leaves it so and retires. -/
theorem exec_waveAct {eff : State → Act} {n : Nat} {w : Wave} (h : Ready i s) (he : exec i s = .next (run i s eff)) (hl : insLen i = n)
    (ha : eff s = .wave w) : exec i s = .next (after s n w) := by
  subst hl
  exact exec_of_effect h he ha

/-- A G64 instruction that can issue meets the condition of its entry on MOD and SUB (R83). -/
theorem entryOk_of_ready {ok cf xe : Bool} {d a b c : Role} (h : Ready i s) (hi : shapeOf i = .gWord f ok cf xe d a b c) : ok = true := by
  obtain ⟨-, -, hcheck, -⟩ := h
  have hok := fieldsOk_of_check hcheck
  simp only [fieldsOk, hi, Shape.ok, Bool.and_eq_true] at hok
  tauto

end

theorem mod_eq_zero_of_ne_one {f : G64} (h : modLe f 1 = true) (hne : f.mod ≠ 1) : f.mod = 0 := by
  have hle : f.mod.toNat ≤ 1 := of_decide_eq_true h
  have hne' : f.mod.toNat ≠ 1 := fun h1 => hne (BitVec.eq_of_toNat_eq h1)
  apply BitVec.eq_of_toNat_eq
  change f.mod.toNat = 0
  omega

/-- A vector result depends on the active lanes alone. -/
theorem vector_congr {w : Wave} {d : Nat} {g g' : Nat → Word} (h : ∀ L, w.act.getLsbD L = true → g L = g' L) :
    vector w d g = vector w d g' := by
  simp only [vector, Wave.perLane]
  congr 2
  funext L
  exact ite_congr rfl (h L) fun _ => rfl

/-! ### The lanes of a set -/

theorem testBit_foldr_range (n : Nat) : ∀ (p : Nat → Bool) (j : Nat),
    ((List.range n).foldr (fun i a => 2 * a + if p i then 1 else 0) 0).testBit j = (decide (j < n) && p j) := by
  induction n with
  | zero => simp
  | succ n ih =>
    intro p j
    rw [List.range_succ_eq_map, List.foldr_cons, List.foldr_map]
    cases j with
    | zero => cases p 0 <;> simp [Nat.testBit_zero]
    | succ j =>
      rw [Nat.testBit_succ, Nat.mul_add_div Nat.zero_lt_two, Nat.div_eq_of_lt (by split <;> decide), Nat.add_zero]
      simpa using ih (fun i => p (i + 1)) j

theorem getLsbD_lanesOf (p : Nat → Bool) (j : Nat) : (lanesOf p).getLsbD j = (decide (j < 64) && p j) := by
  rw [lanesOf, BitVec.getLsbD_ofNat, testBit_foldr_range, ← Bool.and_assoc, Bool.and_self]

theorem getLsbD_lanesBelow (n j : Nat) : (lanesBelow n).getLsbD j = (decide (j < 64) && decide (j < n)) := by
  rw [lanesBelow, BitVec.getLsbD_ofNat, Nat.testBit_two_pow_sub_one]

/-- A lane of a set is its lowest where no lane of it lies below. -/
theorem lowBit_eq_some_iff {x : Lanes} {L : Nat} (hx : x.getLsbD L = true) : lowBit x = some L ↔ x &&& lanesBelow L = 0 := by
  have hL : L < 64 := BitVec.lt_of_getLsbD hx
  have hbelow : x &&& lanesBelow L = 0 ↔ ∀ j < L, x.getLsbD j = false := by
    refine ⟨fun h j hj => ?_, fun h => BitVec.eq_of_getLsbD_eq fun j hj => ?_⟩
    · have hbit := congrArg (BitVec.getLsbD · j) h
      simpa only [BitVec.getLsbD_and, getLsbD_lanesBelow, hj, hj.trans hL, decide_true, Bool.and_true, BitVec.ofNat_eq_ofNat,
        BitVec.getLsbD_zero] using hbit
    · by_cases hjL : j < L
      · simp [h j hjL]
      · simp [getLsbD_lanesBelow, hjL]
  rw [hbelow, lowBit, List.find?_range_eq_some]
  simp [hx, hL]

/-! ### Lanes that read one another (R154 to R157) -/

/-- The lane that SHFL reads, counted from the start of the lane's segment (R154). -/
theorem shflLane_eq (kind size L b : Nat) : shflLane kind size L b = match kind with
    | 0 => L / size * size + b % size
    | 1 => if b ≤ L % size then L - b else L
    | 2 => if L % size + b < size then L + b else L
    | _ => L / size * size + (L % size ^^^ b % size) := by
  have hbase : L - L % size = L / size * size := by
    have := Nat.div_add_mod' L size
    omega
  match kind with
  | 0 => exact congrArg (· + b % size) hbase
  | 1 =>
    simp only [shflLane]
    have := Nat.mod_le L size
    split <;> omega
  | 2 =>
    simp only [shflLane]
    have := Nat.mod_le L size
    split <;> omega
  | _ + 3 => exact congrArg (· + (L % size ^^^ b % size)) hbase

/-- VOTE counts lanes of the active set, so that "all" means that the two sets are one (R110, R156). -/
theorem brmCond_nonzero (w : Wave) (c r : Nat) : brmCond c w.act (w.nonzero r) = match c with
    | 0 => w.nonzero r == 0
    | 1 => w.nonzero r != 0
    | 2 => w.nonzero r == w.act
    | _ => w.nonzero r != w.act := by
  have hself : w.act &&& w.nonzero r = w.nonzero r := by rw [Wave.nonzero, ← BitVec.and_assoc, BitVec.and_self]
  have hcond := brmCond_eq c w.act (w.nonzero r)
  rw [hself] at hcond
  exact hcond

/-- An active lane holds its own value. -/
theorem getLsbD_matchSet_self {w : Wave} {L : Nat} (f : G64) (h : w.act.getLsbD L = true) : (w.matchSet f L).getLsbD L = true := by
  simp [Wave.matchSet, getLsbD_lanesOf, h, BitVec.lt_of_getLsbD h]

/-- Settles O7: SHFL reads the lane of its segment that R154 names, and the votes and matches are sets of active lanes. -/
theorem laneExchangeResults : Obligations.LaneExchangeResults := by
  intro s f w d put size from_ on truth value same
  have hset (L : Nat) : w.matchSet f L = same L := by
    simp only [Wave.matchSet, same, value, beq_iff_eq]
    rfl
  refine ⟨fun h => ⟨fun hsize => ?_, fun hsize => ?_⟩, fun h => ?_, fun h => ?_, fun h => ?_⟩
  · have hfrom (L : Nat) : shflLane f.sub.toNat size L (w.opB f L).toNat = from_ L := shflLane_eq _ _ _ _
    refine exec_vectorResults h rfl rfl ?_
    simp only [beq_iff_eq, reading_sound (sound_of_ready h)]
    refine (if_neg (Nat.not_lt.mpr hsize)).trans ?_
    simp only [← hfrom]
    rfl
  · refine exec_trapHere h rfl ?_
    simp only [beq_iff_eq]
    exact if_pos hsize
  · have htruth : brmCond f.sub.toNat w.act (w.nonzero f.a.toNat) = truth := brmCond_nonzero w _ _
    refine exec_vectorResults h rfl rfl ?_
    rw [← htruth]
  · exact exec_vectorResults h rfl rfl rfl
  · refine exec_vectorResults h rfl rfl (congrArg (fun xs => Act.wave (s.wave.postIn s.clock s.wave.vlat xs)) ?_)
    have hcount (L : Nat) : popcount (w.matchSet f L) = (List.range 64).countP fun j => (same L).getLsbD j := by
      rw [popcount_eq_countP, hset]
    generalize f.sub.toNat = k
    match k with
    | 0 => exact congrArg (vector64 w d) (funext hset)
    | 1 => exact congrArg (fun n => [vector w d fun L => BitVec.ofNat 32 (n L)]) (funext hcount)
    | _ + 2 =>
      refine congrArg (fun x => [x]) (vector_congr fun L hL => ?_)
      simp only [← hset, beq_iff_eq, lowBit_eq_some_iff (getLsbD_matchSet_self f hL)]
      rfl

/-! ### Reductions by rising lane (R158, R160) -/

theorem redOp_eq (sub : Nat) (a b : Word) : redOp sub a b = match sub with
    | 0 => a + b
    | 1 => if a.sle b then a else b
    | 2 => if a.sle b then b else a
    | 3 => if a.ule b then a else b
    | 4 => if a.ule b then b else a
    | 5 => a &&& b
    | 6 => a ||| b
    | _ => a ^^^ b := by
  match sub with
  | 0 => rfl
  | 1 => simp only [redOp, BitVec.sle, decide_eq_true_eq]
  | 2 => simp only [redOp, BitVec.sle, decide_eq_true_eq]
  | 3 => simp only [redOp, BitVec.ule, decide_eq_true_eq]
  | 4 => simp only [redOp, BitVec.ule, decide_eq_true_eq]
  | 5 => rfl
  | 6 => rfl
  | _ + 7 => rfl

theorem redId_eq (sub : Nat) : redId sub = [0, 0x7FFFFFFF, 0x80000000, 0xFFFFFFFF, 0, 0xFFFFFFFF, 0, 0].getD sub 0 := by
  match sub with
  | 0 => rfl
  | 1 => rfl
  | 2 => rfl
  | 3 => rfl
  | 4 => rfl
  | 5 => rfl
  | 6 => rfl
  | 7 => rfl
  | _ + 8 => rfl

/-- A reduction takes the active lanes for which `p` holds, by rising lane. -/
theorem reduce_eq_foldl (w : Wave) (sub r : Nat) (p : Nat → Bool) : w.reduce sub r p =
    ((List.range 64).filter fun L => w.act.getLsbD L && p L).foldl (fun a L => redOp sub a (w.vlane r L)) (redId sub) := by
  simp only [Wave.reduce, Wave.actList, laneList, List.filter_filter, Bool.and_comm]

/-- The active lanes with a property, counted; those below a lane are its rank (R160). -/
theorem length_filter_actList (w : Wave) (p : Nat → Bool) :
    (w.actList.filter p).length = (List.range 64).countP fun j => w.act.getLsbD j && p j := by
  rw [Wave.actList, laneList, List.filter_filter, List.countP_eq_length_filter]
  simp only [Bool.and_comm]

/-- In a rising list an element stands at the place that the number of lesser elements gives. -/
theorem getElem?_length_filter_lt {l : List Nat} (h : l.Pairwise (· < ·)) {L : Nat} (hL : L ∈ l) :
    l[(l.filter fun j => decide (j < L)).length]? = some L := by
  induction l with
  | nil => nomatch hL
  | cons x xs ih =>
    obtain ⟨hx, hxs⟩ := List.pairwise_cons.mp h
    obtain rfl | hmem := List.mem_cons.mp hL
    · have hnone : xs.filter (fun j => decide (j < L)) = [] := List.filter_eq_nil_iff.mpr fun j hj => by simpa using (hx j hj).le
      simp [hnone]
    · simpa [hx L hmem] using ih hxs hmem

theorem actList_rising (w : Wave) : w.actList.Pairwise (· < ·) := List.pairwise_lt_range.filter _

theorem actList_length_le (w : Wave) : w.actList.length ≤ 64 :=
  (List.length_filter_le _ _).trans (List.length_range).le

/-- Register `r` of the active lanes, by rising lane, and zeros (R160). -/
def Wave.compacted (w : Wave) (r : Nat) : List Word :=
  (List.range 64).map fun k => if k < w.actList.length then w.vlane r (w.actList.getD k 0) else 0

/-- An active lane's value stands at the lane's rank. -/
theorem compacted_getElem? {w : Wave} {L : Nat} (r : Nat) (h : L ∈ w.actList) :
    (w.compacted r)[(w.actList.filter fun j => decide (j < L)).length]? = some (w.vlane r L) := by
  obtain ⟨hlt, hget⟩ := List.getElem?_eq_some_iff.mp (getElem?_length_filter_lt (actList_rising w) h)
  have hlt64 := hlt.trans_le (actList_length_le w)
  simp [Wave.compacted, hlt, hlt64, hget]

theorem roundMode_zero (w : Wave) : w.roundMode 0 = w.fpctl.toNat % 8 := rfl

theorem reductionResults : ReductionResults := by
  intro s f w d x put op unit all rank
  have hreduce (p : Nat → Bool) : w.reduce f.sub.toNat f.a.toNat p = all p := by
    have hop : redOp f.sub.toNat = op := funext fun a => funext fun b => redOp_eq _ a b
    rw [reduce_eq_foldl, hop, redId_eq]
  have hrank (L : Nat) : (w.actList.filter fun j => decide (j < L)).length = rank L := length_filter_actList w _
  refine ⟨fun h => ?_, fun h => ?_, fun h ht => ?_, fun h hsub => ?_, fun h hsub => ?_⟩
  · refine exec_vectorResults h rfl rfl ?_
    rw [← hreduce]
    simp only [beq_iff_eq]
    rfl
  · refine exec_vectorResults h rfl rfl
      (congrArg (fun g => Act.wave (s.wave.postIn s.clock s.wave.vlat [vector w d g])) (funext fun L => ?_))
    obtain ⟨hmod, -⟩ := Bool.and_eq_true_iff.mp (entryOk_of_ready h rfl)
    rw [← hreduce]
    congr 1
    funext j
    by_cases hone : f.mod = 1
    · simp [hone]
    · simp [mod_eq_zero_of_ne_one hmod hone, Nat.le_iff_lt_or_eq, beq_eq_decide]
  · refine exec_vectorResults h rfl rfl ?_
    simp only [show s.wave.nanTrap = false from ht, Bool.false_eq_true, if_false, roundMode_zero, beq_iff_eq]
    generalize f.sub.toNat = k
    match k with
    | 0 => rfl
    | 1 => rfl
    | 2 => rfl
    | _ + 3 => rfl
  · refine exec_vectorResults h rfl rfl ?_
    simp only [beq_iff_eq, hsub, if_false]
    simp only [← hrank]
    rfl
  · refine ⟨w.compacted f.a.toNat, exec_vectorResults h rfl rfl ?_, fun L hL hact => ?_⟩
    · simp only [beq_iff_eq, hsub, if_true]
      rfl
    · rw [← hrank]
      exact compacted_getElem? _ (mem_actList.mpr ⟨hL, hact⟩)

/-! ### The long accumulator (R161 to R165) -/

/-- Finite terms add up to their exact sum, in units of 2^−320. -/
theorem foldl_laccAdd_finite (t : Nat → FV) (l : List Nat) (w : Wave) (h : ∀ L ∈ l, (t L).finite = true) :
    l.foldl (fun v L => v.laccAdd (t L)) w = { w with lacc := w.lacc + BitVec.ofInt 640 (l.map fun L => (t L).scaled (-320)).sum } := by
  induction l generalizing w with
  | nil => simp
  | cons L l ih =>
    have hL : w.laccAdd (t L) = { w with lacc := w.lacc + BitVec.ofInt 640 ((t L).scaled (-320)) } := by
      have hfin := h L List.mem_cons_self
      cases ht : t L with
      | num neg n k => rfl
      | nan => rw [ht] at hfin; nomatch hfin
      | inf neg => rw [ht] at hfin; nomatch hfin
    rw [List.foldl_cons, hL, ih _ fun M hM => h M (List.mem_cons_of_mem L hM), List.map_cons, List.sum_cons, BitVec.ofInt_add,
      BitVec.add_assoc]

theorem finite_negate (v : FV) : v.negate.finite = v.finite := by cases v <;> rfl

theorem isNan_of_finite {v : FV} (h : v.finite = true) : v.isNan = false := by
  cases v with
  | nan => nomatch h
  | inf neg => rfl
  | num neg n k => rfl

/-- The number whose words, from the lowest, are the first `n` of `x` (R161). -/
def wordsValue (x : Nat → Word) (n : Nat) : Nat := (List.range n).foldl (fun t i => t + (x i).toNat * 2 ^ (32 * i)) 0

theorem wordsValue_succ (x : Nat → Word) (n : Nat) : wordsValue x (n + 1) = 2 ^ (32 * n) * (x n).toNat + wordsValue x n := by
  simp only [wordsValue, List.range_succ, List.foldl_append, List.foldl_cons, List.foldl_nil]
  rw [Nat.add_comm, Nat.mul_comm]

theorem wordsValue_lt (x : Nat → Word) (n : Nat) : wordsValue x n < 2 ^ (32 * n) := by
  induction n with
  | zero => exact Nat.zero_lt_one
  | succ n ih =>
    have htop := (x n).isLt
    calc wordsValue x (n + 1) = 2 ^ (32 * n) * (x n).toNat + wordsValue x n := wordsValue_succ x n
      _ < 2 ^ (32 * n) * ((x n).toNat + 1) := by rw [Nat.mul_add_one]; exact Nat.add_lt_add_left ih _
      _ ≤ 2 ^ (32 * n) * 2 ^ 32 := Nat.mul_le_mul_left _ htop
      _ = 2 ^ (32 * (n + 1)) := by rw [← Nat.pow_add, Nat.mul_add_one]

/-- Bit `j` of word `i`. -/
theorem testBit_wordsValue (x : Nat → Word) {n i j : Nat} (hi : i < n) (hj : j < 32) :
    (wordsValue x n).testBit (32 * i + j) = (x i).getLsbD j := by
  induction n with
  | zero => nomatch hi
  | succ n ih =>
    rw [wordsValue_succ, Nat.testBit_two_pow_mul_add _ (wordsValue_lt x n)]
    obtain hlt | rfl := Nat.lt_succ_iff_lt_or_eq.mp hi
    · rw [if_pos (by omega), ih hlt]
    · rw [if_neg (by omega), Nat.add_sub_cancel_left]
      rfl

/-- The words of what LARST restores are those that it reads (R165). -/
theorem extractLsb'_wordsValue (x : Nat → Word) {n i size : Nat} (hi : i < n) (hsize : 32 * n ≤ size) :
    (BitVec.ofNat size (wordsValue x n)).extractLsb' (32 * i) 32 = x i := by
  apply BitVec.eq_of_getLsbD_eq
  intro j hj
  rw [BitVec.getLsbD_extractLsb', BitVec.getLsbD_ofNat, testBit_wordsValue x hi hj, decide_eq_true hj,
    decide_eq_true (show 32 * i + j < size by omega), Bool.true_and, Bool.true_and]

theorem longAccumulatorResults : LongAccumulatorResults := by
  intro s k f w value product signed sum word stored
  have hsigned (t : Nat → FV) : w.laccAll (f.mod == 1) t = w.actList.foldl (fun v L => v.laccAdd (signed (t L))) w := by
    simp only [Wave.laccAll, beq_iff_eq]
    rfl
  have hsum (t : Nat → FV) (ht : ∀ L ∈ w.actList, (t L).finite = true) :
      w.laccAll (f.mod == 1) t = { w with lacc := w.lacc + BitVec.ofInt 640 (sum t) } := by
    rw [hsigned, foldl_laccAdd_finite _ _ _ fun L hL => ?_, List.sum_eq_foldl]
    simp only [signed]
    split
    · rw [finite_negate, ht L hL]
    · exact ht L hL
  have hadd (h : Ready (.laadd f) s) (hx : IndexOk w f) : exec (.laadd f) s = .next (after s 8 (w.laccAll (f.mod == 1) value)) :=
    exec_waveAct h rfl rfl (withIndex_of_indexOk hx _)
  refine ⟨fun h => exec_waveAct h rfl rfl rfl, ?_, fun h hx => by rw [hadd h hx, hsigned], fun h hflags hlacc => ?_,
    fun h => exec_vectorResults h rfl rfl rfl, fun h => ⟨fun hlt => ?_, fun hge => exec_trapHere h rfl (if_pos hge)⟩⟩
  · simp only [List.forall_mem_cons, List.not_mem_nil, false_implies, implies_true, and_true]
    refine ⟨fun h hx hfin => by rw [hadd h hx, hsum _ hfin], fun h hx hfin => ?_⟩
    refine exec_waveAct h rfl rfl ((withIndex_of_indexOk hx _).trans ?_)
    have hnan : s.wave.firstNan (fun L => ((fval (s.wave.fa0 f L)).mul (fval (s.wave.fb0 f L))).isNan &&
        !((fval (s.wave.fa0 f L)).isNan || (fval (s.wave.fb0 f L)).isNan)) = none := firstNan_eq_none (.inr fun L hL hact => by
      rw [isNan_of_finite (hfin L (mem_actList.mpr ⟨hL, hact⟩)), Bool.false_and])
    simp only [hnan]
    exact congrArg Act.wave (hsum product hfin)
  · have hval : w.laccVal = .num (decide (w.lacc.toInt < 0)) w.lacc.toInt.natAbs (-320) := by simp [Wave.laccVal, hflags]
    obtain ⟨-, hsub⟩ := Bool.and_eq_true_iff.mp (entryOk_of_ready h rfl)
    refine exec_waveAct h rfl rfl ?_
    simp only [show s.wave.laccVal = _ from hval, FV.isNan, Bool.and_false, Bool.false_and, Bool.false_eq_true, if_false, roundMode_eq_mode hsub,
      beq_iff_eq]
    rfl
  · exact ⟨BitVec.ofNat 640 (wordsValue stored 20), exec_waveAct h rfl rfl (if_neg (Nat.not_le.mpr hlt)),
      fun i hi => extractLsb'_wordsValue stored hi (by decide)⟩

/-- Settles O47: reductions and ranks by rising lane, and the exact sums of the long accumulator with the words they are kept in. -/
theorem reductions : Obligations.Reductions := ⟨reductionResults, longAccumulatorResults⟩

end Sys2Proof.Machine
end

section
/-! PROOF. The value of an accumulator element (R175, R304): exact sums of finite values, integers among them, and the k-blocks that an element
takes in rising order. -/

namespace Sys2Proof.Machine

open Sys2Proof.Claims

/-! ### Exact sums of finite values -/

/-- The lesser of a running exponent and that of a value; a zero has none. -/
def FV.lowExp (a : Int) : FV → Int
  | .num _ n k => if n = 0 then a else min a k
  | _ => a

/-- The exponent at which the sum of a list is taken. -/
def FV.sumExp (l : List FV) : Int := l.foldl FV.lowExp 2000

theorem FV.scaled_of_isZero {v : FV} (h : v.isZero = true) (k : Int) : v.scaled k = 0 := by
  cases v with
  | num neg n e =>
    obtain rfl : n = 0 := by simpa [FV.isZero] using h
    simp [FV.scaled]
  | nan => rfl
  | inf neg => rfl

/-- Zeros are passed over, which changes no sum. -/
theorem foldl_scaled (k : Int) (l : List FV) (a : Int) :
    l.foldl (fun a v => if v.isZero then a else a + v.scaled k) a = a + (l.map (·.scaled k)).sum := by
  induction l generalizing a with
  | nil => simp
  | cons v l ih =>
    rw [List.foldl_cons, ih, List.map_cons, List.sum_cons]
    split
    next hz => rw [FV.scaled_of_isZero hz, zero_add]
    next => rw [add_assoc]

theorem any_eq_false_of_finite {p : FV → Bool} {l : List FV} (hp : ∀ neg n k, p (.num neg n k) = false) (h : ∀ v ∈ l, v.finite = true) :
    l.any p = false := by
  refine List.any_eq_false.mpr fun v hv => ?_
  cases v with
  | num neg n k => simp [hp]
  | nan => nomatch h _ hv
  | inf neg => nomatch h _ hv

/-- The value `t` × 2^k, with the sign `neg` where it is zero. -/
def FV.units (neg : Bool) (t k : Int) : FV := if t = 0 then .num neg 0 0 else .num (decide (t < 0)) t.natAbs k

/-- The sum of finite values is exact: it is the sum of what they are in units of the least of their exponents. -/
theorem sum_of_finite (down : Bool) {l : List FV} (h : ∀ v ∈ l, v.finite = true) :
    ∃ neg, FV.sum down l = FV.units neg (l.map (·.scaled (FV.sumExp l))).sum (FV.sumExp l) := by
  rw [← zero_add (l.map _).sum, ← foldl_scaled, FV.sum, any_eq_false_of_finite (fun _ _ _ => rfl) h,
    any_eq_false_of_finite (fun _ _ _ => rfl) h, any_eq_false_of_finite (fun _ _ _ => rfl) h]
  exact ⟨_, rfl⟩

/-! ### Sums of integers -/

/-- A value whose unit is 1: the products of integers, which keep a sign where they are zero. -/
def FV.Whole (v : FV) : Prop := ∃ neg n, v = .num neg n 0

theorem FV.Whole.finite {v : FV} (h : v.Whole) : v.finite = true := by
  obtain ⟨neg, n, rfl⟩ := h
  rfl

/-- Among whole values the least exponent is 0, unless all of them are zeros. -/
theorem foldl_lowExp_of_whole {l : List FV} (h : ∀ v ∈ l, v.Whole) {a : Int} (ha : 0 ≤ a) :
    l.foldl FV.lowExp a = 0 ∨ l.foldl FV.lowExp a = a ∧ ∀ v ∈ l, v.isZero = true := by
  induction l generalizing a with
  | nil => exact .inr ⟨rfl, nofun⟩
  | cons v l ih =>
    obtain ⟨⟨neg, n, rfl⟩, hl⟩ := List.forall_mem_cons.mp h
    rw [List.foldl_cons, List.forall_mem_cons]
    by_cases hn : n = 0
    · subst hn
      exact (ih hl ha).imp_right fun ⟨hfold, hz⟩ => ⟨hfold, rfl, hz⟩
    · have hlow : FV.lowExp a (.num neg n 0) = 0 := by rw [FV.lowExp, if_neg hn, min_eq_right ha]
      rw [hlow]
      exact .inl ((ih hl le_rfl).elim id And.left)

/-- An integer by its sign and magnitude. -/
theorem scaled_ofInt (x : Int) : (FV.ofInt x).scaled 0 = x := by
  simp only [FV.ofInt, FV.scaled, sub_self, Int.toNat_zero, pow_zero, mul_one, decide_eq_true_eq]
  split <;> omega

theorem scaled_units (neg : Bool) (t : Int) : (FV.units neg t 0).scaled 0 = t := by
  rw [FV.units]
  split
  next ht => rw [ht, FV.scaled_of_isZero rfl]
  next => exact scaled_ofInt t

/-- The sum of whole values is that of the integers they are. -/
theorem scaled_sum_of_whole {l : List FV} (h : ∀ v ∈ l, v.Whole) : (FV.sum false l).scaled 0 = (l.map (·.scaled 0)).sum := by
  obtain ⟨neg, hsum⟩ := sum_of_finite false fun v hv => (h v hv).finite
  rw [hsum]
  obtain hexp | ⟨-, hz⟩ := foldl_lowExp_of_whole h (a := 2000) (by decide)
  · rw [show FV.sumExp l = 0 from hexp, scaled_units]
  · have hnone (k : Int) : (l.map (·.scaled k)).sum = 0 :=
      List.sum_eq_zero fun x hx => by
        obtain ⟨v, hv, rfl⟩ := List.mem_map.mp hx
        exact FV.scaled_of_isZero (hz v hv) k
    rw [hnone, hnone, FV.units, if_pos rfl, FV.scaled_of_isZero rfl]

theorem whole_ofInt (x : Int) : (FV.ofInt x).Whole := ⟨_, _, rfl⟩

theorem whole_mul_ofInt (x y : Int) : ((FV.ofInt x).mul (FV.ofInt y)).Whole := ⟨_, _, rfl⟩

/-- The product of whole values is that of the integers they are. -/
theorem scaled_mul_of_whole {u v : FV} (hu : u.Whole) (hv : v.Whole) : (u.mul v).scaled 0 = u.scaled 0 * v.scaled 0 := by
  obtain ⟨a, n, rfl⟩ := hu
  obtain ⟨b, m, rfl⟩ := hv
  cases a <;> cases b <;> simp [FV.mul, FV.scaled]

theorem scaled_mul_ofInt (x y : Int) : ((FV.ofInt x).mul (FV.ofInt y)).scaled 0 = x * y := by
  rw [scaled_mul_of_whole (whole_ofInt x) (whole_ofInt y), scaled_ofInt, scaled_ofInt]

/-! ### k-blocks (R304) -/

theorem kblocks_nil {α : Type} (fuel : Nat) : kblocks fuel ([] : List α) = [] := by cases fuel <;> rfl

theorem kblocks_succ {α : Type} (fuel : Nat) {l : List α} (h : 0 < l.length) :
    kblocks (fuel + 1) l = l.take 32 :: kblocks fuel (l.drop 32) := by
  rw [kblocks, List.isEmpty_eq_false_iff.mpr (List.ne_nil_of_length_pos h)]
  rfl

/-- Cut after a whole number of k-blocks, a list of at most one k-block more ends with that k-block. -/
theorem kblocks_take_drop {α : Type} {m fuel : Nat} {l : List α} (hm : m < fuel) (hlt : 32 * m < l.length) (hle : l.length ≤ 32 * m + 32) :
    kblocks fuel l = kblocks fuel (l.take (32 * m)) ++ [l.drop (32 * m)] := by
  induction m generalizing fuel l with
  | zero =>
    obtain ⟨fuel, rfl⟩ := Nat.exists_eq_add_one.mpr hm
    have hle32 : l.length ≤ 32 := hle
    rw [kblocks_succ fuel hlt, List.take_of_length_le hle32, List.drop_of_length_le hle32, kblocks_nil, Nat.mul_zero, List.take_zero, kblocks_nil]
    rfl
  | succ m ih =>
    obtain ⟨fuel, rfl⟩ := Nat.exists_eq_add_one.mpr (Nat.zero_lt_of_lt hm)
    rw [show 32 * (m + 1) = 32 + 32 * m by omega] at hlt hle ⊢
    have hlen : (l.drop 32).length = l.length - 32 := List.length_drop
    have htake : 0 < (l.take (32 + 32 * m)).length := by rw [List.length_take]; omega
    rw [kblocks_succ fuel (by omega), kblocks_succ fuel htake, ih (Nat.lt_of_succ_lt_succ hm) (l := l.drop 32) (by omega) (by omega),
      List.take_take, List.drop_take, List.drop_drop, Nat.min_eq_left (Nat.le_add_right ..), Nat.add_sub_cancel_left]
    rfl

/-- An element takes a last k-block after those before it. -/
theorem mmaElem_append (ty : Nat) (bs : List (List (FV × FV))) (b : List (FV × FV)) (kb c : Nat) :
    (mmaElem ty (bs ++ [b]) kb c).1 = (mmaStep ty (mmaElem ty bs kb c).1 b).1 := by
  induction bs generalizing kb c with
  | nil => rfl
  | cons x bs ih => exact ih (kb + 1) _

/-- INT32 adds the exact products, modulo 2^32. -/
theorem mmaStep_int (c : Nat) (l : List (FV × FV)) (h : ∀ p ∈ l, (p.1.mul p.2).Whole) :
    (mmaStep 1 c l).1 = wrap 32 (sgn 32 c + (l.map fun p => (p.1.mul p.2).scaled 0).sum) := by
  have hwhole : ∀ v ∈ l.map (fun p => p.1.mul p.2), v.Whole := List.forall_mem_map.mpr h
  rw [mmaStep, if_pos rfl, scaled_sum_of_whole hwhole, List.map_map]
  rfl

theorem matrixElementValues : MatrixElementValues := by
  refine ⟨fun c l hc => ?_, fun c l => ⟨rfl, rfl⟩, fun ty c n l hn hlt hle => ?_⟩
  · have hsgn : sgn 32 c = (BitVec.ofNat 32 c).toInt := by rw [← sgn_toNat, BitVec.toNat_ofNat, Nat.mod_eq_of_lt hc]
    rw [mmaStep_int c _ (List.forall_mem_map.mpr fun p _ => whole_mul_ofInt p.1 p.2), hsgn, List.map_map, wrap]
    simp only [Function.comp_def, scaled_mul_ofInt]
  · obtain ⟨m, hm, rfl⟩ : ∃ m < 16, n = 32 * m := by
      simp only [List.mem_cons, List.not_mem_nil, or_false] at hn
      exact ⟨n / 32, by omega, by omega⟩
    rw [kblocks_take_drop hm hlt hle, mmaElem_append]

end Sys2Proof.Machine
end

section
/-! PROOF. Matrix instructions issue (R304 to R313): the checks of R298 on operands that meet them, what an instruction of the matrix engine
leaves at its issue, and the join of four MMAX; with the value of an element this settles O57. -/

namespace Sys2Proof.Machine

open Sys2Proof.Claims

/-! ### The checks of R298 -/

theorem length_cgetList {w : Nat} (c : Cells w) (i n : Nat) : (cgetList c i n).length = n := by
  induction n generalizing i with
  | zero => rfl
  | succ n ih => exact congrArg (· + 1) (ih (i + 1))

/-- The check of an accumulator block is that of R295. -/
theorem accBad_eq_false_iff {g : Group} {a rows cols ty : Nat} : accBad g a rows cols ty = false ↔ BlockOk g a rows cols ty := by
  have hwords : cols * accWords ty = if ty = 2 then 2 * cols else cols := by
    unfold accWords
    split
    · exact Nat.mul_comm ..
    · exact Nat.mul_one _
  simp only [accBad, hwords, BlockOk, Bool.or_eq_false_iff, Bool.and_eq_false_iff, decide_eq_false_iff_not, beq_eq_false_iff_ne, ne_eq,
    Nat.not_le, Nat.not_lt]
  have heven : (¬ty = 2 ∨ ¬a % 2 = 1) ↔ (ty = 2 → a % 2 = 0) := by omega
  simp only [heven, and_assoc]

section
variable {s : State} {k : Act}

@[simp] theorem State.tileOf_fst (s : State) (t : Nat) : (s.tileOf t).1 = s.tileSnap t := rfl
@[simp] theorem State.tileOf_snd (s : State) (t : Nat) : (s.tileOf t).2 = tensorOf s t := rfl

/-- The block at `addr` that the product of tiles `a` and `b` is added to lies in the group's memory (R295, R304). -/
def State.ProductOk (s : State) (a b addr : Nat) : Prop :=
  BlockOk s.myGroup addr (cfgRows (s.tileSnap a).cfg) (cfgCols (s.tileSnap b).cfg) (accType (tensorOf s a).fmt (tensorOf s b).fmt)

/-- Two tile operands and a block that meet the common checks. -/
theorem State.matrixChecks_of_ok {a b k' addr : Nat} {fmts : Bool}
    (hvalid : cfgValid (s.tileSnap a).cfg = true ∧ cfgValid (s.tileSnap b).cfg = true) (hrows : cfgRows (s.tileSnap b).cfg = k')
    (hfmts : fmts = true) (hblock : s.ProductOk a b addr) : s.matrixChecks (s.tileOf a) (s.tileOf b) k' fmts addr k = k := by
  have hacc := accBad_eq_false_iff.mpr hblock
  simp [State.matrixChecks, hvalid, hrows, hfmts, hacc]

/-- The checks that a move of an accumulator block has in common with the others. -/
theorem moveChecks_of_ok {fmts : Bool} {g : Group} {addr rows cols ty : Nat} (hfmts : fmts = true) (hblock : BlockOk g addr rows cols ty) :
    (if !fmts then tileShape 5 else if accBad g addr rows cols ty then tileShape 4 else k) = k := by
  simp [hfmts, accBad_eq_false_iff.mpr hblock]

/-- Tile registers without a poisoned unit are read as they stand (R253). -/
theorem State.readingTiles_of_sound {ts : List Nat} (h : ∀ t ∈ ts, s.tileBad t = none) : s.readingTiles ts k = k := by
  rw [State.readingTiles, List.findSome?_eq_none_iff.mpr h]

theorem State.readingTiles_pair {a b : Nat} (h : s.tileBad a = none ∧ s.tileBad b = none) : s.readingTiles [a, b] k = k :=
  State.readingTiles_of_sound (by simp [h])

/-- With room in the side log a store-type instruction goes on (R297). -/
theorem State.needLogAt_of_room {va : Option Nat} (h : s.logRoom s.wave.core = true) : s.needLogAt va k = k := by
  cases va with
  | none => rfl
  | some a => exact if_pos h

end

/-! ### Issue to the matrix engine (R92, R95, R179) -/

/-- The wave is held at the instruction that it issued in `s`, until its result is known (R179). -/
def State.heldAtIssue (s t : State) : State := { t with wave := { t.wave with hold := .outst s.fresh, lastIssue := s.clock + 1 } }

/-- An instruction of the matrix engine is outstanding on k3 and takes the token with it; under NANTRAP it has not retired. -/
theorem State.issueEngine_eq (s : State) (cf : BitVec 4) (token : Bool) {e : Effect} (he : e.byEngine = false) :
    s.issueEngine (cfCounter cf) token e =
      if s.wave.nanTrap then .stay (s.heldAtIssue (started s (general cf) token e)) else .state (started s (general cf) token e) := by
  rw [show cfCounter cf = general cf from rfl]
  cases general cf <;> simp [State.issueEngine, State.startOutst, he, started, State.heldAtIssue, Wave.incK]

section
variable {s : State} {i : Instr}

theorem hold_of_ready (h : Ready i s) : s.wave.hold = .none := by
  obtain ⟨-, hhold, -⟩ := h
  exact hhold

/-- An instruction that holds its wave until its result is known keeps nothing of what it has read: it does not go on by itself. -/
theorem settleNew_stay_outst {t : State} {n : Nat} (h : t.wave.hold = .outst n) : settleNew s i (.stay t) = t := by
  simp [settleNew, State.holdOn, h, Hold.goesOn, Hold.inside]

/-- An instruction whose effect is its issue to the matrix engine. -/
theorem exec_issueEngine {eff : State → Act} {cf : BitVec 4} {token : Bool} {e : Effect} (h : Ready i s)
    (he : exec i s = .next (run i s eff)) (hl : insLen i = 8) (hne : e.byEngine = false) (ha : eff s = s.issueEngine (cfCounter cf) token e) :
    exec i s = .next (engaged s (started s (general cf) token e)) := by
  rw [exec_of_effect h he (ha.trans (s.issueEngine_eq cf token hne)), engaged]
  cases hn : s.wave.nanTrap
  · rw [show s.wave.fpctl.getLsbD 8 = false from hn]
    simp only [Bool.false_eq_true, if_false, settleNew, settle_state, hl]
    rfl
  · rw [show s.wave.fpctl.getLsbD 8 = true from hn]
    simp only [if_true]
    rw [settleNew_stay_outst rfl]
    rfl

/-- An instruction whose effect is its issue on k3 (R92). -/
theorem exec_outAct {eff : State → Act} {cf : BitVec 4} {e : Effect} (h : Ready i s) (he : exec i s = .next (run i s eff))
    (hl : insLen i = 8) (ha : eff s = s.outAct (some 3) (cfCounter cf) e) : exec i s = .next (issued s (some 3) (general cf) e) := by
  rw [exec_of_effect h he ha, settleNew_outAct hl rfl]
  rfl

end

/-! ### The join of four MMAX (R309, R310) -/

/-- The clock and what holds the wave in focus are as they were. -/
def State.KeepsIssue (s t : State) : Prop := t.clock = s.clock ∧ t.wave.hold = s.wave.hold

theorem State.KeepsIssue.trans {s t u : State} (h : s.KeepsIssue t) (h' : t.KeepsIssue u) : s.KeepsIssue u :=
  let ⟨hclock, hhold⟩ := h
  let ⟨hclock', hhold'⟩ := h'
  ⟨hclock'.trans hclock, hhold'.trans hhold⟩

theorem State.foldl_keepsIssue {α : Type} {f : State → α → State} (hf : ∀ (s : State) (x : α), s.KeepsIssue (f s x)) (l : List α)
    (s : State) : s.KeepsIssue (l.foldl f s) := by
  induction l generalizing s with
  | nil => exact ⟨rfl, rfl⟩
  | cons x l ih => exact (hf s x).trans (ih (f s x))

theorem State.mapWave_keepsIssue (s : State) (c sl : Nat) {f : Wave → Wave} (hf : ∀ w, (f w).hold = w.hold) :
    s.KeepsIssue (s.mapWave c sl f) := by
  refine ⟨s.mapWave_clock c sl f, ?_⟩
  unfold State.mapWave
  split
  · exact hf s.wave
  · rfl

theorem State.report_keepsIssue (s : State) (c sl : Nat) (r : Report) : s.KeepsIssue (s.report c sl r) := by
  unfold State.report
  split
  next => exact ⟨rfl, rfl⟩
  next w _ =>
    split_ifs
    · exact ⟨rfl, rfl⟩
    · refine State.mapWave_keepsIssue s c sl ?_
      exact fun _ => rfl
    · refine (State.mapWave_keepsIssue s c sl ?_).trans ⟨rfl, rfl⟩
      exact fun _ => rfl

theorem State.putOutst_keepsIssue (s : State) (c sl : Nat) (o : Outst) : s.KeepsIssue (s.putOutst c sl o) := by
  refine State.mapWave_keepsIssue s c sl ?_
  exact fun _ => rfl

theorem State.failJoint_keepsIssue (s : State) (l cluster j : Nat) : s.KeepsIssue (s.failJoint l cluster j) :=
  State.foldl_keepsIssue (fun _ _ => (State.putOutst_keepsIssue ..).trans (State.report_keepsIssue ..)) _ _

theorem State.join_keepsIssue (s : State) (l cluster j : Nat) : s.KeepsIssue (s.join l cluster j) := by
  unfold State.join
  dsimp only
  split_ifs
  · exact ⟨rfl, rfl⟩
  · refine State.foldl_keepsIssue (fun t p => ?_) _ _
    split
    · exact t.putOutst_keepsIssue ..
    · exact ⟨rfl, rfl⟩
  · exact s.failJoint_keepsIssue ..

/-- What an MMAX that has issued leaves of its number: joined once its partners have issued, failed where one of them has failed. -/
def State.joinOrFail (t : State) (bad : Bool) (l cluster j : Nat) : State := if bad then t.failJoint l cluster j else t.join l cluster j

theorem State.joinOrFail_keepsIssue (t : State) (bad : Bool) (l cluster j : Nat) : t.KeepsIssue (t.joinOrFail bad l cluster j) := by
  unfold State.joinOrFail
  split
  · exact t.failJoint_keepsIssue ..
  · exact t.join_keepsIssue ..

/-- A hold of its wave changes nothing of which MMAX wait. -/
theorem State.partners_heldAtIssue (s t : State) (l cluster j : Nat) : (s.heldAtIssue t).partners l cluster j = t.partners l cluster j := by
  simp only [State.partners, State.allWaves, State.heldAtIssue, List.filter_cons]
  split <;> rfl

/-- The four MMAX of a number are not joined before the last has issued. -/
theorem State.join_of_missing {s : State} {l cluster j : Nat} (h : (s.partners l cluster j).length < 4) : s.join l cluster j = s := by
  rw [State.join]
  exact if_pos h

section
variable {s : State} {f : G64}

/-- The effect that an MMAX issues with: an odd core has no tile A of its own (R309). -/
def State.mmaxEffect (s : State) (f : G64) : Effect :=
  .mmax (if s.wave.core % 2 = 0 then some (s.tileSnap f.a.toNat) else none) (s.tileSnap f.b.toNat) (s.wave.sop f.c).toNat
    (f.mod == 1) s.myGroup.mmax

/-- An MMAX counts in its group and issues, and then its number is looked at. -/
theorem exec_mmax (h : Ready (.mmax f) s) (hg : s.wave.granted = true) (hop : s.mmaxBadOp f = none) (hb : s.tileBad f.b.toNat = none)
    (ha : s.wave.core % 2 = 0 → s.tileBad f.a.toNat = none) :
    let v := started s.countMmax (general f.cf) true (s.mmaxEffect f)
    let t := (if s.wave.nanTrap then s.heldAtIssue v else v).joinOrFail (s.myLaunch.mmaxBad.contains (s.wave.core / 4, s.myGroup.mmax))
      s.wave.launch (s.wave.core / 4) s.myGroup.mmax
    exec (.mmax f) s = .next (if s.wave.nanTrap then t else after t 8 t.wave) := by
  intro v t
  have hsound : (f.b.toNat :: if s.wave.core % 2 = 0 then [f.a.toNat] else []).findSome? s.tileBad = none := by
    rw [List.findSome?_eq_none_iff]
    split
    next heven => simp [hb, ha heven]
    next => simp [hb]
  have hissue : s.countMmax.issueEngine (cfCounter f.cf) true (s.mmaxEffect f) =
      if s.wave.nanTrap then .stay (s.heldAtIssue v) else .state v := s.countMmax.issueEngine_eq f.cf true rfl
  have hkeeps (u : State) : u.KeepsIssue (u.joinOrFail (s.myLaunch.mmaxBad.contains (s.wave.core / 4, s.myGroup.mmax)) s.wave.launch
      (s.wave.core / 4) s.myGroup.mmax) := State.joinOrFail_keepsIssue ..
  refine (exec_of_effect (a := if s.wave.nanTrap then .stay t else .state t) h rfl ?_).trans (congrArg Host.Outcome.next ?_)
  · simp only [hg, hop, hsound, Bool.not_true, Bool.false_eq_true, if_false, State.tileOf_fst]
    rw [State.mmaxEffect] at hissue
    rw [hissue]
    cases hn : s.wave.nanTrap <;> simp only [t, hn] <;> rfl
  · cases hn : s.wave.nanTrap
    · obtain ⟨hclock, -⟩ := hkeeps v
      simp only [t, hn, Bool.false_eq_true, if_false, settleNew, settle_state, after, hclock]
      rfl
    · obtain ⟨-, hhold⟩ := hkeeps (s.heldAtIssue v)
      simp only [t, hn, if_true]
      exact settleNew_stay_outst hhold

end

/-! ### The instructions (R304 to R313) -/

section
variable {s : State} {f : G64}

/-- Without its token a matrix instruction stays where it is (R95). -/
theorem exec_tokenless {i : Instr} (hi : i ∈ ([.mma f, .mmat f, .mmas f, .mmax f] : List Instr)) (h : Ready i s)
    (hg : s.wave.granted = false) : exec i s = .next s := by
  have hstay {eff : State → Act} (he : exec i s = .next (run i s eff)) (ha : eff s = .stay s) : exec i s = .next s := by
    rw [exec_of_effect h he ha, settleNew_stay (hold_of_ready h)]
  simp only [List.mem_cons, List.not_mem_nil, or_false] at hi
  rcases hi with rfl | rfl | rfl | rfl
  · exact hstay rfl (by simp only [hg, Bool.not_false, if_true])
  · exact hstay rfl (by simp only [hg, Bool.not_false, if_true])
  · exact hstay rfl (by simp only [hg, Bool.not_false, if_true])
  · exact hstay rfl (by simp only [hg, Bool.not_false, if_true])

section
variable (hg : s.wave.granted = true) (hvalid : cfgValid (s.tileSnap f.a.toNat).cfg = true ∧ cfgValid (s.tileSnap f.b.toNat).cfg = true)
  (hsound : s.tileBad f.a.toNat = none ∧ s.tileBad f.b.toNat = none)
include hg hvalid hsound

theorem exec_mma (h : Ready (.mma f) s) (hrows : cfgRows (s.tileSnap f.b.toNat).cfg = cfgCols (s.tileSnap f.a.toNat).cfg)
    (hpair : mmaPair (tensorOf s f.a.toNat).fmt (tensorOf s f.b.toNat).fmt = true)
    (hblock : s.ProductOk f.a.toNat f.b.toNat (s.wave.sop f.c).toNat) :
    exec (.mma f) s = .next (engaged s (started s (general f.cf) true
      (.mma (s.tileSnap f.a.toNat) (s.tileSnap f.b.toNat) none (s.wave.sop f.c).toNat (f.mod == 1)))) := by
  refine exec_issueEngine h rfl rfl rfl ?_
  simp only [hg, Bool.not_true, Bool.false_eq_true, if_false]
  exact (State.matrixChecks_of_ok hvalid hrows hpair hblock).trans (State.readingTiles_pair hsound)

theorem exec_mmat (h : Ready (.mmat f) s) (hrows : cfgRows (s.tileSnap f.b.toNat).cfg = cfgCols (s.tileSnap f.a.toNat).cfg)
    (ha : ternaryFmt (tensorOf s f.a.toNat).fmt = true) (hb : (tensorOf s f.b.toNat).fmt = 0x0B ∨ (tensorOf s f.b.toNat).fmt = 0x0C)
    (hres : (s.tileSnap f.a.toNat).reserved (tensorOf s f.a.toNat).fmt = false)
    (hblock : s.ProductOk f.a.toNat f.b.toNat (s.wave.sop f.c).toNat) :
    exec (.mmat f) s = .next (engaged s (started s (general f.cf) true
      (.mma (s.tileSnap f.a.toNat) (s.tileSnap f.b.toNat) none (s.wave.sop f.c).toNat (f.mod == 1)))) := by
  refine exec_issueEngine h rfl rfl rfl ?_
  simp only [hg, Bool.not_true, Bool.false_eq_true, if_false]
  refine (State.matrixChecks_of_ok hvalid hrows (by simp [ha, hb]) hblock).trans ?_
  simp only [State.tileOf_fst, State.tileOf_snd, hres, Bool.false_eq_true, if_false]
  exact State.readingTiles_pair hsound

theorem exec_mmas (h : Ready (.mmas f) s)
    (hrows : cfgRows (s.tileSnap f.b.toNat).cfg = 2 * cfgCols (s.tileSnap f.a.toNat).cfg) (heven : cfgCols (s.tileSnap f.a.toNat).cfg % 2 = 0)
    (hpair : mmaPair (tensorOf s f.a.toNat).fmt (tensorOf s f.b.toNat).fmt = true)
    (ha : fmtScaled (tensorOf s f.a.toNat).fmt = false) (hb : fmtScaled (tensorOf s f.b.toNat).fmt = false)
    (hblock : s.ProductOk f.a.toNat f.b.toNat (s.wave.sreg f.c.toNat).toNat) :
    let side := (s.wave.sreg (f.c.toNat + 1)).toNat
    let n := cfgRows (s.tileSnap f.a.toNat).cfg * ((2 * cfgCols (s.tileSnap f.a.toNat).cfg + 7) / 8)
    let bs := cgetList s.myCore.side side n
    side + n ≤ Config.sideBytes → metaBad bs (cfgRows (s.tileSnap f.a.toNat).cfg) (cfgCols (s.tileSnap f.a.toNat).cfg) = false →
    s.badIn (sidePa s.wave.core side) n = none →
    exec (.mmas f) s = .next (engaged s (started s (general f.cf) true
      (.mma (s.tileSnap f.a.toNat) (s.tileSnap f.b.toNat) (some bs) (s.wave.sreg f.c.toNat).toNat (f.mod == 1)))) := by
  intro side n bs hfits hmeta hbad
  refine exec_issueEngine h rfl rfl rfl ?_
  have hkept : (cfgCols (s.tileSnap f.a.toNat).cfg % 2 != 0) = false := by simp [heven]
  simp only [hg, Bool.not_true, Bool.false_eq_true, if_false, State.tileOf_fst, State.tileOf_snd, hkept, Bool.and_false, hpair, ha, hb,
    Bool.not_false, Bool.and_true]
  refine (State.matrixChecks_of_ok hvalid hrows rfl hblock).trans ((if_neg (Nat.not_lt.mpr hfits)).trans ?_)
  simp only [bs, n, side] at hmeta hbad
  simp only [hmeta, hbad, Bool.false_eq_true, if_false]
  exact State.readingTiles_pair hsound

end

theorem exec_accld (h : Ready (.accld f) s) : let d := s.myLaunch.tensor f.d.toNat
    let shape := s.wave.moveShape f d
    accldFmt f.mod.toNat d.fmt = true → BlockOk s.myGroup (s.wave.sop f.a).toNat shape.1 shape.2 f.mod.toNat →
    exec (.accld f) s = .next (issued s (some 3) (general f.cf) (.accld f.d.toNat (s.wave.sop f.a).toNat (s.wave.sreg f.b.toNat).toInt
      (s.wave.sreg (f.b.toNat + 1)).toInt shape.1 shape.2 f.mod.toNat)) := by
  intro d shape hfmt hblock
  exact exec_outAct h rfl rfl (moveChecks_of_ok hfmt hblock)

theorem exec_accst (h : Ready (.accst f) s) (hlog : s.logRoom s.wave.core = true) : let d := s.myLaunch.tensor f.d.toNat
    let shape := s.wave.moveShape f d
    accstFmt d.fmt = true → BlockOk s.myGroup (s.wave.sop f.a).toNat shape.1 shape.2 f.mod.toNat →
    exec (.accst f) s = .next (issued s (some 3) (general f.cf) (.accst f.d.toNat (s.wave.sop f.a).toNat (s.wave.sreg f.b.toNat).toInt
      (s.wave.sreg (f.b.toNat + 1)).toInt shape.1 shape.2 f.mod.toNat (s.wave.roundMode f.sub.toNat))) := by
  intro d shape hfmt hblock
  exact exec_outAct h rfl rfl ((moveChecks_of_ok hfmt hblock).trans (State.needLogAt_of_room hlog))

theorem exec_accq (h : Ready (.accq f) s) (hlog : s.logRoom s.wave.core = true) : let d := s.myLaunch.tensor f.d.toNat
    accqFmt d.fmt = true → BlockOk s.myGroup (s.wave.sop f.a).toNat (d.dim 1) (d.dim 0) f.mod.toNat → d.trailerOk = true →
    exec (.accq f) s = .next (issued s (some 3) (general f.cf) (.accq f.d.toNat (s.wave.sop f.a).toNat f.mod.toNat (s.wave.roundMode f.sub.toNat)
      (fpBits true f.b (s.wave.sop f.b)) (if f.sc then s.wave.sop f.c else 0))) := by
  intro d hfmt hblock htrailer
  refine exec_outAct h rfl rfl ((moveChecks_of_ok hfmt hblock).trans ?_)
  simp only [show (s.myLaunch.tensor f.d.toNat).trailerOk = true from htrailer, Bool.not_true, Bool.false_eq_true, if_false]
  exact State.needLogAt_of_room hlog

theorem exec_tscl (h : Ready (.tscl f) s)
    (hblock : BlockOk s.myGroup (s.wave.sop f.a).toNat (bits (s.wave.sop f.b) 15 0) (bits (s.wave.sop f.b) 31 16) 0) :
    exec (.tscl f) s = .next (engaged s (started s (general f.cf) false (.tscl (s.wave.sop f.a).toNat (bits (s.wave.sop f.b) 15 0)
      (bits (s.wave.sop f.b) 31 16) (fpBits true f.c (s.wave.sop f.c)) (f.sub == 1)))) := by
  refine exec_issueEngine h rfl rfl rfl ?_
  simp only [accBad_eq_false_iff.mpr hblock, Bool.false_eq_true, if_false]

end

theorem matrixInstructionsIssue : MatrixInstructionsIssue := by
  intro s f w g a b fa fb z addr side kept meta_ valid sound block run d ty shape at_ i0 i1 on
  have hlen : meta_.length = _ := length_cgetList ..
  refine ⟨fun i hi h hg => exec_tokenless hi h hg,
    fun hg hvalid hsound hrows hblock => ⟨fun h hpair => exec_mma hg hvalid hsound h hrows hpair hblock,
      fun h hta htb hres => exec_mmat hg hvalid hsound h hrows hta htb hres hblock⟩,
    fun h hg hvalid hsound hside hrows heven hpair hfa hfb hblock hend hmeta => ?_,
    fun h hg hop hb ha => ?_, exec_accld, fun h hfmt hblock hlog => exec_accst h hlog hfmt hblock,
    fun h hfmt hblock htrailer hlog => exec_accq h hlog hfmt hblock htrailer, exec_tscl⟩
  · rw [hlen] at hside hend
    exact exec_mmas hg hvalid hsound h hrows heven hpair hfa hfb hblock hend hmeta hside
  · intro u v held bad t
    have ht : held.joinOrFail (s.myLaunch.mmaxBad.contains (w.core / 4, g.mmax)) w.launch (w.core / 4) g.mmax = t :=
      if_congr List.contains_iff_mem rfl rfl
    refine ⟨ht ▸ exec_mmax h hg hop hb ha, fun hmissing hgood => ?_⟩
    have hpartners : held.partners w.launch (w.core / 4) g.mmax = v.partners w.launch (w.core / 4) g.mmax := by
      simp only [held]
      split
      · exact s.partners_heldAtIssue v ..
      · rfl
    exact (if_neg hgood).trans (State.join_of_missing (hpartners ▸ hmissing))

/-- Settles O57: the instructions from their checks and the engine's issue, the values from exact sums of finite terms. -/
theorem matrixOperations : Obligations.MatrixOperations := ⟨matrixInstructionsIssue, matrixElementValues⟩

end Sys2Proof.Machine
end

section
/-! PROOF. Function registers (R181 to R195): the words of a header, the free words of the pool and Place, what an instruction of the
function engine leaves at its issue, Finish, and the checks of function operations; together they settle O48. -/

namespace Sys2Proof.Machine

open Sys2Proof.Claims

/-! ### Headers and their writes (R181, R190) -/

/-- The second word of a header, from the values of its fields and from its fields. -/
theorem fnWord_eq_headWord (lossy : Bool) {o k te : Nat} (ho : o < 256) (hk : k < 64) (hte : te < 256) :
    fnWord lossy o k te = headWord lossy o k te := by
  apply BitVec.eq_of_toNat_eq
  have hconcat {n m : Nat} (x : BitVec n) (y : BitVec m) : (x ++ y).toNat = x.toNat * 2 ^ m + y.toNat := by
    rw [BitVec.toNat_append, ← Nat.shiftLeft_add_eq_or_of_lt y.isLt, Nat.shiftLeft_eq]
  rw [fnWord, headWord, hconcat, hconcat, hconcat, hconcat]
  cases lossy <;> simp <;> omega

/-- Rows that are given by their number are written from the offset on. -/
theorem fnWrites_map_range (w : Wave) (d : Nat) (lo hi w2 : Word) (o k : Nat) (row : Nat → List Word) :
    fnWrites w d lo hi w2 o ((List.range k).map row) =
      .fnHead d lo hi w2 :: (List.range k).map fun j => .pool (o + j) (lanesBelow w.width) (row j) := by
  refine congrArg (_ :: ·) (List.ext_getElem (by simp) fun j _ _ => ?_)
  simp [Wave.full]

/-- With no write to the function registers in flight the engine finds the wave as it is (R190). -/
theorem fnSeen_of_noneInFlight {w : Wave} (h : ∀ p ∈ w.pend, p.2.isFn = false) : w.fnSeen = w := by
  have hnone : (w.pend.map (·.2)).filter WaveWrite.isFn = [] := by
    refine List.filter_eq_nil_iff.mpr fun x hx => ?_
    obtain ⟨p, hp, rfl⟩ := List.mem_map.mp hx
    simp [h p hp]
  rw [Wave.fnSeen, hnone, List.foldl_nil]

/-! ### Place (R183, R184) -/

section
variable {free : Nat → Bool}

/-- A run is at least as long as the free words that it begins with. -/
theorem le_freeRun_iff {n o k : Nat} : k ≤ freeRun free n o ↔ k ≤ n ∧ ∀ i, o ≤ i → i < o + k → free i = true := by
  induction n generalizing o k with
  | zero =>
    refine ⟨fun h => ⟨h, fun i hlo hhi => ?_⟩, fun h => h.1⟩
    have hk : k = 0 := Nat.le_zero.mp h
    omega
  | succ n ih =>
    cases k with
    | zero => exact iff_of_true (Nat.zero_le _) ⟨Nat.zero_le _, fun i _ _ => by omega⟩
    | succ k =>
      by_cases hfree : free o = true
      · simp only [freeRun, hfree, if_true, Nat.add_le_add_iff_right, ih]
        refine and_congr_right fun _ => ⟨fun h i hlo hhi => ?_, fun h i hlo hhi => h i (by omega) (by omega)⟩
        obtain rfl | hlt := Nat.eq_or_lt_of_le hlo
        · exact hfree
        · exact h i hlt (by omega)
      · simp only [freeRun, hfree, Bool.false_eq_true, if_false]
        exact iff_of_false (by omega) fun h => hfree (h.2 o (Nat.le_refl o) (by omega))

end

/-- The greatest of the values of a function on a list bounds each of them, and is one of them or 0. -/
theorem foldl_max_eq {α : Type} (g : α → Nat) (l : List α) : (∀ x ∈ l, g x ≤ l.foldl (fun m x => max m (g x)) 0) ∧
    (l.foldl (fun m x => max m (g x)) 0 = 0 ∨ ∃ x ∈ l, g x = l.foldl (fun m x => max m (g x)) 0) := by
  rw [← List.foldl_map (f := g) (g := max), List.foldl_max, Nat.zero_max]
  refine ⟨fun x hx => List.le_max?_getD_of_mem (List.mem_map_of_mem hx), ?_⟩
  cases hmax : (l.map g).max? with
  | none => exact .inl rfl
  | some m =>
    obtain ⟨x, hx, hm⟩ := List.mem_map.mp (List.max?_eq_some_iff.mp hmax).1
    exact .inr ⟨x, hx, hm⟩

/-- Words `o` to `o + k − 1` of the pool are there and are free for a result of register `d` (R183). -/
def Wave.PoolRun (w : Wave) (d o k : Nat) : Prop := ∀ i, o ≤ i → i < o + k → i < w.pwords ∧ w.poolFree d i = true

theorem poolFree_iff {w : Wave} {d i : Nat} : w.poolFree d i = true ↔ ∀ c < 16, c ≠ d → (w.fnHead c).defd = true →
    i < (w.fnHead c).off ∨ (w.fnHead c).off + (w.fnHead c).len ≤ i := by
  simp only [Wave.poolFree, List.all_eq_true, List.mem_range, Bool.or_eq_true, beq_iff_eq, Bool.not_eq_true', decide_eq_true_eq, or_assoc]
  refine forall₂_congr fun c _ => ?_
  rw [← Bool.not_eq_true, or_iff_not_imp_left, or_iff_not_imp_left, not_not]

section
variable {w : Wave} {d n : Nat}

/-- The run of free words from `o` on. -/
def Wave.runFrom (w : Wave) (d o : Nat) : Nat := freeRun (w.poolFree d) (w.pwords - o) o

/-- The length of the longest run of free words. -/
def Wave.longestRun (w : Wave) (d : Nat) : Nat := (List.range w.pwords).foldl (fun m o => max m (w.runFrom d o)) 0

theorem le_runFrom_iff {o k : Nat} (ho : o < w.pwords) : k ≤ w.runFrom d o ↔ w.PoolRun d o k := by
  rw [Wave.runFrom, le_freeRun_iff]
  refine ⟨fun ⟨hk, hfree⟩ i hlo hhi => ⟨by omega, hfree i hlo hhi⟩, fun h => ⟨?_, fun i hlo hhi => (h i hlo hhi).2⟩⟩
  by_contra hlong
  exact Nat.lt_irrefl _ (h w.pwords (by omega) (by omega)).1

/-- A run of one word or more begins in the pool. -/
theorem lt_pwords_of_poolRun {o k : Nat} (hk : 1 ≤ k) (h : w.PoolRun d o k) : o < w.pwords :=
  (h o (Nat.le_refl o) (by omega)).1

/-- No run is longer than the longest. -/
theorem le_longestRun {o k : Nat} (hk : 1 ≤ k) (h : w.PoolRun d o k) : k ≤ w.longestRun d := by
  have ho := lt_pwords_of_poolRun hk h
  obtain ⟨hbound, -⟩ := foldl_max_eq (w.runFrom d) (List.range w.pwords)
  exact ((le_runFrom_iff ho).mpr h).trans (hbound o (List.mem_range.mpr ho))

/-- Place, with the wave as the engine finds it. -/
theorem place_eq (h : w.fnSeen = w) : w.place d n =
    match (List.range w.pwords).find? fun o => decide (n ≤ w.runFrom d o) with
    | some o => .ok (o, n, false)
    | none =>
      if w.fnctl.getLsbD 0 || w.longestRun d == 0 then .error (w.longestRun d)
      else .ok (((List.range w.pwords).find? fun o => w.runFrom d o == w.longestRun d).getD 0, w.longestRun d, true) := by
  rw [Wave.place, h]
  rfl

/-- What Place can come to (R184): the lowest run that holds the result, or where there is none a failure, or a longest run. -/
theorem place_cases (h : w.fnSeen = w) (hn : 1 ≤ n) :
    (∃ o, w.place d n = .ok (o, n, false) ∧ w.PoolRun d o n ∧ ∀ q < o, ¬w.PoolRun d q n) ∨
    (∀ q, ¬w.PoolRun d q n) ∧
      ((w.place d n = .error (w.longestRun d) ∧ (w.fnctl.getLsbD 0 = true ∨ w.longestRun d = 0)) ∨
       ∃ o, w.place d n = .ok (o, w.longestRun d, true) ∧ w.PoolRun d o (w.longestRun d) ∧ w.fnctl.getLsbD 0 = false) := by
  cases hfind : (List.range w.pwords).find? fun o => decide (n ≤ w.runFrom d o) with
  | some o =>
    refine .inl ⟨o, by rw [place_eq h, hfind], ?_⟩
    obtain ⟨ho, hmem, hbelow⟩ := List.find?_range_eq_some.mp hfind
    refine ⟨(le_runFrom_iff (List.mem_range.mp hmem)).mp (of_decide_eq_true ho), fun q hq hrun => ?_⟩
    have hshort := hbelow q hq
    simp [(le_runFrom_iff (lt_pwords_of_poolRun hn hrun)).mpr hrun] at hshort
  | none =>
    refine .inr ⟨fun q hrun => ?_, ?_⟩
    · have hq := lt_pwords_of_poolRun hn hrun
      have hshort := List.find?_range_eq_none.mp hfind q hq
      simp [(le_runFrom_iff hq).mpr hrun] at hshort
    · by_cases hfail : (w.fnctl.getLsbD 0 || w.longestRun d == 0) = true
      · exact .inl ⟨by simp only [place_eq h, hfind, hfail, if_true], by simpa using hfail⟩
      · obtain ⟨hlax, hpos⟩ : w.fnctl.getLsbD 0 = false ∧ w.longestRun d ≠ 0 := by simpa using hfail
        obtain ⟨-, hzero | ⟨x, hx, hxmax⟩⟩ := foldl_max_eq (w.runFrom d) (List.range w.pwords)
        · exact absurd hzero hpos
        · obtain ⟨o, hlong⟩ : ∃ o, (List.range w.pwords).find? (fun o => w.runFrom d o == w.longestRun d) = some o :=
            Option.isSome_iff_exists.mp (List.find?_isSome.mpr ⟨x, hx, beq_iff_eq.mpr hxmax⟩)
          have hlongest : w.runFrom d o = w.longestRun d := beq_iff_eq.mp (List.find?_some (p := fun o => w.runFrom d o == w.longestRun d) hlong)
          refine .inr ⟨o, ?_, ?_, hlax⟩
          · simp only [place_eq h, hfind, hfail, if_false, hlong, Bool.false_eq_true, Option.getD_some]
          · exact (le_runFrom_iff (List.mem_range.mp (List.mem_of_find?_eq_some hlong))).mp
              (Nat.le_of_eq hlongest.symm)

end

theorem poolPlacement : PoolPlacement := by
  intro w d n hn hpend free run
  have hseen : w.fnSeen = w := fnSeen_of_noneInFlight (by simp [hpend])
  have hrun (o k : Nat) : run o k ↔ w.PoolRun d o k :=
    forall₃_congr fun i _ _ => and_congr_right fun _ => poolFree_iff.symm
  simp only [hrun]
  obtain ⟨o, hplace, hfits, hlowest⟩ | ⟨hnone, ⟨hplace, hwhy⟩ | ⟨o, hplace, hfits, hlax⟩⟩ := place_cases (d := d) hseen hn
  · simp only [hplace, Except.ok.injEq, Prod.mk.injEq, reduceCtorEq, false_implies, implies_true, and_true]
    rintro _ _ _ ⟨rfl, rfl, rfl⟩
    exact ⟨hfits, Nat.le_refl _, iff_of_true rfl rfl, fun _ => hlowest, fun h => absurd h Bool.false_ne_true⟩
  · simp only [hplace, Except.error.injEq, reduceCtorEq, false_implies, implies_true, true_and]
    rintro _ rfl
    exact ⟨hnone, hwhy⟩
  · have hshort : w.longestRun d < n := by
      by_contra hlong
      exact hnone o fun i hlo hhi => hfits i hlo (by omega)
    simp only [hplace, Except.ok.injEq, Prod.mk.injEq, reduceCtorEq, false_implies, implies_true, and_true]
    rintro _ _ _ ⟨rfl, rfl, rfl⟩
    refine ⟨hfits, Nat.le_of_lt hshort, iff_of_false nofun (Nat.ne_of_lt hshort), fun h => absurd h.symm Bool.false_ne_true,
      fun _ => ⟨hlax, fun q hq => ?_⟩⟩
    exact Nat.not_succ_le_self _ (le_longestRun (Nat.succ_pos _) hq)

/-! ### Issue and Finish (R186, R190) -/

/-- Moving past an instruction leaves what holds the wave. -/
theorem Wave.advance_setHold (w : Wave) (h : Hold) (len clock : Nat) :
    Wave.advance { w with hold := h } len clock = { w.advance len clock with hold := h } := by
  simp only [Wave.advance]
  cases w.rep with
  | some r => dsimp only; split <;> rfl
  | none =>
    cases w.pblk with
    | some p => dsimp only; split <;> rfl
    | none => rfl

section
variable {s : State} {i : Instr}

/-- A state whose wave is held at what was issued in `s`. -/
def State.holdAtIssue (s t : State) : State := { t with wave := { t.wave with hold := .outst s.fresh } }

/-- A function operation that has issued holds its wave until its decision point (R190). -/
theorem settle_fnAct (s : State) (cf : BitVec 4) (regs results : List WaveWrite) :
    settle s 8 (s.fnAct (cfCounter cf) regs results) = fnIssued s cf regs results := by
  have hpast (t : State) : settle s 8 (.state (s.holdAtIssue t)) = s.holdAtIssue (settle s 8 (.state t)) := by
    simp only [settle_state, State.holdAtIssue, Wave.advance_setHold]
  rw [show cfCounter cf = general cf from rfl, State.fnAct, ← State.holdAtIssue, hpast, fnIssued, ← State.holdAtIssue]
  cases general cf with
  | none =>
    rw [show issued s none none (.fn false regs results) =
      settle s 8 (.state (s.holdAtIssue (s.startOutst none none s.wave.insAddr false (.fn false regs results)))) from rfl, hpast]
    rfl
  | some k => rfl

theorem actList_eq_nil_iff {w : Wave} : w.actList = [] ↔ w.act = 0 := by
  refine ⟨fun h => BitVec.eq_of_getLsbD_eq fun L hL => ?_, fun h => by rw [Wave.actList, h]; rfl⟩
  have hnone : ¬(L < 64 ∧ w.act.getLsbD L = true) := by simp [← mem_actList, h]
  simpa using fun hact => hnone ⟨hL, hact⟩

/-- Finish with no active lane has no effect (R187). -/
theorem fnFinish_noLane (h : s.wave.act = 0) (cf : Option Nat) (d : Nat) (r : FnResult) : s.fnFinish cf d r = .wave s.wave := by
  simp only [State.fnFinish, actList_eq_nil_iff.mpr h, List.isEmpty_nil, if_true]

/-- The rounded coefficients of a lane, none beyond the width of the wave (R186). -/
def FnResult.row (r : FnResult) (width L : Nat) : List FV := if L < width then (r.coef L).map fun x => fval (fround 0 x) else []

/-- The length of a result of at most 32 coefficients after adaptive truncation (R186). -/
def FnResult.trimmed (r : FnResult) (w : Wave) : Nat :=
  fnTrim r.te (w.actList.map fun L => (r.row w.width L, rowMax ((r.row w.width L).take r.n))) r.n

theorem rows_getD (r : FnResult) (width L : Nat) :
    ((List.range width).map fun L => (r.coef L).map rne).getD L [] = r.row width L := by
  by_cases hL : L < width
  · simp [FnResult.row, hL, rne]
  · simp [FnResult.row, hL]

/-- Finish of a result of at most 32 coefficients, with a lane active and NANTRAP clear: truncated and placed, it is issued (R186). -/
theorem fnFinish_placed {cf : Option Nat} {d o k : Nat} {cut : Bool} {r : FnResult} (hact : s.wave.act ≠ 0)
    (hnan : s.wave.fpctl.getLsbD 8 = false) (hn : r.n ≤ 32) (hplace : s.wave.place d (r.trimmed s.wave) = .ok (o, k, cut)) :
    s.fnFinish cf d r = s.fnAct cf (fnWrites s.wave d r.lo r.hi (fnWord (r.lossy || cut) o k r.te) o
      ((List.range k).map fun j => (List.range 64).map fun L => fround 0 ((r.row s.wave.width L).getD j (.num false 0 0)))) [] := by
  have hsome : s.wave.actList.isEmpty = false := by simpa [List.isEmpty_iff, actList_eq_nil_iff] using hact
  have hcap : decide (32 < r.n) = false := decide_eq_false (Nat.not_lt.mpr hn)
  simp only [FnResult.trimmed] at hplace
  simp only [State.fnFinish, rows_getD, hsome, firstNan_eq_none (.inl hnan), hcap, Nat.min_eq_left hn, hplace, Bool.false_and,
    Bool.or_false, Bool.false_eq_true, if_false]

end

theorem functionFinish : FunctionFinish := by
  intro s cf d r w row
  refine ⟨fun hact => congrArg (settle s 8) (fnFinish_noLane hact (general cf) d r), ?_⟩
  intro hact hnan hn n o k cut hplace ho hk hte
  refine (congrArg (settle s 8) (fnFinish_placed hact hnan hn hplace)).trans ((settle_fnAct s cf _ _).trans ?_)
  rw [fnWrites_map_range, fnWord_eq_headWord _ ho hk hte]
  rfl

/-! ### FNDEF and FNFREE (R194, R195) -/

section
variable {s : State}

theorem mod_le_one_of_ready {f : G64} (h : Ready (.fndef f) s) : f.mod.toNat ≤ 1 := by
  obtain ⟨-, -, hcheck, -⟩ := h
  have hok := fieldsOk_of_check hcheck
  simp only [fieldsOk, shapeOf, Shape.ok, Bool.and_eq_true, modLe, decide_eq_true_eq] at hok
  obtain ⟨⟨⟨⟨⟨⟨⟨hmod, -⟩, -⟩, -⟩, -⟩, -⟩, -⟩, -⟩ := hok
  exact hmod

/-- `a < b` of two finite numbers, as FNDEF, FNLD and FNRESTR refuse its contrary (R188, R197, R201). -/
theorem refusesInterval_iff {a b : FV} :
    (!a.finite || !b.finite || decide (0 ≤ a.cmp b)) = false ↔ a.finite = true ∧ b.finite = true ∧ a.cmp b < 0 := by
  simp [and_assoc]

end

theorem functionDefinitionResults : FunctionDefinitionResults := by
  refine ⟨fun s f o k cut h => ?_, fun s f h hpend => ?_⟩
  · dsimp only
    have hn : f.mod.toNat % 2 = f.mod.toNat := Nat.mod_eq_of_lt (Nat.lt_succ_of_le (mod_le_one_of_ready h))
    refine ⟨fun hok hplace ho hk => exec_vectorResults h rfl rfl ?_, fun hok m hplace => exec_trapHere h rfl ?_,
      fun hnot => exec_trapHere h rfl (if_pos ((Bool.not_eq_false _).mp (mt refusesInterval_iff.mp hnot)))⟩
    · simp only [refusesInterval_iff.mpr hok, Bool.false_eq_true, if_false, hn, hplace, fnWord_eq_headWord cut ho hk f.c.isLt]
      rw [show List.replicate k (List.replicate 64 (0 : Word)) = (List.range k).map fun _ => List.replicate 64 0 by simp, fnWrites_map_range]
    · simp only [refusesInterval_iff.mpr hok, Bool.false_eq_true, if_false, hn, hplace, Wave.fnPool]
  · have hfreed : s.wave.fnFreed = fun c =>
        .fnHead c (cget s.wave.fn (3 * c)) (cget s.wave.fn (3 * c + 1)) (cget s.wave.fn (3 * c + 2) &&& 0xFFBFFFFF) := by
      funext c
      rw [Wave.fnFreed, fnSeen_of_noneInFlight hpend]
      rfl
    rw [show exec (.fnfree f) s = .next (runVector (.fnfree f) s _) from rfl, runVector_of_ready h]
    simp only [hfreed, beq_iff_eq]
    rfl

/-! ### Checks (R182, R187, R188) -/

/-- The order of the checks of an operation that makes a function: with no active lane it has no effect, and an undefined source raises
FN_DOMAIN 4 (R182, R187). -/
def Wave.fnGuard (w : Wave) (undefined : Bool) (k : Act) : Act :=
  if w.act == 0 then .wave w else if undefined then w.fnDomain 4 else k

section
variable {s : State} {i : Instr} {eff : State → Act} {undefined : Bool} {k : Act}

theorem fnGuard_noLane {w : Wave} (h : w.act = 0) (undefined : Bool) (k : Act) : w.fnGuard undefined k = .wave w :=
  if_pos (beq_iff_eq.mpr h)

theorem fnGuard_undefined {w : Wave} (h : w.act ≠ 0) (k : Act) : w.fnGuard true k = w.fnDomain 4 :=
  if_neg (mt beq_iff_eq.mp h)

theorem fnGuard_defined {w : Wave} (h : w.act ≠ 0) (k : Act) : w.fnGuard false k = k :=
  if_neg (mt beq_iff_eq.mp h)

/-- With no active lane a function operation that makes a function has no effect; with one, an undefined source traps. -/
theorem exec_fnGuard {source : FnHead} (h : Ready i s) (he : exec i s = .next (run i s eff)) (hl : insLen i = 8)
    (ha : eff s = s.wave.fnGuard undefined k) (hsource : source.defd = false → undefined = true) :
    (s.wave.act = 0 → exec i s = .next (after s 8 s.wave)) ∧
      (s.wave.act ≠ 0 → source.defd = false → exec i s = .next (s.faultAt 0x0C 4 s.wave.insAddr)) := by
  refine ⟨fun hnone => ?_, fun hact hundef => exec_trapHere h he (ha.trans ?_)⟩
  · rw [exec_of_effect h he (ha.trans (fnGuard_noLane hnone _ _))]
    exact congrArg (fun n => Host.Outcome.next (after s n s.wave)) hl
  · rw [hsource hundef]
    exact fnGuard_undefined hact k

/-- One whose sources are defined raises FN_DOMAIN where its own check fails (R188). -/
theorem exec_fnGuard_domain {detail : Nat} (h : Ready i s) (he : exec i s = .next (run i s eff)) (hact : s.wave.act ≠ 0)
    (ha : eff s = s.wave.fnGuard undefined k) (hdef : undefined = false) (hk : k = s.wave.fnDomain detail) :
    exec i s = .next (s.faultAt 0x0C detail s.wave.insAddr) := by
  subst hdef hk
  exact exec_trapHere h he (ha.trans (fnGuard_defined hact _))

end

theorem pair_defined {a b : FnHead} (ha : a.defd = true) (hb : b.defd = true) : (!a.defd || !b.defd) = false := by
  rw [ha, hb]
  rfl

theorem functionDomainTraps : FunctionDomainTraps := by
  intro s f w a b trap
  have hone (h : a.defd = false) : (!a.defd) = true := congrArg not h
  have htwo (h : a.defd = false) : (!a.defd || !b.defd) = true := by rw [h]; rfl
  simp only [List.forall_mem_cons, List.not_mem_nil, false_implies, implies_true, and_true]
  refine ⟨⟨fun h => ?_, fun h => ?_, fun h => ?_, fun h => ?_, fun h => ?_, fun h => ?_, fun h => ?_⟩,
    ⟨fun h hundef => ?_, fun h hundef => ?_, fun h hundef => ?_⟩,
    ⟨fun h hact ha hb hdiff => ?_, fun h hact ha hb hdiff => ?_⟩, fun h ha hb hout => ?_, fun h hact ha hempty => ?_⟩
  · exact exec_fnGuard h rfl rfl rfl htwo
  · exact exec_fnGuard h rfl rfl rfl htwo
  · exact exec_fnGuard h rfl rfl rfl hone
  · exact exec_fnGuard h rfl rfl rfl htwo
  · exact exec_fnGuard h rfl rfl rfl hone
  · exact exec_fnGuard h rfl rfl rfl hone
  · exact exec_fnGuard h rfl rfl rfl hone
  · exact exec_trapHere h rfl (if_pos (hone hundef))
  · exact exec_trapHere h rfl (if_pos (hone hundef))
  · exact exec_trapHere h rfl (if_pos (hone hundef))
  · exact exec_fnGuard_domain h rfl hact rfl (pair_defined ha hb) (if_pos (by simpa using hdiff))
  · exact exec_fnGuard_domain h rfl hact rfl (pair_defined ha hb) (if_pos (by simpa using hdiff))
  · obtain ⟨L, hL, hbound⟩ := hout
    have hact : w.act ≠ 0 := fun hnone => by simp [actList_eq_nil_iff.mpr hnone] at hL
    exact exec_fnGuard_domain h rfl hact rfl (pair_defined ha hb) (if_pos (List.any_eq_true.mpr ⟨L, hL, Bool.or_eq_true_iff.mpr hbound⟩))
  · have hdef : (!a.defd) = false := congrArg not ha
    have hempty : 0 ≤ (fval (s.wave.fscalar f.b)).cmp (fval (s.wave.fscalar f.c)) := hempty
    exact exec_fnGuard_domain h rfl hact rfl hdef (if_pos (by simp [hempty]))

/-- Settles O48: what defines and frees a function, where Place puts it, what is refused, and what Finish issues. -/
theorem functionRegisters : Obligations.FunctionRegisters :=
  ⟨functionDefinitionResults, poolPlacement, functionDomainTraps, functionFinish⟩

end Sys2Proof.Machine
end

section
/-! PROOF. The function operations that make a function and finish (R196, R198 to R201), and those that read or load one (R197, R202 to
R205): what each is run with; together they settle O8 and O9. -/

namespace Sys2Proof.Machine

open Sys2Proof.Claims

/-! ### Operations that finish (R186, R187) -/

section
variable {s : State} {i : Instr} {eff : State → Act} {cf : BitVec 4} {d : Nat} {r : FnResult}

/-- What Finish can come to (R184, R186, R187, R189). -/
theorem fnFinish_cases (s : State) (cf : Option Nat) (d : Nat) (r : FnResult) : (∃ w, s.fnFinish cf d r = .wave w) ∨
    (∃ t, s.fnFinish cf d r = .state t) ∨ ∃ code detail addr, s.fnFinish cf d r = .trap code detail addr := by
  simp only [State.fnFinish]
  split
  · exact .inl ⟨_, rfl⟩
  · split
    · exact .inr (.inr ⟨_, _, _, rfl⟩)
    · split
      · exact .inr (.inr ⟨_, _, _, rfl⟩)
      · exact .inr (.inl ⟨_, rfl⟩)

/-- An instruction of 8 bytes whose effect is Finish settles as Finish does: it never stays where it is. -/
theorem settleNew_fnFinish (hl : insLen i = 8) (cf : Option Nat) (d : Nat) (r : FnResult) :
    settleNew s i (s.fnFinish cf d r) = settle s 8 (s.fnFinish cf d r) := by
  obtain ⟨w, h⟩ | ⟨t, h⟩ | ⟨code, detail, addr, h⟩ := fnFinish_cases s cf d r <;> rw [h, ← hl] <;> rfl

/-- Past its checks an operation finishes; with no active lane neither it nor Finish has an effect (R187). -/
theorem exec_fnFinish (h : Ready i s) (he : exec i s = .next (run i s eff)) (hl : insLen i = 8)
    (ha : s.wave.act = 0 → eff s = .wave s.wave) (hk : s.wave.act ≠ 0 → eff s = s.fnFinish (cfCounter cf) d r) :
    exec i s = .next (settle s 8 (s.fnFinish (general cf) d r)) := by
  rw [exec_of_effect h he (a := s.fnFinish (cfCounter cf) d r) ?_, settleNew_fnFinish hl]
  · rfl
  · by_cases hact : s.wave.act = 0
    · rw [ha hact, fnFinish_noLane hact]
    · exact hk hact

/-- The same, where what comes after the checks of its sources is `k`. -/
theorem exec_fnGuard_finish {k : Act} (h : Ready i s) (he : exec i s = .next (run i s eff)) (hl : insLen i = 8) {undefined : Bool}
    (ha : eff s = s.wave.fnGuard undefined k) (hdef : undefined = false)
    (hk : s.wave.act ≠ 0 → k = s.fnFinish (cfCounter cf) d r) : exec i s = .next (settle s 8 (s.fnFinish (general cf) d r)) := by
  subst hdef
  exact exec_fnFinish h he hl (fun hnone => ha.trans (fnGuard_noLane hnone _ _))
    fun hact => ha.trans ((fnGuard_defined hact k).trans (hk hact))

end

/-- Settles O8: past its checks each operation comes to Finish, with the coefficients that its rule gives. -/
theorem functionOperationResults : Obligations.FunctionOperationResults := by
  unfold Obligations.FunctionOperationResults
  intro s f w d a b va vb zero half same span hs nc inner p q point finishes result
  have hone (ha : a.defd = true) : (!a.defd) = false := congrArg not ha
  have hinterval (hint : a.lo = b.lo ∧ a.hi = b.hi) : ¬(a.lo != b.lo || a.hi != b.hi) = true := by
    obtain ⟨hlo, hhi⟩ := hint
    simp [hlo, hhi]
  refine ⟨fun h hd hfits => ?_, fun h hsame => ?_, fun h hsame => ?_, fun h ha => ?_, fun h ha => ?_, fun h ha => ?_,
    fun h ha hb hin => ?_, fun h ha hp hq hpq hlo hhi => ?_⟩
  · refine exec_fnFinish h rfl rfl (fun hnone => if_pos (beq_iff_eq.mpr hnone)) fun hact => ?_
    refine (if_neg (mt beq_iff_eq.mp hact)).trans ((if_neg (Nat.not_lt.mpr hfits)).trans ((if_neg ?_).trans ?_))
    · rw [hd]
      exact Bool.false_ne_true
    · exact reading_sound (sound_of_ready h) _ _
  · obtain ⟨ha, hb, hint⟩ := hsame
    refine exec_fnGuard_finish h rfl rfl rfl (pair_defined ha hb) fun hact => (if_neg (hinterval hint)).trans ?_
    refine congrArg (s.fnFinish _ _) ?_
    simp only [result, fnAddCoef, beq_iff_eq]
    rfl
  · obtain ⟨ha, hb, hint⟩ := hsame
    exact exec_fnGuard_finish h rfl rfl rfl (pair_defined ha hb) fun hact => if_neg (hinterval hint)
  · exact exec_fnGuard_finish h rfl rfl rfl (hone ha) fun hact => rfl
  · exact exec_fnGuard_finish h rfl rfl rfl (hone ha) fun hact => rfl
  · exact exec_fnGuard_finish h rfl rfl rfl (hone ha) fun hact => rfl
  · refine exec_fnGuard_finish h rfl rfl rfl (pair_defined ha hb) fun hact => if_neg ?_
    rw [Bool.not_eq_true, List.any_eq_false]
    exact fun L hL => Bool.not_eq_true _ ▸ Bool.or_eq_false_iff.mpr (hin L hL)
  · have hinside : (!p.finite || !q.finite || decide (0 ≤ p.cmp q) || decide (p.cmp (fval a.lo) < 0) ||
        decide (0 < q.cmp (fval a.hi))) = false := by
      rw [refusesInterval_iff.mpr ⟨hp, hq, hpq⟩, decide_eq_false (Int.not_lt.mpr hlo), decide_eq_false (Int.not_lt.mpr hhi)]
      rfl
    refine exec_fnGuard_finish h rfl rfl rfl (hone ha) fun hact => (if_neg (Bool.eq_false_iff.mp hinside)).trans ?_
    simp only [List.map_map]
    rfl

/-! ### Operations that read (R202 to R205) -/

section
variable {s : State} {i : Instr} {eff : State → Act} {cf : BitVec 4}

/-- A ready operation that issues holds its wave until its decision point (R190). -/
theorem exec_fnAct {regs results : List WaveWrite} (h : Ready i s) (he : exec i s = .next (run i s eff)) (hl : insLen i = 8)
    (ha : eff s = s.fnAct (cfCounter cf) regs results) : exec i s = .next (fnIssued s cf regs results) := by
  rw [exec_of_effect h he ha, ← settle_fnAct, ← hl]
  rfl

/-- With NANTRAP clear one that writes a vector register issues that write for the active lanes (R187, R190). -/
theorem fnVector_untrapped (hnan : s.wave.fpctl.getLsbD 8 = false) (d : Nat) (g : Nat → Word) (made : Nat → Bool) :
    s.fnVector (cfCounter cf) d g made = s.fnAct (cfCounter cf) [] [vector s.wave d g] := by
  simp only [State.fnVector, firstNan_eq_none (.inl hnan)]
  rfl

theorem ne_undefined {h : FnHead} (hdef : h.defd = true) : ¬(!h.defd) = true := by
  rw [hdef]
  exact Bool.false_ne_true

/-- A second word of zeros says no function (R181). -/
theorem FnHead.defd_eq_false_of_zero {h : FnHead} (hw2 : h.w2 = 0) : h.defd = false := by
  rw [FnHead.defd, hw2]
  rfl

theorem FnHead.te_lt (h : FnHead) : h.te < 256 := Nat.mod_lt _ (by decide)

end

/-! ### FNLD (R197) -/

/-- The header that FNST has left in lanes 0 to 2 of vector register `r`. -/
abbrev Wave.savedHead (w : Wave) (r : Nat) : FnHead := { lo := w.vlane r 0, hi := w.vlane r 1, w2 := w.vlane r 2 }

section
variable {s : State} {f : G64}

/-- A header of zeros frees the register. -/
theorem exec_fnld_frees (hr : Ready (.fnld f) s) (h0 : s.wave.vlane f.a.toNat 0 = 0) (h1 : s.wave.vlane f.a.toNat 1 = 0)
    (h2 : s.wave.vlane f.a.toNat 2 = 0) (hpend : s.wave.pend = []) :
    let h := s.wave.fnHead f.d.toNat
    exec (.fnld f) s = .next (fnIssued s f.cf [.fnHead f.d.toNat h.lo h.hi (h.w2 &&& 0xFFBFFFFF)] []) := by
  intro h
  have hzero : ¬(s.wave.vlane f.a.toNat 0 != 0 || s.wave.vlane f.a.toNat 1 != 0 || s.wave.vlane f.a.toNat 2 != 0) = true := by
    rw [h0, h1, h2]
    exact Bool.false_ne_true
  have hfree : (s.wave.savedHead f.a.toNat).defd = false := FnHead.defd_eq_false_of_zero h2
  have hfreed : s.wave.fnFreed f.d.toNat = .fnHead f.d.toNat h.lo h.hi (h.w2 &&& 0xFFBFFFFF) := by
    rw [Wave.fnFreed, fnSeen_of_noneInFlight (by simp [hpend])]
  refine exec_fnAct hr rfl rfl ((reading_sound (sound_of_ready hr) _ _).trans ?_)
  exact (if_pos (congrArg not hfree)).trans ((if_neg hzero).trans (congrArg (fun x => s.fnAct (cfCounter f.cf) [x] []) hfreed))

/-- A header of a function, with its fields in their ranges, is placed with the rows that follow it. -/
theorem exec_fnld_places (hr : Ready (.fnld f) s) : let h := s.wave.savedHead f.a.toNat
    h.defd = true → h.w2.toNat < 2 ^ 24 → 1 ≤ h.len → h.len ≤ 32 → h.te = 0 ∨ 129 ≤ h.te →
    (fval h.lo).finite = true ∧ (fval h.hi).finite = true ∧ (fval h.lo).cmp (fval h.hi) < 0 → f.a.toNat + 1 + h.len ≤ s.wave.vregs →
    ∀ o n cut, s.wave.place f.d.toNat h.len = .ok (o, n, cut) → o < 256 → n < 64 → exec (.fnld f) s = .next (fnIssued s f.cf
      (.fnHead f.d.toNat h.lo h.hi (headWord (h.lossy || cut) o n h.te) :: (List.range n).map fun j =>
        .pool (o + j) (lanesBelow s.wave.width) ((List.range 64).map fun L => s.wave.vlane (f.a.toNat + 1 + j) L)) []) := by
  intro h hdef hw2 hmin hmax hte ⟨hlo, hhi, hlt⟩ hfits o n cut hplace ho hn
  have hlegal : ¬(2 ^ 24 ≤ h.w2.toNat || h.len = 0 || 32 < h.len || !(h.te == 0 || 129 ≤ h.te) || !(fval h.lo).finite ||
      !(fval h.hi).finite || decide (0 ≤ (fval h.lo).cmp (fval h.hi)) || s.wave.vregs < f.a.toNat + 1 + h.len) = true := by
    have hte : (h.te == 0 || decide (129 ≤ h.te)) = true := by simpa using hte
    rw [hte, hlo, hhi, decide_eq_false (Nat.not_le.mpr hw2), decide_eq_false (Nat.ne_of_gt hmin), decide_eq_false (Nat.not_lt.mpr hmax),
      decide_eq_false (Int.not_le.mpr hlt), decide_eq_false (Nat.not_lt.mpr hfits)]
    exact Bool.false_ne_true
  refine exec_fnAct hr rfl rfl ((reading_sound (sound_of_ready hr) _ _).trans ?_)
  refine (if_neg (ne_undefined hdef)).trans ((if_neg hlegal).trans ?_)
  rw [hplace]
  refine (reading_sound (sound_of_ready hr) _ _).trans ?_
  rw [fnWrites_map_range, fnWord_eq_headWord _ ho hn (FnHead.te_lt _)]

end

/-- Settles O9: each operation issues what it reads off its function; FNLD places the header that it reads, or frees. -/
theorem functionReadAndLoadResults : Obligations.FunctionReadAndLoadResults := by
  unfold Obligations.FunctionReadAndLoadResults
  intro s f hnan w a h d k coefficient full x given
  refine ⟨fun hr ha => exec_fnAct hr rfl rfl ((if_neg (ne_undefined ha)).trans (fnVector_untrapped hnan ..)),
    fun hr ha => exec_fnAct hr rfl rfl ((if_neg (ne_undefined ha)).trans (fnVector_untrapped hnan ..)),
    fun hr ha => exec_fnAct hr rfl rfl ((if_neg (ne_undefined ha)).trans (fnVector_untrapped hnan ..)),
    fun hr hsub ha => exec_fnAct hr rfl rfl ?_, fun hr hsub hh hk hact => exec_fnAct hr rfl rfl ?_,
    fun hr hsub => exec_fnAct hr rfl rfl ?_, fun hr => ?_, exec_fnld_frees, ?_⟩
  · simp only [hsub]
    exact (if_neg (ne_undefined ha)).trans (fnVector_untrapped hnan ..)
  · simp only [hsub]
    exact (if_neg (mt beq_iff_eq.mp hact)).trans ((if_neg (ne_undefined hh)).trans (if_neg (Nat.not_le.mpr hk)))
  · simp only [hsub]
    rfl
  · intro n hfits
    exact exec_fnAct hr rfl rfl (if_neg (Nat.not_lt.mpr hfits))
  · intro hr hdef hw2 hmin hmax hte hlo hhi hlt
    exact exec_fnld_places hr hdef hw2 hmin hmax hte ⟨hlo, hhi, hlt⟩

end Sys2Proof.Machine
end
